-- ==== Sys2Proof/Word.lean ====
section
/-! DEFINITION. The word types of the model. Multibyte fields are little-endian (R3); the byte-order
helpers stand in Sys2Proof/Machine/Ops.lean. -/

namespace Sys2Proof

/-- One byte of a frame, an image, a record or a memory. -/
abbrev Byte := BitVec 8

/-- A byte string, the first byte at the lowest offset. -/
abbrev Bytes := List Byte

/-- A register of the device register space is 32 bits wide (R4). -/
abbrev Word := BitVec 32

/-- A physical microword of the control store (R76, R78). -/
abbrev Microword := BitVec 160

end Sys2Proof
end

