-- ==== Sys2Proof/Syntax.lean ====
section
/-! DEFINITION. The commands of the block: one constructor of `Instr` for each row of the manual's table
of operations and events, with the operands each carries. A frame command carries the whole frame as it
arrived; an event whose outcome is physical (a comparator reading, a measurement, the result of a memory
test) carries that outcome; every other effect is computed from the state. -/

namespace Sys2Proof

/-- The four Jetstream ports (R257). -/
inductive Port where
  | host | east | west | pair
  deriving DecidableEq, Repr

/-- How the columns of a received frame ended (R268): with EOF; with an abort column; with a K28.5, SOF or marker-free K28.3
before EOF; or with EOF, where a column held a code violation or a disparity error. -/
inductive LinkEnd where
  | eof | abort | early | badColumn
  deriving DecidableEq, Repr

/-- A frame as a receiving port meets it (R274, R275): the header fields with the length field of the header, the payload
bytes received, the CRC trailer, and how its columns ended. -/
structure Frame where
  port    : Port
  ty      : Nat
  queue   : Nat
  flags   : BitVec 16
  length  : Nat
  seq     : Word
  tag     : Word
  payload : Bytes
  trailer : Word
  link    : LinkEnd
  deriving DecidableEq, Repr

/-- How far a producer has come with its packet (R280): so many bytes of it are written and not committed; the length slot
is written; or the producer abandons it. -/
inductive Writing where
  | part (bytes : Nat)
  | whole
  | abandon
  deriving DecidableEq, Repr

/-- Emission source of a sequence word (R43). -/
inductive Src where
  | stream | again | const
  deriving DecidableEq, Repr

/-- The common fields of a sequence word (R43). -/
structure Emit where
  src    : Src
  sym    : BitVec 4
  ecount : BitVec 16
  deriving DecidableEq, Repr

/-- The reduction of a `JSC` (R56). -/
inductive Reduce where
  | own | any | every
  deriving DecidableEq, Repr

/-- The actions of `CAPT` (R68). -/
inductive CaptAction where
  | arm | force | stop
  deriving DecidableEq, Repr

/-- A comparator reading (R163). -/
inductive Reading where
  | h | l | m | i
  deriving DecidableEq, Repr

/-- What one pin returned for one vector: the reading at each enabled edge strobe, or every reading of a
window from its opening on (R165). -/
structure PinReading where
  channel  : Fin 256
  readings : List Reading
  deriving DecidableEq, Repr

/-- A Virga event word (R190). -/
structure EventWord where
  stamp   : Nat
  channel : Fin 256
  input   : Bool
  falling : Bool
  merged  : Bool
  stale   : Bool
  lost    : Nat
  deriving DecidableEq, Repr

/-- The kinds of transition Virga stamps (R187). -/
inductive EdgeKind where
  | hRise | hFall | lRise | lFall
  deriving DecidableEq, Repr

/-- A start or jump source of an Aurora channel (R231, R233). -/
inductive AurSource where
  | mark  (code : BitVec 8)
  | event (n : Nat)
  deriving DecidableEq, Repr

/-- The items Horizon calibrates (R369). -/
inductive CalItem where
  | deskew (ch : Fin 256)
  | linearity (ch : Fin 256)
  | aurora (n : Fin 8)
  | diode
  deriving DecidableEq, Repr

/-- The two supervised rails (R364). -/
inductive Rail where
  | core | tim
  deriving DecidableEq, Repr

/-- The physical outcomes a start meets (R420): what the straps, the fuses with their lab state, the two image copies in
the flash, the PLLs, the DRAM, the control
stores, port H and the measurements of step 11 answer. `portHUp` are the lanes with which port H came up within its wait and the
LIVE byte of its partner. `pllFails` names a PLL once for each failure under R344. `runs` gives the attempts of an item at step 11
as pairs of runs (R369, R371), and `deskewRuns`, `linRuns`, `auroraRuns` and `diodeRuns` those of every item that `runs` does not
name. `diode` and `ro` are the readings in 0.125 °C against which the ring-oscillator trims are taken; the diode gives none where
its conversion does not finish (R358). -/
structure BootInput where
  straps      : BitVec 2
  ownIn       : Bool
  fusesOk     : Bool
  lab         : Bool
  probe8d     : Bool
  probe1s     : Bool
  copyA       : Bytes
  copyB       : Bytes
  pllFails    : List (Fin 10)
  binsFailedA : Nat
  binsFailedB : Nat
  density     : Nat
  badStores   : List (Fin 256)
  portHUp     : Option (BitVec 8 × BitVec 8)
  runs        : List (CalItem × List (List Int × List Int))
  deskewRuns  : List (List Int × List Int)
  linRuns     : List (List Int × List Int)
  auroraRuns  : List (List Int × List Int)
  diodeRuns   : List (List Int × List Int)
  diode       : Option Int
  ro          : List Int
  durations   : List Nat
  deriving DecidableEq, Repr

/-- A port of the DRAM arbiter that reads bursts (R325). Patrol scrub has a row of its own. -/
inductive DramPort where
  | bank (b : Fin 8)
  | aurora | spill | host
  deriving DecidableEq, Repr

/-- What a DRAM burst read meets: the bytes XORed onto the stored raw burst at the first and at the second
read, and the components that returned a wrong byte in the pattern test of R322. -/
structure BurstFault where
  first  : List (Nat × Byte)
  second : List (Nat × Byte)
  failed : List (Fin 5)
  deriving DecidableEq, Repr

/-- The commands of the block, one constructor per row of the table of operations and events. Operands
named `d` are domain slots, `k` sites, `b` banks, `n` channels or outputs, `ch` pin channels, `q` queues. -/
inductive Instr where
  -- jobs (chapter 01)
  | jobSubmit (f : Frame)
  | jobCancel (f : Frame)
  | jobAdmit
  | admissionWaitExpiry (tag : Word)
  | cancelMemoExpiry
  | timedStartRecheck (d : Fin 16)
  | engineStart (d : Fin 16)
  | jobStart (d : Fin 16)
  | jobStatusCommit (d : Fin 16)
  | ledgerResultSend (d : Fin 16) (parity : Bool)
  -- engines (chapters 02 and 03)
  | microwordExecute (d : Fin 16) (k : Fin 256) (upset : Option (Fin 256 × Microword))
  | controlStoreReloadDone (ch : Fin 256) (digestOk readbackOk : Bool)
  | nop (d : Fin 16) (k : Fin 256)
  | vec (d : Fin 16) (k : Fin 256) (e : Emit)
  | rpt (d : Fin 16) (k : Fin 256) (e : Emit) (reps : Nat)
  | loop (d : Fin 16) (k : Fin 256) (e : Emit) (count : Nat)
  | endl (d : Fin 16) (k : Fin 256) (e : Emit)
  | call (d : Fin 16) (k : Fin 256) (e : Emit) (target : Nat)
  | ret (d : Fin 16) (k : Fin 256) (e : Emit)
  | jmp (d : Fin 16) (k : Fin 256) (e : Emit) (target lpop : Nat)
  | jsc (d : Fin 16) (k : Fin 256) (e : Emit) (target lpop : Nat) (cond : BitVec 7) (sense : Bool) (reduce : Reduce)
  | jev (d : Fin 16) (k : Fin 256) (e : Emit) (target lpop : Nat) (event : Fin 24) (keep : Bool)
  | wordMatch (d : Fin 16) (k : Fin 256) (e : Emit) (target lpop : Nat) (cond : BitVec 7) (passes : Nat)
  | wait (d : Fin 16) (k : Fin 256) (e : Emit) (target lpop : Nat) (event : Fin 24) (passes : Nat)
  | barr (d : Fin 16) (k : Fin 256) (e : Emit)
  | tset (d : Fin 16) (k : Fin 256) (e : Emit) (set : BitVec 8)
  | fmask (d : Fin 16) (k : Fin 256) (e : Emit) (entry : BitVec 8)
  | ledgSelect (d : Fin 16) (k : Fin 256) (e : Emit) (inc : Bool) (item : BitVec 16)
  | ledgCommit (d : Fin 16) (k : Fin 256) (e : Emit)
  | ledgCommitSelect (d : Fin 16) (k : Fin 256) (e : Emit) (inc : Bool) (item : BitVec 16)
  | ledgerCommit (d : Fin 16) (k : Fin 256) (parity : Bool)
  | mark (d : Fin 16) (k : Fin 256) (e : Emit) (aurora markOut squall : BitVec 8) (ring : Option (Fin 8)) (code : BitVec 8)
  | capt (d : Fin 16) (k : Fin 256) (e : Emit) (banks : BitVec 8) (action : CaptAction)
  | apg (d : Fin 16) (k : Fin 256) (e : Emit) (banks : BitVec 8) (entry vcount : Nat)
  | halt (d : Fin 16) (k : Fin 256) (e : Emit)
  -- supply, generators, timing, compare (chapters 04 to 07)
  | vectorPop (d : Fin 16) (parity : Bool)
  | keepAliveEnd (d : Fin 16) (k : Fin 256)
  | compareReturn (d : Fin 16) (readings : List PinReading)
  | refillRequest (b : Fin 8) (borrow : Bool)
  | refillLanding (ch : Fin 256)
  | cumulusInstruction (b : Fin 8) (parity : Bool)
  | cumulusRewriteDone (b : Fin 8) (readbackOk : Bool)
  -- Virga and Squall (chapters 08 and 09)
  | virgaStamp (ch : Fin 256) (kinds : BitVec 4) (c r : Nat)
  | virgaRunCalibration (ch : Fin 256) (sum1 sum2 : Nat)
  | virgaGapCalibration (ch : Fin 256) (sum1 sum2 : Nat)
  | eventWordArrival (b : Fin 8) (word : EventWord)
  | squallArm (b : Fin 8) (v : Nat)
  | squallForceTrigger (b : Fin 8) (v : Nat)
  | squallStop (b : Fin 8) (v : Nat)
  | triggerExit (b : Fin 8) (parity : Option Bool)
  | segmentClose (b : Fin 8)
  | rearmGapEnd (b : Fin 8)
  | pinStateRecordComplete (b : Fin 8)
  | captureSend (b : Fin 8) (parity : Option Bool)
  -- Aurora (chapter 10)
  | auroraStart (n : Fin 8) (src : AurSource) (ball : Int)
  | jumpRequestArrival (n : Fin 8) (src : AurSource) (sample : Int)
  | jumpRequestRegister (n : Fin 8)
  | auroraJump (n : Fin 8)
  | auroraStepEnd (n : Fin 8)
  | auroraUnderrun (n : Fin 8) (sample : Nat)
  | auroraRefillRequest (n : Fin 8) (borrow : Bool) (sample : Nat)
  | auroraRefillLanding (n : Fin 8)
  | openLoadCheck (n : Fin 8) (highLeg : Bool)
  | complianceViolation (n : Fin 8) (sample : Nat)
  -- Jetstream (chapter 11)
  | markerSend (p : Port)
  | markerReceive (lane : Fin 20) (groups : List (BitVec 10)) (inverted : Bool) (skew : Nat)
  | cdrLockLoss (lane : Fin 20) (signal : Bool)
  | mainPathTimeout (p : Port)
  | fallbackTimeout (p : Port)
  | linkIdleExpiry (p : Port)
  | deepIdleEntry (p : Port)
  | deepIdleExit (p : Port) (woken : Bool)
  | deepIdleExitTimeout (p : Port)
  | frameTransmit (p : Port) (columns elapsed : Nat)
  | timestampBlockReceive (p : Port) (elapsed : Nat)
  | creditBlockReceive (p : Port) (q : Fin 64) (count : BitVec 16) (bad : Bool)
  | creditBlockSend (p : Port) (q : Fin 64) (elapsed : Nat)
  -- Drift (chapter 12)
  | packetCommit (q : Fin 64) (stage : Writing) (ty : Nat) (flags : BitVec 16) (tag : Word) (payload : Bytes) (mismatch : Bool)
  | linePop (q : Fin 64) (damage : Option Nat)
  | dftPop (value : Word)
  | failLogFrameCommit (d : Fin 16)
  | read (f : Frame) (parity : Option (Fin 65536))
  | regWrite (f : Frame)
  | regRead (f : Frame)
  | loadOpen (f : Frame)
  | loadData (f : Frame)
  | loadClose (f : Frame)
  | loadFree (f : Frame)
  | loadAbort (f : Frame)
  -- Horizon requests (chapter 17)
  | calSetBoardTerms (f : Frame)
  | calSetCalibrate (f : Frame)
  | calSetLoadChannelRecords (f : Frame)
  | calSetLoadAuroraRecords (f : Frame)
  | calSetSave (f : Frame)
  | calSetConfigure (f : Frame)
  -- Zenith (chapter 13)
  | timeSetSet (f : Frame)
  | timeSetConfigure (f : Frame)
  | timeSetLaunch (f : Frame)
  | timedLaunch
  | syncRequest (f : Frame)
  | syncResponse (f : Frame)
  | syncExchangeStart
  | syncExchangeTimeout
  | syncQualityExpiry
  | zenTimeSnapshot
  -- recovery and power requests (chapters 16 and 18)
  | recover (f : Frame)
  | powerSleep (f : Frame)
  | powerHold (f : Frame)
  | powerDramPoint (f : Frame)
  | powerWarmReset (f : Frame) (boot : BootInput)
  | powerConfigure (f : Frame)
  | holdExpiry (u : Fin 22)
  | unitIdleTimeout (u : Fin 22)
  | unitDozeTimeout (u : Fin 22)
  | unitWake (u : Fin 22)
  -- DRAM (chapter 14)
  | refresh (sub : Fin 8)
  | patrolScrubRead (fault : BurstFault)
  | dramRead (port : DramPort) (burst : Nat) (fault : BurstFault)
  | alertN (sub : Fin 8) (writes persist : Nat)
  | modeRegisterCheck (sub : Fin 8) (bad : Option Byte)
  | selfRefreshEntry
  | selfRefreshExit
  -- clocks (chapter 15)
  | refclkAbsent
  | refclkPresent
  | pllWindowClose (n : Fin 10) (count : Nat)
  | pllFeedbackTimeout (n : Fin 10)
  | pllLockTimeout (n : Fin 10)
  | ddrPllRelockTimeout
  -- temperature and supply (chapter 16)
  | diodeReading (value : Option Int)
  | ringOscillatorRead (raw : List Int)
  | throttleGraceExpiry
  | bankCapDecrement
  | dipBegin (r : Rail)
  | dipEnd (r : Rail) (samples : Nat)
  | dipFault (r : Rail)
  | supplyReset (boot : BootInput)
  | telemetry
  -- Horizon (chapter 17)
  | backgroundCalibrationStart
  | calibrationRunComplete (item : CalItem) (values : List Int)
  | fence
  -- Anvil (chapter 18)
  | faultNotice
  | nimbusWatchdogExpiry
  | nimbusDrainEnd (boot : BootInput)
  | recoveryDrainEnd (boot : BootInput)
  | recoveryComplete (pllFails : List (Fin 10))
  -- Daybreak (chapter 19)
  | powerOnReset (boot : BootInput)
  | resetN (boot : BootInput)
  | refclkWaitTimeout
  | portHWaitTimeout
  -- ring and pair (chapter 20)
  | globalEvent (f : Frame)
  | pairDigest (f : Frame)
  | digestTimeout (d : Fin 16) (window : Nat)
  | pairTakeover (f : Frame)
  | pairOwnInLow
  | pairOwnConflict
  | ownerClaim
  -- pins and test (chapter 21)
  | extTrig (n : Fin 8)
  | markOut (n : Fin 8)
  | sysPecWr (o : Fin 32) (word : Word)
  | pecFrameComplete (o : Fin 32) (status : Byte) (data : BitVec 16) (crc : Byte)
  | csDiagRead (value : Word)
  | csDiagReadDone
  | bypass
  | idcode
  | samplePreload (cells : Bytes)
  | extest
  | extestPulse
  | extestTrain
  | clamp
  | highz
  | unlock
  | unlockVerify (challenge : Bytes) (scope : Byte) (signature pubkey : Bytes)
  | debug
  | debugAccess (reg : BitVec 66)
  | peLoop (on : Bool)
  | jetLoop (ports : BitVec 4)
  | prbs (on : Bool) (errors : Nat)
  | bistGo
  | bistComplete (failed : Bool)
  | nclkTick
  | gridOffsetMeasurement (elapsed : Nat)
  | cdrLock (lane : Fin 20)
  | auroraParityError (n : Fin 8) (sample : Nat) (testOk : Bool)
  | nimbusMemoryError
  | bgIntervalExpiry (item : CalItem)
  | twinkleTransition
  deriving DecidableEq, Repr

end Sys2Proof
end

