-- ==== Sys2Proof/Decode.lean ====
section
/-! DEFINITION. The words of the table of commands. The table gives its rows no bits: a command is an
operation or an event, named by its row, and no word spells one. -/

namespace Sys2Proof

/-- The command a word of `nbits` bits spells. No row of the table gives bits, so no word spells one. -/
def decodeTableWord (_nbits _w : Nat) : Option Instr := none

end Sys2Proof
end

