-- ==== Sys2Proof/Config.lean ====
section
/-! DEFINITION. What an implementation fixes: the figures of R1 and R2, the addresses of the registers, and
the values the manual leaves open, which are constants without a body. -/

namespace Sys2Proof.Config

/-- A value the manual leaves open, one for each draw (R6). A statement holds for every choice of it. -/
opaque freeWord : Nat → BitVec 64

/-- Whether the sample of a rail (0 VDD_CORE, 1 VDD_TIM) at a time lies below the warning level while a dip stands: a dip also
covers returns above it of less than 20 samples (R364). -/
opaque railDips : Nat → Nat → Bool

/-- The SHA-384 hash of a byte string, as the published standard gives it; the model leaves it uninterpreted. -/
opaque sha384 : Bytes → BitVec 384

/-- The P-384 public key whose hash the fuses hold (R95): x then y, 96 bytes. -/
opaque deviceKey : BitVec 768

/-- A signature that its owner makes over a hash: r then s, 96 bytes. The model leaves it uninterpreted. -/
opaque ecdsaSign : BitVec 384 → BitVec 768

/-- Any other public key, hash and signature that ECDSA P-384 accepts. The model leaves it uninterpreted. -/
opaque ecdsaOther : Bytes → BitVec 384 → Bytes → Bool

/-- The 256-bit fuse secret (R95). -/
opaque fuseSecret : BitVec 256

/-- The key that the hardware derives from the fuse secret and the stepping code (R95). -/
opaque deriveKey : BitVec 256 → Nat → BitVec 256

/-- Byte `i` of the AES-256-GCM key stream of a key and a nonce; the model leaves it uninterpreted. -/
opaque gcmStream : BitVec 256 → Bytes → Nat → Byte

/-- The AES-256-GCM tag of a key, a nonce, additional data and a ciphertext; the model leaves it uninterpreted. -/
opaque gcmTag : BitVec 256 → Bytes → Bytes → Bytes → BitVec 128

/-! ### Clock units in ftu (R2) -/

/-- One ECLK: 8,192 ftu. -/
def eclk : Nat := 8192

/-- One NCLK tick in nanoseconds. -/
def nclkNs : Nat := 50

end Sys2Proof.Config

/-! ### Register addresses (R4) -/

namespace Sys2Proof.Reg

def admitStat : Nat := 0x0000_0100
def cancelMiss : Nat := 0x0000_0104
def domState (n : Nat) : Nat := 0x0000_0140 + 8 * n
def domTag (n : Nat) : Nat := 0x0000_0144 + 8 * n
def ringStat : Nat := 0x0000_0200
def ringCount : Nat := 0x0000_0204
def ringFwd : Nat := 0x0000_0208
def test : Nat := 0x0000_0300
def testStat : Nat := 0x0000_0304
def markStat : Nat := 0x0000_0308
def pecWr (o : Nat) : Nat := 0x0000_0400 + 4 * o
def pecStat (o : Nat) : Nat := 0x0000_0480 + 4 * o
def domEnd (n : Nat) : Nat := 0x0002_0000 + 8 * n
def domEndPos (n : Nat) : Nat := 0x0002_0004 + 8 * n
def ucodeStat : Nat := 0x0002_0100
def ucodeBase : Nat := 0x0002_0104
def mcStat : Nat := 0x0002_0108
def mcInfo : Nat := 0x0002_010C
def mcCount : Nat := 0x0002_0110
def csAddr : Nat := 0x0002_0114
def csData (k : Nat) : Nat := 0x0002_0118 + 4 * k
def strDry (n : Nat) : Nat := 0x0003_0000 + 4 * n
def strBank (n : Nat) : Nat := 0x0003_0040 + 4 * n
def strBorrow (n : Nat) : Nat := 0x0003_0060 + 4 * n
def cumStat (n : Nat) : Nat := 0x0004_0000 + 0x20 * n
def cumOps (n : Nat) : Nat := 0x0004_0004 + 0x20 * n
def cumFailRec (n : Nat) : Nat := 0x0004_0008 + 0x20 * n
def cumGen (n i : Nat) : Nat := 0x0004_000C + 0x20 * n + 4 * i
def halPerLo (n : Nat) : Nat := 0x0005_0000 + 8 * n
def halPerHi (n : Nat) : Nat := 0x0005_0004 + 8 * n
def halSepStat : Nat := 0x0005_0080
def halSepVecLo : Nat := 0x0005_0084
def halSepVecHi : Nat := 0x0005_0088
def halSepCount : Nat := 0x0005_008C
def halTset (n : Nat) : Nat := 0x0005_0400 + 4 * n
def cmpRet (n : Nat) : Nat := 0x0006_0000 + 4 * n
def cmpStop (n : Nat) : Nat := 0x0006_0040 + 8 * n
def cmpStopVec (n : Nat) : Nat := 0x0006_0044 + 8 * n
def cmpInvalid : Nat := 0x0006_00C0
def ledCommits : Nat := 0x0007_0000
def ledScratch (k : Nat) : Nat := 0x0008_0000 + 4 * k
def virCal (n : Nat) : Nat := 0x000A_0000 + 4 * n
def virLost (n : Nat) : Nat := 0x000A_0400 + 4 * n
def virStat : Nat := 0x000A_0800
def sqlStat (n : Nat) : Nat := 0x000B_0000 + 0x20 * n
def sqlTrig (n : Nat) : Nat := 0x000B_0004 + 0x20 * n
def sqlMissed (n : Nat) : Nat := 0x000B_0008 + 0x20 * n
def sqlSegs (n : Nat) : Nat := 0x000B_000C + 0x20 * n
def sqlFifo (n : Nat) : Nat := 0x000B_0010 + 0x20 * n
def aurStat (n : Nat) : Nat := 0x000C_0000 + 0x20 * n
def aurStopLo (n : Nat) : Nat := 0x000C_0004 + 0x20 * n
def aurStopHi (n : Nat) : Nat := 0x000C_0008 + 0x20 * n
def aurReq (n : Nat) : Nat := 0x000C_000C + 0x20 * n
def aurRing (n : Nat) : Nat := 0x000C_0010 + 0x20 * n
def jetPortStat (n : Nat) : Nat := 0x000D_0000 + 0x10 * n
def jetPortErr (n : Nat) : Nat := 0x000D_0004 + 0x10 * n
def jetPortRxf (n : Nat) : Nat := 0x000D_0008 + 0x10 * n
def jetPortTxf (n : Nat) : Nat := 0x000D_000C + 0x10 * n
def jetLane (n : Nat) : Nat := 0x000D_0100 + 4 * n
def dftStat (n : Nat) : Nat := 0x000E_0000 + 0x10 * n
def dftCfg (n : Nat) : Nat := 0x000E_0004 + 0x10 * n
def dftDrop (n : Nat) : Nat := 0x000E_0008 + 0x10 * n
def dftCorr (n : Nat) : Nat := 0x000E_000C + 0x10 * n
def dftPop : Nat := 0x000E_0400
def dftLine (k : Nat) : Nat := 0x000E_0404 + 4 * k
def zenSecLo : Nat := 0x000F_0000
def zenSecHi : Nat := 0x000F_0004
def zenNs : Nat := 0x000F_0008
def zenFrac : Nat := 0x000F_000C
def zenStat : Nat := 0x000F_0010
def zenQual : Nat := 0x000F_0014
def zenGrid : Nat := 0x000F_0018
def zenCorr : Nat := 0x000F_001C
def zenXchg : Nat := 0x000F_0020
def zenLate : Nat := 0x000F_0024
def drmStat : Nat := 0x0010_0000
def drmScrub : Nat := 0x0010_0004
def drmIdle : Nat := 0x0010_0008
def drmSr : Nat := 0x0010_000C
def drmPlan (n : Nat) : Nat := 0x0010_0020 + 4 * n
def drmPlanAux : Nat := 0x0010_0040
def drmSub (n : Nat) : Nat := 0x0010_0080 + 8 * n
def drmCorr (n : Nat) : Nat := 0x0010_0084 + 8 * n
def clkPllStat (n : Nat) : Nat := 0x0011_0000 + 4 * n
def clkPllCount (n : Nat) : Nat := 0x0011_0040 + 4 * n
def clkRefStat : Nat := 0x0011_0080
def pwrUnitLo : Nat := 0x0012_0000
def pwrUnitHi : Nat := 0x0012_0004
def pwrIdle : Nat := 0x0012_0008
def pwrDoze : Nat := 0x0012_000C
def pwrLink : Nat := 0x0012_0010
def pwrTelem : Nat := 0x0012_0014
def pwrTherm : Nat := 0x0012_0018
def pwrThrot : Nat := 0x0012_001C
def pwrBankT (n : Nat) : Nat := 0x0012_0020 + 4 * n
def pwrSupply : Nat := 0x0012_0040
def pwrCaution : Nat := 0x0012_0044
def pwrPsum : Nat := 0x0012_0048
def hznStat : Nat := 0x0013_0000
def hznFail : Nat := 0x0013_0004
def hznChan (n : Nat) : Nat := 0x0013_0100 + 4 * n
def anvStat : Nat := 0x0014_0000
def anvSource : Nat := 0x0014_0004
def anvSeq : Nat := 0x0014_0008
def anvJobErr : Nat := 0x0014_000C
def anvEvent : Nat := 0x0014_0010
def anvUseCh (k : Nat) : Nat := 0x0014_0020 + 4 * k
def anvUseUnit : Nat := 0x0014_0040
def dbkStat : Nat := 0x0015_0000
def dbkReset : Nat := 0x0015_0004
def dbkFallback : Nat := 0x0015_0008
def paiStat : Nat := 0x0016_0000
def paiCount : Nat := 0x0016_0004
def paiUnshadowed : Nat := 0x0016_0008

end Sys2Proof.Reg
end

