-- ==== Sys2Proof/Machine/State.lean ====
section
/-! DEFINITION. The state of the block as plain data, the reasons a step can stop, and the state after
reset. A table (`Tbl`) is a list of (index, value) pairs in one canonical form: indices strictly rising and
no entry equal to what an unlisted index reads as; Sys2Proof/Machine/Ops.lean reads and writes it. Registers
that no other field determines stand in `regs`, keyed by their address; a register that shows other state is
computed when it is read (Sys2Proof/Machine/Registers.lean). -/

namespace Sys2Proof.Machine

/-- A sparse table: strictly rising indices, no entry equal to the default of its index. -/
abbrev Tbl (α : Type) := List (Nat × α)

/-- A Zenith time: seconds, nanoseconds and the fraction in units of 2^−32 ns (R301). -/
structure ZTime where
  s    : Nat
  ns   : Nat
  frac : Nat
  deriving DecidableEq, Repr

/-! ### Jobs and domains (chapter 01) -/

/-- A job in the admission window (R21, R24): its tag and payload, when it entered, its wait reason (1 to 5)
and whether it has waited at check 17 (R22). -/
structure Waiting where
  tag       : Word
  payload   : Bytes
  entered   : Nat
  reason    : Nat
  throttled : Bool
  deriving DecidableEq, Repr

/-- The states of a domain slot (R39). -/
inductive Phase where
  | free | admitted | running | ending
  deriving DecidableEq, Repr

/-- How a job ended (R28, R30, R31): status, reason, first vector not played, the channel that ran dry
(0xFFFF if none), whether Nimbus still produces frames and final commits for it (R91, R177), and whether the fail records
of vectors already played are still written (R134). -/
structure Ending where
  status    : Nat
  reason    : Nat
  endVector : Nat
  starveCh  : Nat
  reports   : Bool
  logs      : Bool
  deriving DecidableEq, Repr

/-- One pin of a played vector: the symbol and timing set it played, the compare handling of the word that
pushed the vector (R80 cmp_mode), the mask bit, and whether it played a starve waveform or stood parked. -/
structure PlayedPin where
  ch     : Nat
  site   : Nat
  sym    : Nat
  tset   : Nat
  cmp    : Nat
  masked : Bool
  starve : Bool
  parked : Bool
  deriving DecidableEq, Repr

/-- A vector that has been popped and not yet judged (R47, R169), with the item current in each site. -/
structure Played where
  v     : Nat
  pins  : List PlayedPin
  items : List (Nat × Nat)
  deriving DecidableEq, Repr

/-- One digest of a pair window with the time it was sent or arrived (R440, R441). -/
structure Digest where
  at_     : Nat
  kind    : Nat
  window  : Nat
  vectors : Nat
  drive   : Word
  fail    : Word
  deriving DecidableEq, Repr

/-- The pair bookkeeping of a domain (R440 to R443): the drive and fail checksums of the open windows, the
digests sent and received, whether the job runs without comparison, and whether the final digest compared. -/
structure PairJob where
  drives  : List (Nat × Nat × Word)
  fails   : List (Nat × Nat × Word)
  own     : List Digest
  partner : List Digest
  alone   : Bool
  final   : Bool
  deriving DecidableEq, Repr

/-- A domain slot (R18, R30, R39) with its job. `idle` counts the ECLK since its admission until its engines start, `lead` those
since, up to the five before vector 0, and `eclk` those from vector 0 on (R42). Of an ending it holds the ECLK count plus 1, the rank under R92, and the registers
written for it, each with its value before and after. The ECLK of count `tickAt` began `tickOff` ftu after the last NCLK
tick. `missing` lists the channels whose engine met a machine check, each
with the first vector it did not push (R90). Each waiting fail record carries its buffer: the bank of its Cumulus, or 8 (R140, R183). -/
structure Dom where
  phase     : Phase
  tag       : Word
  payload   : Bytes
  sites     : Nat
  throttled : Bool
  flags     : BitVec 16
  waitUs    : Nat
  admitAt   : ZTime
  startAt   : ZTime
  endAt     : ZTime
  readyAt   : Nat
  engines   : Bool
  idle      : Nat
  lead      : Nat
  eclk      : Nat
  tickAt    : Nat
  tickOff   : Nat
  next      : Nat
  ret       : Nat
  keep      : Option Nat
  halted    : Bool
  stopSent  : Bool
  ended     : Option Ending
  endClock  : Nat
  endRank   : Nat
  undo      : List (Nat × Word × Word)
  missing   : List (Nat × Nat)
  flight    : List Played
  records   : List (Nat × Bytes)
  recordsAt : Nat
  sent      : Bool
  pair      : PairJob
  deriving DecidableEq, Repr

/-! ### Engines and sites (chapters 02 and 03) -/

/-- An open loop level (R51): the iterations that remain, the present one among them, the address after the `LOOP`, and the
rewind mark of every pin of the site as a symbol position of its stream (R111). -/
structure Loop where
  count : Nat
  addr  : Nat
  marks : Tbl Nat
  deriving DecidableEq, Repr

/-- A stretch of pushed vectors of one word: the first vector, the count, the source, the constant symbol,
the length of a replayed block (R45), the stream position or last symbol of each pin at the push, and the
timing set, compare handling, item, mask and Cumulus banks in force. `starve` marks slots that play the starve
waveform (R80 vsrc 6). -/
structure Run where
  v     : Nat
  count : Nat
  src   : Src
  sym   : Nat
  block : Nat
  base  : Tbl Nat
  tset  : Nat
  cmp   : Nat
  item  : Nat
  mask  : Nat
  cum   : Nat
  starve : Bool
  deriving DecidableEq, Repr

/-- A marker or capture action attached to its effect vector (R46, R67, R68). `zero` marks a word of
ecount 0. -/
inductive Act where
  | mark (v : Nat) (zero : Bool) (aurora markOut squall : Nat) (ring : Option Nat) (code : Byte)
  | capt (v : Nat) (zero : Bool) (banks : Nat) (action : CaptAction)
  deriving DecidableEq, Repr

/-- Where a site waits: in a word whose decision is open (an interlocked `JSC`, a `MATCH`, a `WAIT`), with
its opcode and first vector; or at a `BARR` or an `APG` barrier, with its address and the vector of its arrival. -/
inductive Waits where
  | none
  | word (op v : Nat)
  | barr (addr v ecount : Nat)
  | apg (addr v banks entry vcount : Nat) (e : Emit)
  deriving DecidableEq, Repr

/-- The microarchitectural state of a site's engines, which move in lockstep (R15, R77 to R85): CA, the micro-return
register, IR, EC, the scratch registers, the flags and the group 5 latch. `first` is the vector at which the word in IR
was dispatched, `barr` and `apg` the address and vector of the site's arrival at a barrier, `barrRel` and `apgRel` the
vector A of a release (R63, R70), and `replay` the runs in the replay
buffer, of which `rpos` vectors have been played again. `ran` is the ECLK count of the last microword plus 1,
`landing` tells that its slots land at the end of the present ECLK (R47, R77), and `rest` counts the slots that a held word has
still to push, where it has pushed some (R114). -/
structure Micro where
  ca     : Nat
  mret   : Nat
  ir     : BitVec 128
  ec     : Nat
  sc     : List Word
  z      : Bool
  n      : Bool
  c      : Bool
  ov     : Bool
  latch  : Bool
  first  : Nat
  barr   : Option (Nat × Nat)
  apg    : Option (Nat × Nat)
  barrRel : Option Nat
  apgRel : Option Nat
  replay : List Run
  rpos   : Nat
  ran    : Nat
  landing : Bool
  rest   : Nat
  deriving DecidableEq, Repr

/-- The flow of one site (site-free) or of the whole domain (site-locked, kept under site 0): the visible
state of R89. `nextV` is the vector after the last word's emission, `pushed` the first vector that is not yet in
the 64 slots (R47), `costs` the ECLK without a push that words cost (R48), each before a vector, and `freed` the
marks released in the present ECLK, whose bytes are free from the next one on (R113). `ledg` holds of the last `LEDG` of
ecount 0 its vector, the item before it and whether it committed (R46). `left` marks the flow of the event routine of a site that
has left the program (R87). -/
structure Flow where
  sa    : Nat
  nsa   : Nat
  loops : List Loop
  stack : List (Nat × Nat)
  nextV : Nat
  pushed : Nat
  costs : List (Nat × Nat)
  freed : List (Tbl Nat)
  queue : List Run
  last  : Tbl Nat
  pos   : Tbl Nat
  tset  : Nat
  mask  : Nat
  item  : Nat
  ledg  : Option (Nat × Nat × Bool)
  acts  : List Act
  waits : Waits
  micro : Micro
  left  : Bool
  deriving DecidableEq, Repr

/-- A failing vector in a site's accumulator (R176): its failing-pin set and the PA64 of its Cumulus op. -/
structure AccFail where
  v   : Nat
  set : Bytes
  pa  : Option Nat
  deriving DecidableEq, Repr

/-- A commit issued and not yet performed (R66, R176): its effect vector and the item then current. -/
structure Commit where
  v     : Nat
  item  : Nat
  deriving DecidableEq, Repr

/-- A site of a domain: the event latches, as the events that set one with the ECLK count from which it reads set (R58),
compare counts, accumulator, the
`MATCH` in progress (first vector, block length, condition, whether the pass being judged has failed, whether
the pass last judged was clean, the first pass that satisfied the condition), and how the site left the program. `cancelDue`
and `stopDue` hold the ECLK in which an event was presented, at whose end it becomes pending (R86), and `routine` the
engines in the event routine (R87). -/
structure Site where
  latches   : List (Nat × Nat)
  mStart    : Nat
  mBlock    : Nat
  mCond     : Nat
  mBad      : Bool
  mClean    : Bool
  mFirst    : Option Nat
  mFail     : Option (Nat × Nat)
  failCount : Nat
  records   : Nat
  acc       : List AccFail
  commits   : List Commit
  matchTo   : Bool
  waitTo    : Bool
  retired   : Option Nat
  event     : Option Nat
  stopped   : Bool
  cancelDue : Option Nat
  stopDue   : Option Nat
  routine   : Option Flow
  stopSent  : Bool
  parked    : Bool
  finalDone : Bool
  deriving DecidableEq, Repr

/-! ### Pins, streams, generators (chapters 04 to 06) -/

/-- The six edges of a waveform (R144). -/
inductive EdgeName where
  | d0 | d1 | e0 | e1 | s0 | s1
  deriving DecidableEq, Repr

/-- A scheduled edge of a pin: its nominal time T_v + t, the value it sets, the value it sets on DEN in Fast
mode, and its vector (R151, R153). -/
structure Edge where
  name  : EdgeName
  time  : Int
  value : Bool
  den   : Option Bool
  owner : Nat
  deriving DecidableEq, Repr

/-- A pin channel at the balls (R150, R160, R161). -/
structure Pin where
  drv    : Bool
  den    : Bool
  edges  : List Edge
  dom    : Option Nat
  tset   : Nat
  deriving DecidableEq, Repr

/-- A ring of the vector store (R104, R106): size, bytes fetched, requests in flight (bytes each), whether
a mark holds its free space (R112), the bytes that landed in the present ECLK (R109), and the decoder (R103): the next
symbol it delivers, the end of the blocks it has started, the end of the symbols whose bytes it has read, the bytes of
the last block it has not read, the ECLK count of its last start, and the shortage of its last request (R118). -/
structure PinRing where
  size    : Nat
  write   : Nat
  issued  : Nat
  flight  : List Nat
  stalled : Bool
  fresh   : Nat
  at_     : Nat
  started : Nat
  ready   : Nat
  left    : Nat
  leftAt  : Nat
  why     : Nat
  deriving DecidableEq, Repr

/-- A token bucket: its level in eighths of a byte and the time it was last brought up to date (R108). -/
structure Bucket where
  level : Nat
  at_   : Nat
  deriving DecidableEq, Repr

/-- A Cumulus op in the history (R138): its number, first vector, length, template, views and data. -/
structure CumOp where
  seq  : Nat
  v    : Nat
  len  : Nat
  tmpl : Nat
  x    : Nat
  y    : Nat
  z    : Nat
  data : Nat
  fails : List (Nat × Nat × Nat × Nat × Nat)
  deriving DecidableEq, Repr

/-- A Cumulus (R122 to R142). `ranAt` is the ECLK count of its last instruction, plus 1, `wrong` the vector, counted
from `start`, at which the count of R134 is not met, `shown` and `shownPc` the generators and the address after the last
instruction that fed a prepared block, and `fed` counts the instructions since (R135). -/
structure Cum where
  dom     : Option Nat
  gen     : List Nat
  ranAt   : Nat
  pc      : Nat
  next    : Nat
  rpt     : Nat
  running : Bool
  barrier : Bool
  start   : Nat
  vcount  : Nat
  made    : Nat
  wrong   : Option Nat
  shown   : List Nat
  shownPc : Nat
  fed     : Nat
  opSeq   : Nat
  ops     : List CumOp
  recs    : Tbl Nat
  parity  : Bool
  deriving DecidableEq, Repr

/-! ### The Ledger (chapter 07) -/

/-- A Ledger context (R174). -/
structure Ctx where
  status    : BitVec 8
  commits   : Nat
  scratch   : BitVec 16
  failCount : Nat
  firstFail : Nat
  lastFail  : Nat
  signature : Word
  firstAddr : Nat
  deriving DecidableEq, Repr

/-! ### Virga and Squall (chapters 08 and 09) -/

/-- The Virga run of a channel (R196 to R204). The means A1 and A2 are n1 ÷ den and n2 ÷ den, `from_` is the S at
which stamping begins, and `skews` holds the stamps that wait for their partner, each with whether it is the
channel's own. -/
structure Virga where
  active    : Bool
  stamping  : Bool
  ended     : Bool
  dom       : Nat
  entry     : Bytes
  n1        : Nat
  n2        : Nat
  den       : Nat
  stale     : Bool
  lastStamp : Option Nat
  lostSince : Nat
  prev      : List (EdgeKind × Nat)
  open_     : Option Nat
  skews     : List (Bool × Nat)
  from_     : Option Nat
  n         : Nat
  sum       : Int
  sumsq     : Nat
  min       : Int
  max       : Int
  discarded : Nat
  lost      : Nat
  pairLost  : Bool
  gapCal    : Bool
  first     : Nat
  deriving DecidableEq, Repr

/-- What reached a Squall in the present ECLK (R211, R214): pattern rows, pin fails, markers, event words,
and the events that set latches, each with the ECLK count from which its latch reads set. -/
inductive Arrival where
  | rows (v : Nat) (word : Nat)
  | fails (v : Nat) (pins : Nat)
  | marker (v : Nat) (code : Byte)
  | word (w : EventWord) (interval : Option Nat)
  | event (n at_ : Nat)
  deriving DecidableEq, Repr

/-- An open or closed segment (R221, R224). -/
structure Segment where
  number  : Nat
  trigS   : Nat
  trigV   : Nat
  trigAt  : ZTime
  source  : Nat
  missed  : Nat
  openE   : Nat
  words   : List EventWord
  flags   : Nat
  mask    : Nat
  deriving DecidableEq, Repr

/-- A pin-state record (R219, R220). `trigE` is the ECLK count in which it took its trigger. -/
structure StateRec where
  number : Nat
  armV   : Nat
  trig   : Option Nat
  trigE  : Nat
  trigAt : ZTime
  state  : Nat
  force  : Bool
  flags  : Nat
  rows   : List (Nat × Nat)
  deriving DecidableEq, Repr

/-- A closed capture record (R226): its number among the bank's records of the job, whether it is a pin-state
record, its bytes, the segment space it holds, and the bytes already sent. -/
structure CapRec where
  number : Nat
  isRec  : Bool
  data   : Bytes
  space  : Nat
  sent   : Nat
  deriving DecidableEq, Repr

/-- A Squall (R207 to R229). `eclk` counts the ECLK up to which the sequencer has run, `capts` holds the `CAPT`
actions whose effect vector has started, in the order in which they act, `incoming` the event words on their way, each with
the ECLK in which it arrives, `lastWord` the previous stamp
of each pin plus 1, `fill` the bits in the input buffer and `drain` those that may still leave it in the present ECLK, `gapEnd` the
ECLK count at which the re-arm gap ends, `times` the times[] entries reached, as a mask, `trigEclk` the ECLK of the latest trigger taken, and `test` the outcome of the memory test
that follows a parity error (R228). -/
structure Squall where
  dom       : Option Nat
  armed     : Bool
  halted    : Bool
  armV      : Nat
  state     : Nat
  cnt0      : Nat
  cnt1      : Nat
  tmr0      : Nat
  tmr1      : Nat
  eclk      : Nat
  arrivals  : List Arrival
  capts     : List (Nat × CaptAction)
  incoming  : List (Nat × EventWord)
  lastWord  : Tbl Nat
  record    : Option StateRec
  seg       : Option Segment
  gapEnd    : Nat
  gap       : Bool
  freeSeg   : Nat
  noSeg     : Bool
  missed    : Nat
  arms      : Nat
  segs      : Nat
  fill      : Nat
  drain     : Nat
  stopV     : Option Nat
  times     : Nat
  trigEclk  : Option Nat
  test      : Option Bool
  closed    : List CapRec
  recNo     : Nat
  deriving DecidableEq, Repr

/-! ### Aurora (chapter 10) -/

/-- An Aurora channel (R230 to R256). `stepG` is the granule at which the present step began and `ball` the time,
in ftu of the claiming domain, at which sample 0 leaves the ball; `due` and `requests` hold sources that occurred,
each with its reference instant T_r, `arrived` the requests that arrived, each with its granule, and `taken` the
granule at whose start a taken jump acts. `gen` is the output sample the generator has reached, at most 4,096 ahead of the
converter (R247). `pathStep` is the step at which the predicted path began, `pathBase` the streamed bytes before it, and
`asked`, `landed` and `used` the bytes requested, landed and used by the steps that have ended, counted from the same origin.
`test` is the outcome of the memory test that follows a parity error (R255). -/
structure Aurora where
  dom      : Option Nat
  image    : Option Word
  armed    : Bool
  playing  : Bool
  started  : Bool
  enabled  : Bool
  zero     : Bool
  step     : Nat
  stepG    : Nat
  ball     : Int
  stack    : List Nat
  theta0   : Nat
  theta1   : Nat
  freq0    : Nat
  freq1    : Nat
  due      : Option (AurSource × Int)
  requests : List (AurSource × Int)
  arrived  : List (Nat × AurSource)
  taken    : Option Nat
  cause    : Nat
  stopAt   : Nat
  gen      : Nat
  pathStep : Nat
  pathBase : Nat
  asked    : Nat
  landed   : Nat
  used     : Nat
  flight   : List Nat
  minFill  : Option Nat
  test     : Option Bool
  deriving DecidableEq, Repr

/-! ### Links and queues (chapters 11 and 12) -/

/-- The states of a port (R265, R273). -/
inductive PortState where
  | off | deepIdle | mainPath | fallback | up | exiting
  deriving DecidableEq, Repr

/-- The frame a transmitter is sending (R260, R276): its queue, its packet's commit number, the bytes that wait with the
trailer at their end, how many have left, whether a timestamp block and SOF are still to go, and whether its source has
withdrawn it. -/
structure TxFrame where
  queue : Nat
  order : Nat
  rest  : Bytes
  sent  : Nat
  stamp : Bool
  sof   : Bool
  abort : Bool
  deriving DecidableEq, Repr

/-- A Jetstream port (R257 to R271): its state and since when, corrections, the transmit set as (width,
group), the set the partner announced, the partner's LIVE byte, the sleep handshake, the last frame and timestamp times, whether a set was in
use in each direction since the port came Up, the width of each that a narrowing or widening is judged against, the columns of the marker period that have passed, the frame in progress, the
granting queues whose first credit block is still owed (R288), and the columns last sent, one list of code groups each with
the lowest lane first. -/
structure PortSt where
  state       : PortState
  since       : Nat
  reversed    : Bool
  fallbackUsed : Bool
  width       : Nat
  group       : Nat
  rxWidth     : Nat
  rxGroup     : Nat
  hadTx       : Bool
  hadRx       : Bool
  refTx       : Nat
  refRx       : Nat
  partnerLive : BitVec 8
  sleep       : Bool
  sleepSent   : Nat
  sleepRcvd   : Nat
  lastUse     : Nat
  seqOut      : Nat
  seqIn       : Nat
  stamp       : Option ZTime
  seenIds     : Tbl Nat
  col         : Nat
  tx          : Option TxFrame
  firstDue    : List Nat
  wire        : List (List (BitVec 10))
  deriving DecidableEq, Repr

/-- A Jetstream lane (R258, R264, R269, R273): `late` its marker's columns behind the earliest live lane, `good` its right
markers in succession, at most 2, `held` the marker periods in succession in which R264 held, `bad` its wrong markers in
succession, and the running disparity of its transmitter and its receiver, true where positive. -/
structure Lane where
  live     : Bool
  inverted : Bool
  cdr      : Bool
  signal   : Bool
  late     : Nat
  good     : Nat
  held     : Nat
  bad      : Nat
  died     : Bool
  txRd     : Bool
  rxRd     : Option Bool
  deriving DecidableEq, Repr

/-- A packet of a queue (R280): type, flags, tag, payload, lines already popped, and its commit number. `seq` is the number an
inbound frame arrived with; an outbound one takes its own as it leaves (R276). -/
structure Packet where
  ty      : Nat
  flags   : BitVec 16
  seq     : Word
  tag     : Word
  payload : Bytes
  popped  : Nat
  order   : Nat
  deriving DecidableEq, Repr

/-- A Drift queue (R279 to R288): capacity in lines, its DRAM part, the JTAG consumer, its packets, the
line last popped with its tag, and the credits: the partner's grant and this side's use, or this side's
grant for an inbound queue. `writing` is the packet its producer has begun and not
committed (R280): its lines and its job tag. -/
structure Queue where
  lines    : Nat
  dram     : Bool
  jtag     : Bool
  packets  : List Packet
  underrun : Bool
  line     : Bytes
  lineTag  : Nat
  popUnder : Bool
  grant    : Nat
  used     : Nat
  writing  : Option (Nat × Word)
  deriving DecidableEq, Repr

/-- A placed image (R12, R292): its kind, its bytes, and the 4 KiB pages of the DRAM that hold them. -/
structure Image where
  kind : Nat
  data : Bytes
  pages : List Nat := []
  deriving DecidableEq, Repr

/-- An open staging (R292): its kind, its declared length, the bytes so far, and the pages that hold them. -/
structure Staging where
  kind   : Nat
  length : Nat
  data   : Bytes
  pages  : List Nat := []
  deriving DecidableEq, Repr

/-- A frame that waits for Nimbus: the outcomes of the start it would bring about, the stamp of the timestamp block received
before it (R308), and the time it arrived. -/
structure Arrived where
  frame : Frame
  boot  : Option BootInput
  stamp : ZTime
  at_   : Nat
  deriving DecidableEq, Repr

/-! ### Zenith (chapter 13) -/

/-- A timed launch (R313): the event, its time, its launch id, and whether it has been made. -/
structure Launch where
  event : Nat
  time  : ZTime
  id    : Nat
  made  : Bool
  deriving DecidableEq, Repr

/-- The Zenith clock (R301 to R314). `c` is the remaining correction in units of 2^−32 ns, `lastAccept`
the time of the last accepted exchange, `qParent` the parent's quality and `hops` its hops; `t1` the departure of the exchange
in flight, and `asked` whether its request has left. -/
structure Zenith where
  time       : ZTime
  c          : Int
  jump       : Option Int
  pendingSet : List (ZTime × Frame)
  parent     : Nat
  interval   : Nat
  asym       : Nat
  rootSet    : Bool
  lastAccept : Option Nat
  qParent    : Nat
  hops       : Nat
  xid        : Nat
  t1         : Option (ZTime × Nat)
  asked      : Bool
  lastReq    : Nat
  stepped    : Bool
  gridFault  : Bool
  grid       : Int
  snap       : ZTime
  launches   : List Launch
  deriving DecidableEq, Repr

/-! ### DRAM (chapter 14) -/

/-- The states of the DRAM controller (R337). -/
inductive DramState where
  | training | service | selfRefresh | changing | frozen
  deriving DecidableEq, Repr

/-- A request that waits for the DRAM to be in service (R333, R335): a burst read, the next request of a refill port, or what
the frame at the head of an inbound queue needs of the DRAM. -/
inductive DramReq where
  | read (port : DramPort) (burst : Nat) (fault : BurstFault)
  | refill (b : Nat) (borrow : Bool)
  | aurora (n : Nat) (borrow : Bool)
  | host (q : Nat)
  deriving DecidableEq, Repr

/-- The DRAM controller and the raw bursts (R315 to R337). `cells` holds what the raw bytes differ by from the codewords of the
data LOAD has placed, and from zeros elsewhere: byte i of burst B at address 80 × B + i; an unlisted byte differs by 0.
`refreshes` and `heldRefr` count the refreshes issued and held back,
`lostAt` is the time at which DDR_PLL was lost, until the DRAM returns to service, `snapHeld` tells that the snapshot stands
until recovery has ended, and `change` the changes of operating point, the one in progress
first: whether to B, and the request to be answered. `checks` are the subchannels whose mode registers are still to be compared
before the DRAM returns to service, `returned` the data bytes last returned to each port, `turn` the port that class 3 of R325
serves next, and `served` the time spent in service. -/
structure Dram where
  state     : DramState
  pointB    : Bool
  binA      : Nat
  binB      : Nat
  bDisabled : Bool
  density   : Nat
  cells     : List Host.Cell
  marked    : Tbl Nat
  modeFails : Tbl Nat
  refreshes : Tbl Nat
  heldRefr  : Tbl Nat
  scrubAt   : Nat
  idleSince : Nat
  snapshot  : Bytes
  snapHeld  : Bool
  lostAt    : Option Nat
  change    : List (Bool × Option Frame)
  /-- Requests that wait for the DRAM to be in service, oldest first (R333, R335). -/
  waiting   : List DramReq
  checks    : List Nat
  returned  : Tbl Bytes
  turn      : Nat
  served    : Nat
  deriving DecidableEq, Repr

/-! ### Clocks and power (chapters 15 and 16) -/

/-- The states of a PLL (R349). -/
inductive PllState where
  | off | bypass | locked | failed
  deriving DecidableEq, Repr

/-- A PLL (R340 to R349): its state, reference, good closings in succession, whether the last closing was
outside ±4, since when it retunes, from when windows count and how many have been counted, when it last locked, its failures in
succession, whether it has lost its reference, and whether that cut a retune. -/
structure Pll where
  state  : PllState
  pdRef  : Nat
  good   : Nat
  far    : Bool
  since  : Nat
  base   : Nat
  count  : Nat
  fails  : Nat
  lost   : Bool
  closings : Nat
  lockedAt : Option Nat
  cut    : Bool
  deriving DecidableEq, Repr

/-- The states of a power unit, as R367 encodes them: 0 Off, 1 Doze, 2 Idle, 3 Active. -/
inductive UState where
  | off | doze | idle | active
  deriving DecidableEq, Repr

/-- A power unit (R350 to R357): its state, the time of its last transition or use, the end of its hold, and the
time its wake completes. -/
structure PowUnit where
  state : UState
  since : Nat
  hold  : Option Nat
  wakes : Option Nat
  deriving DecidableEq, Repr

/-- The throttle states (R361). -/
inductive Throttle where
  | normal | requested | enforced
  deriving DecidableEq, Repr

/-- A supply dip in progress (R364): the time of its first sample and whether it has become a fault. -/
structure Dip where
  since   : Nat
  stamp   : ZTime
  faulted : Bool
  deriving DecidableEq, Repr

/-- Temperature, throttling and supply (R356 to R368). Temperatures are in units of 0.125 °C. -/
structure Power where
  idleUs     : Nat
  dozeMs     : Nat
  linkIdleMs : Nat
  telemMs    : Nat
  telemS     : Nat
  graceMs    : Nat
  diode      : Int
  diodeOk    : Bool
  invalid    : Nat
  diodeHigh  : Bool
  bankT      : Tbl Int
  bankHigh   : Tbl Bool
  hot        : Int
  throttle   : Throttle
  entered    : Nat
  cap        : Nat
  pE         : Nat
  interval   : Nat
  dipCore    : Option Dip
  dipTim     : Option Dip
  cautions   : Nat
  telemAt    : Nat
  telemCount : Nat
  capSteps   : Nat
  deriving DecidableEq, Repr

/-! ### Horizon (chapter 17) -/

/-- A channel record (R379), without its channel number; lin is sparse over the raw code. -/
structure ChanRec where
  valid    : Bool
  restored : Bool
  driveDie : Int
  compareDie : Int
  driveBoard : Int
  compareBoard : Int
  calCount : Nat
  calTime  : ZTime
  spreadD  : Nat
  spreadC  : Nat
  lin      : Tbl Int
  deriving DecidableEq, Repr

/-- An Aurora record (R380). -/
structure AurRec where
  valid    : Bool
  restored : Bool
  gain     : Int
  offset   : Int
  calCount : Nat
  calTime  : ZTime
  deriving DecidableEq, Repr

/-- A due or running calibration item (R371, R375): its cause in priority order, the values of its first
run, and its failed attempts. -/
structure Due where
  item     : CalItem
  cause    : Nat
  active   : Bool
  runA     : Option (List Int)
  attempts : Nat
  deriving DecidableEq, Repr

/-- Horizon (R369 to R386): the tables in force, the staged values, the items due, the last acceptance of each item (its
time and the bank estimate then), the rejected run calibrations in succession of each channel (R373), and the settings. -/
structure Horizon where
  chans     : Tbl ChanRec
  staged    : Tbl (Option ChanRec)
  aurs      : Tbl AurRec
  stagedAur : Tbl (Option AurRec)
  diodeTrim : Int
  stagedDiode : Option Int
  roTrim    : Tbl Int
  trimFailed : Bool
  restoredAtBoot : Bool
  due       : List Due
  accepted  : List (CalItem × Nat × Int)
  rejects   : Tbl Nat
  fences    : Nat
  fenceTime : ZTime
  retired   : Nat
  bgEnable  : Bool
  bgDelta   : Nat
  bgInterval : Nat
  vacantTrim : Nat
  deriving DecidableEq, Repr

/-! ### Anvil and Daybreak (chapters 18 and 19) -/

/-- The device states of Anvil (R396). -/
inductive AnvState where
  | running | faulted | recovering
  deriving DecidableEq, Repr

/-- Anvil (R387 to R412): the latch record, the merge window, the frames that follow FAULT_NOTICE because they
arose while the window stood open (R394, R402; `order` holds their queue), overflow codes, the discarded
tags, a pending RECOVER, TWINKLE, and the usable-unit masks. `watchdog` tells that it is armed, `wasOwner` that the device
owned the pins at the latch (R444), `stopped` that Nimbus has failed and its warm start has not begun (R404), `latchAt` when the
fault was latched, and `retiring` the banks that retire once no admitted domain holds them (R410). -/
structure Anvil where
  state      : AnvState
  valid      : Bool
  overflow   : Bool
  nimbus     : Bool
  tagsIncomplete : Bool
  source     : Nat
  mergeCount : Nat
  merged     : List Nat
  overflowCount : Nat
  overCodes  : List Nat
  minLevel   : Nat
  time       : ZTime
  argument   : Nat
  faultSeq   : Nat
  discarded  : Nat
  recoveries : Nat
  window     : Bool
  deferred   : List Packet
  tags       : List Word
  level      : Nat
  pendingRec : Option Nat
  drainUntil : Nat
  twinkle    : Bool
  twinkleOn  : Bool
  twinkleAt  : Nat
  retiredCh  : List Nat
  retiredBank : List Nat
  retiredAur : List Nat
  usable     : Bool
  watchdog   : Bool
  wasOwner   : Bool
  stopped    : Bool
  latchAt    : Nat
  retiring   : List Nat
  deriving DecidableEq, Repr

/-- One entry of the step record (R422). -/
structure StepEntry where
  attempts : Nat
  result   : Nat
  fallback : Nat
  duration : Nat
  detail   : Bytes
  deriving DecidableEq, Repr

/-- A step record (R422). -/
structure StepRec where
  seq      : Nat
  kind     : Nat
  copy     : Nat
  state    : Nat
  halt     : Nat
  time     : ZTime
  entries  : Tbl StepEntry
  deriving DecidableEq, Repr

/-- One entry of the boot log (R424). -/
structure LogEntry where
  record   : StepRec
  imageId  : Word
  capDigest : Bytes
  binA     : Nat
  binB     : Nat
  skip     : Nat
  oneS     : Bool
  linkFb   : Bool
  seq      : Nat
  deriving DecidableEq, Repr

/-- Daybreak (R413 to R430): the step running, the state, the governing copy, the warm starts, the records, the boot
log, the NVM region, the descriptor and the image in force, the failed capsule digest, the restore skips, a Save since the
last entry (R425), the blown fuses, their lab state, the level of the start, whether it discarded outbound lines, the Anvil counts as it
began, the flags of its log entry, and the inputs of a start that waits. -/
structure Boot where
  step      : Nat
  state     : Nat
  copyB     : Bool
  /-- The image copy that governs, as step 4 read it from the flash (R417). -/
  image     : Bytes
  warm      : Nat
  record    : StepRec
  prev      : StepRec
  log       : List LogEntry
  nvm       : Bytes
  desc      : Bytes
  imageId   : Word
  capDigest : Bytes
  skip      : Nat
  saved     : Bool
  fuses     : Nat
  lab       : Bool
  level     : Nat
  outLost   : Bool
  faultsAt  : Nat
  oneS      : Bool
  linkFb    : Bool
  input     : Option BootInput
  deriving DecidableEq, Repr

/-- The control store (R76, R97): the staged image, the differences of single engines from it, the highest
security version of its capsules, the channels whose engine awaits its reload (R93), and the diagnostic read in progress. -/
structure Store where
  image    : Tbl Microword
  own      : List (Nat × Nat × Microword)
  svMax    : Nat
  reload   : List Nat
  diagBusy : Bool
  deriving DecidableEq, Repr

/-! ### Pins and test (chapter 21) -/

/-- The control port of an octet (R458 to R461). -/
structure Pec where
  queue    : List Word
  busy     : Option Word
  repeated : Bool
  deriving DecidableEq, Repr

/-- A MARK_OUT output (R464): the rise times of its pending markers, and the rise of its latest pulse, which is high
for 8 ns, all in ftu of the claiming job's time base. -/
structure MarkOut where
  pending : List Int
  rise    : Option Int
  deriving DecidableEq, Repr

/-- The JTAG port (R465 to R468). -/
structure Jtag where
  ir        : Nat
  cells     : Bytes
  challenge : Nat
  issued    : Nat
  scope     : Nat
  failures  : Nat
  result    : BitVec 66
  deriving DecidableEq, Repr

/-! ### The whole device -/

/-- Why a command stops. No command of this device stops the machine: the device's own faults are effects
on the state (R387). -/
inductive Fault where
  /-- Raised by no command: the spec gives every command an effect. It stands so that the type is not empty;
  a model that never raises it is safe. -/
  | unreachable
  deriving DecidableEq, Repr

/-- Why a command has no meaning. -/
inductive Refusal where
  /-- Raised by an arm of `exec` whose meaning is not written. It is safe: nothing is claimed of it. -/
  | notModelled (mnemonic : String)
  deriving DecidableEq, Repr

/-- The state of the device. -/
structure State where
  /-- Commands waiting, first in, first out. -/
  pending  : List Instr
  /-- Time since power-on in nanoseconds, advanced by `NCLK_TICK`. -/
  now      : Nat
  /-- Free values drawn so far; the model's own field, not the manual's. -/
  free     : Nat
  /-- Registers no other field determines, keyed by address (R4, R7). -/
  regs     : Tbl Word
  window   : List Waiting
  memo     : List (Word × Nat)
  /-- Tags whose JOB_STATUS has been committed and that no job holds since (R35). -/
  done     : List Word
  doms     : Tbl Dom
  flows    : Tbl Flow
  sites    : Tbl Site
  store    : Store
  pins     : Tbl Pin
  rings    : Tbl PinRing
  buckets  : Tbl Bucket
  /-- Slot + 1 that each bank's borrow tier served last (R108). -/
  turns    : Tbl Nat
  cums     : Tbl Cum
  ledger   : Tbl Ctx
  virgas   : Tbl Virga
  squalls  : Tbl Squall
  auroras  : Tbl Aurora
  ports    : Tbl PortSt
  lanes    : Tbl Lane
  queues   : Tbl Queue
  orders   : Nat
  held0    : List Frame
  held1    : List Frame
  held3    : List Frame
  /-- Frames that wait on the other inbound queues, oldest first. -/
  inbox    : List Arrived
  /-- Requests in the order they were handled whose READ_REPLY has not been committed, each with its payload where it is known:
  a reply waits for those before it (R290). -/
  owed     : List (Frame × Option Bytes)
  /-- Entries of the REG_WRITE at the head of `held3` that have been handled (R460). -/
  written  : Nat
  images   : Tbl Image
  stagings : Tbl Staging
  nextHandle : Word
  nextStaging : Word
  zenith   : Zenith
  dram     : Dram
  plls     : Tbl Pll
  refPresent : Bool
  /-- REFCLK has been declared absent since power-on and not present again, so that the bypass runs from the oscillator. -/
  refAbsent : Bool
  nclkOsc  : Bool
  suspended : Bool
  units    : Tbl PowUnit
  power    : Power
  horizon  : Horizon
  anvil    : Anvil
  boot     : Boot
  launchId : Nat
  originIds : Tbl Nat
  owner    : Bool
  ownIn    : Bool
  pecs     : Tbl Pec
  marks    : Tbl MarkOut
  jtag     : Jtag
  straps   : BitVec 2
  /-- The SRAM test of R469 runs. -/
  bist     : Bool
  /-- A shadow waits for the job boundary at which it takes over (R445). -/
  takeover : Bool
  deriving DecidableEq, Repr

/-! ### Values at reset

`X.init` is what an unlisted entry of a table of `X` reads as, and the value of such a unit at reset. -/

def ZTime.zero : ZTime := { s := 0, ns := 0, frac := 0 }

def PairJob.init : PairJob :=
  { drives := [], fails := [], own := [], partner := [], alone := false, final := false }

def Dom.init : Dom :=
  { phase := .free, tag := 0, payload := [], sites := 0, throttled := false, flags := 0, waitUs := 0,
    admitAt := .zero, startAt := .zero, endAt := .zero, readyAt := 0, engines := false,
    idle := 0, lead := 0, eclk := 0, tickAt := 0, tickOff := 0, next := 0, ret := 0, keep := none, halted := false, stopSent := false, ended := none,
    endClock := 0, endRank := 0, undo := [], missing := [], flight := [], records := [], recordsAt := 0, sent := false, pair := .init }

/-- At job start scratch registers and flags are clear (R85); SA is open and is drawn as a free value when
the engines start (R84). -/
def Micro.init : Micro :=
  { ca := 0, mret := 0, ir := 0, ec := 0, sc := [], z := false, n := false, c := false, ov := false,
    latch := false, first := 0, barr := none, apg := none, barrRel := none, apgRel := none, replay := [], rpos := 0, ran := 0, landing := false, rest := 0 }

def Flow.init : Flow :=
  { sa := 0, nsa := 0, loops := [], stack := [], nextV := 0, pushed := 0, costs := [], freed := [], queue := [], last := [], pos := [], tset := 0,
    mask := 0, item := 0, ledg := none, acts := [], waits := .none, micro := .init, left := false }

def Site.init : Site :=
  { latches := [], mStart := 0, mBlock := 0, mCond := 0, mBad := false, mClean := false, mFirst := none,
    mFail := none, failCount := 0, records := 0, acc := [], commits := [], matchTo := false,
    waitTo := false, retired := none, event := none, stopped := false, cancelDue := none,
    stopDue := none, routine := none, stopSent := false, parked := false, finalDone := false }

/-- Every channel is parked from power-on: DEN 0 and DRV 0 (R161). -/
def Pin.init : Pin := { drv := false, den := false, edges := [], dom := none, tset := 0 }

def PinRing.init : PinRing :=
  { size := 0, write := 0, issued := 0, flight := [], stalled := false, fresh := 0, at_ := 0, started := 0,
    ready := 0, left := 0, leftAt := 0, why := 0 }

/-- A bucket starts full: 4,096 bytes, in eighths of a byte (R108, R325). -/
def Bucket.init : Bucket := { level := 32768, at_ := 0 }

def Cum.init : Cum :=
  { dom := none, gen := [0, 0, 0], ranAt := 0, pc := 0, next := 0, rpt := 0, running := false, barrier := false,
    start := 0, vcount := 0, made := 0, wrong := none, shown := [0, 0, 0], shownPc := 0, fed := 0, opSeq := 0, ops := [], recs := [],
    parity := false }

/-- Ledger contexts are zero after every start (R429). -/
def Ctx.init : Ctx :=
  { status := 0, commits := 0, scratch := 0, failCount := 0, firstFail := 0, lastFail := 0,
    signature := 0, firstAddr := 0 }

def Virga.init : Virga :=
  { active := false, stamping := false, ended := false, dom := 0, entry := [], n1 := 0, n2 := 0, den := 1,
    stale := false, lastStamp := none, lostSince := 0, prev := [], open_ := none, skews := [], from_ := none,
    n := 0, sum := 0, sumsq := 0, min := 0, max := 0, discarded := 0, lost := 0, pairLost := false,
    gapCal := false, first := 0 }

def Squall.init : Squall :=
  { dom := none, armed := false, halted := false, armV := 0, state := 0, cnt0 := 0, cnt1 := 0, tmr0 := 0,
    tmr1 := 0, eclk := 0, arrivals := [], capts := [], incoming := [], lastWord := [], record := none, seg := none,
    gapEnd := 0, gap := false, freeSeg := 0, noSeg := false, missed := 0, arms := 0, segs := 0, fill := 0,
    drain := 512, stopV := none, times := 0, trigEclk := none, test := none, closed := [], recNo := 0 }

def Aurora.init : Aurora :=
  { dom := none, image := none, armed := false, playing := false, started := false, enabled := false,
    zero := true, step := 0, stepG := 0, ball := 0, stack := [], theta0 := 0, theta1 := 0, freq0 := 0, freq1 := 0,
    due := none, requests := [], arrived := [], taken := none, cause := 0, stopAt := 0, gen := 0, pathStep := 0,
    pathBase := 0, asked := 0, landed := 0, used := 0, flight := [], minFill := none, test := none }

def PortSt.init : PortSt :=
  { state := .off, since := 0, reversed := false, fallbackUsed := false, width := 0,
    group := 0, rxWidth := 0, rxGroup := 0, hadTx := false, hadRx := false, refTx := 0, refRx := 0, partnerLive := 0, sleep := false, sleepSent := 0, sleepRcvd := 0,
    lastUse := 0, seqOut := 0, seqIn := 0, stamp := none, seenIds := [], col := 0, tx := none, firstDue := [], wire := [] }

def Lane.init : Lane :=
  { live := false, inverted := false, cdr := false, signal := false, late := 0, good := 0, held := 0, bad := 0,
    died := false, txRd := false, rxRd := none }

def Queue.init : Queue :=
  { lines := 0, dram := false, jtag := false, packets := [], underrun := false, line := [], lineTag := 0,
    popUnder := false, grant := 0, used := 0, writing := none }

def Image.init : Image := { kind := 0, data := [] }

def Staging.init : Staging := { kind := 0, length := 0, data := [] }

/-- Zenith starts at seconds 0 with quality invalid at power-on (R420); parent, interval and asym hold the
defaults of R305. -/
def Zenith.init : Zenith :=
  { time := .zero, c := 0, jump := none, pendingSet := [], parent := 0, interval := 8, asym := 100,
    rootSet := false, lastAccept := none, qParent := 0, hops := 0, xid := 0, t1 := none, asked := false, lastReq := 0,
    stepped := false, gridFault := false, grid := 0, snap := .zero, launches := [] }

def Dram.init : Dram :=
  { state := .training, pointB := false, binA := 0, binB := 0, bDisabled := false, density := 0,
    cells := [], marked := [], modeFails := [], refreshes := [], heldRefr := [],
    scrubAt := 0, idleSince := 0, snapshot := [], snapHeld := false, lostAt := none, change := [], waiting := [],
    checks := [], returned := [], turn := 0, served := 0 }

def Pll.init : Pll :=
  { state := .off, pdRef := 0, good := 0, far := false, since := 0, base := 0, count := 0, fails := 0, lost := false,
    closings := 0, lockedAt := none, cut := false }

def PowUnit.init : PowUnit := { state := .off, since := 0, hold := none, wakes := none }

/-- The defaults of R368. -/
def Power.init : Power :=
  { idleUs := 10, dozeMs := 100, linkIdleMs := 20, telemMs := 10, telemS := 1, graceMs := 2000, diode := 0,
    diodeOk := false, invalid := 0, diodeHigh := false, bankT := [], bankHigh := [], hot := 0,
    throttle := .normal, entered := 0, cap := 15, pE := 0, interval := 0, dipCore := none, dipTim := none,
    cautions := 0, telemAt := 0, telemCount := 0, capSteps := 0 }

def ChanRec.init : ChanRec :=
  { valid := false, restored := false, driveDie := 0, compareDie := 0, driveBoard := 0, compareBoard := 0,
    calCount := 0, calTime := .zero, spreadD := 0, spreadC := 0, lin := [] }

def AurRec.init : AurRec :=
  { valid := false, restored := false, gain := 0, offset := 0, calCount := 0, calTime := .zero }

/-- The defaults of R381. -/
def Horizon.init : Horizon :=
  { chans := [], staged := [], aurs := [], stagedAur := [], diodeTrim := 0, stagedDiode := none,
    roTrim := [], trimFailed := false, restoredAtBoot := false, due := [], accepted := [], rejects := [], fences := 0,
    fenceTime := .zero, retired := 0, bgEnable := true, bgDelta := 40, bgInterval := 3600,
    vacantTrim := 0 }

def Anvil.init : Anvil :=
  { state := .running, valid := false, overflow := false, nimbus := false, tagsIncomplete := false,
    source := 0, mergeCount := 0, merged := [], overflowCount := 0, overCodes := [], minLevel := 0,
    time := .zero, argument := 0, faultSeq := 0, discarded := 0, recoveries := 0, window := false,
    deferred := [], tags := [], level := 0, pendingRec := none, drainUntil := 0, twinkle := false, twinkleOn := false,
    twinkleAt := 0, retiredCh := [], retiredBank := [], retiredAur := [], usable := false,
    watchdog := false, wasOwner := false, stopped := false, latchAt := 0, retiring := [] }

def StepEntry.init : StepEntry := { attempts := 0, result := 0, fallback := 0, duration := 0, detail := [] }

def StepRec.init : StepRec :=
  { seq := 0, kind := 0, copy := 0, state := 0, halt := 0, time := .zero, entries := [] }

def Boot.init : Boot :=
  { step := 0, state := 0, copyB := false, image := [], warm := 0, record := .init, prev := .init, log := [], nvm := [], desc := [],
    imageId := 0, capDigest := [], skip := 0, saved := false, fuses := 0, lab := false, level := 0,
    outLost := false, faultsAt := 0, oneS := false, linkFb := false, input := none }

def Store.init : Store := { image := [], own := [], svMax := 0, reload := [], diagBusy := false }

def Pec.init : Pec := { queue := [], busy := none, repeated := false }

def MarkOut.init : MarkOut := { pending := [], rise := none }

/-- The instruction register selects IDCODE after a test-logic reset, as IEEE 1149.1 asks of a device with
that instruction. -/
def Jtag.init : Jtag :=
  { ir := 1, cells := [], challenge := 0, issued := 0, scope := 0, failures := 0, result := 0 }

/-- The device right after power-on, before the first start has run: every register at the reset value of
its table, every channel parked, the retained state of Nightglow cleared (R420), and no command waiting. -/
def State.reset : State :=
  { pending := [], now := 0, free := 0, regs := [], window := [], memo := [], done := [], doms := [], flows := [],
    sites := [], store := .init, pins := [], rings := [], buckets := [], turns := [], cums := [], ledger := [],
    virgas := [], squalls := [], auroras := [], ports := [], lanes := [], queues := [], orders := 0,
    held0 := [], held1 := [], held3 := [], inbox := [], owed := [], written := 0, images := [], stagings := [], nextHandle := 1, nextStaging := 1,
    zenith := .init, dram := .init, plls := [], refPresent := false, refAbsent := false, nclkOsc := true, suspended := false,
    units := [], power := .init, horizon := .init, anvil := .init, boot := .init, launchId := 0,
    originIds := [], owner := false, ownIn := false, pecs := [], marks := [], jtag := .init, straps := 0,
    bist := false, takeover := false }

end Sys2Proof.Machine
end

