-- ==== Sys2Proof/Machine/Ops.lean ====
section
/-! DEFINITION. The named operations the meanings are written over: tables, bytes, registers, checksums,
queues and frames, events, job endings and the fault latch. -/

namespace Sys2Proof.Machine

/-! ### Tables -/

/-- The entry of `k`, or `d` where `k` is not listed. -/
def tget {α : Type} (d : α) : Tbl α → Nat → α
  | [], _ => d
  | (k', v) :: r, k => if k' = k then v else tget d r k

/-- The table without an entry at `k`. -/
def tdel {α : Type} : Tbl α → Nat → Tbl α
  | [], _ => []
  | (k', v) :: r, k => if k' = k then tdel r k else (k', v) :: tdel r k

/-- The table with an entry put before the first larger index. -/
def tins {α : Type} : Tbl α → Nat → α → Tbl α
  | [], k, v => [(k, v)]
  | (k', v') :: r, k, v => if k < k' then (k, v) :: (k', v') :: r else (k', v') :: tins r k v

/-- Write `v` at `k`, keeping the canonical form: an entry equal to the default `d` is removed. -/
def tset {α : Type} [DecidableEq α] (d : α) (t : Tbl α) (k : Nat) (v : α) : Tbl α :=
  if v = d then tdel t k else tins (tdel t k) k v

/-- Whether the indices of a table rise strictly above `lo` and no entry equals `d`. -/
def twf {α : Type} [DecidableEq α] (d : α) : Nat → Tbl α → Bool
  | _, [] => true
  | lo, (k, v) :: r => decide (lo ≤ k) && decide (v ≠ d) && twf d (k + 1) r

/-- Apply `f` to every listed entry, keeping the canonical form. -/
def tmap {α : Type} [DecidableEq α] (d : α) (f : Nat → α → α) : Tbl α → Tbl α
  | [] => []
  | (k, v) :: r => if f k v = d then tdel (tmap d f r) k else (k, f k v) :: tmap d f r

/-- The key of site `k` of domain slot `d`. -/
def siteKey (d k : Nat) : Nat := d * 256 + k

/-- Read a domain slot. -/
def getDom (s : State) (i : Nat) : Dom := tget Dom.init s.doms i

/-- Write a domain slot. -/
def setDom (s : State) (i : Nat) (x : Dom) : State := { s with doms := tset Dom.init s.doms i x }

/-- Read the Virga run of a channel. -/
def getVirga (s : State) (i : Nat) : Virga := tget Virga.init s.virgas i

/-- Write the Virga run of a channel. -/
def setVirga (s : State) (i : Nat) (x : Virga) : State := { s with virgas := tset Virga.init s.virgas i x }

/-- Read the Squall of a bank. -/
def getSquall (s : State) (i : Nat) : Squall := tget Squall.init s.squalls i

/-- Write the Squall of a bank. -/
def setSquall (s : State) (i : Nat) (x : Squall) : State := { s with squalls := tset Squall.init s.squalls i x }

/-- Read an Aurora channel. -/
def getAurora (s : State) (i : Nat) : Aurora := tget Aurora.init s.auroras i

/-- Write an Aurora channel. -/
def setAurora (s : State) (i : Nat) (x : Aurora) : State := { s with auroras := tset Aurora.init s.auroras i x }

/-- Read a pin channel. -/
def getPin (s : State) (i : Nat) : Pin := tget Pin.init s.pins i

/-- Write a pin channel. -/
def setPin (s : State) (i : Nat) (x : Pin) : State := { s with pins := tset Pin.init s.pins i x }

/-- Read the stream ring of a channel. -/
def getRing (s : State) (i : Nat) : PinRing := tget PinRing.init s.rings i

/-- Write the stream ring of a channel. -/
def setRing (s : State) (i : Nat) (x : PinRing) : State := { s with rings := tset PinRing.init s.rings i x }

/-- Read a token bucket. -/
def getBucket (s : State) (i : Nat) : Bucket := tget Bucket.init s.buckets i

/-- Write a token bucket. -/
def setBucket (s : State) (i : Nat) (x : Bucket) : State := { s with buckets := tset Bucket.init s.buckets i x }

/-- Read the Cumulus of a bank. -/
def getCum (s : State) (i : Nat) : Cum := tget Cum.init s.cums i

/-- Write the Cumulus of a bank. -/
def setCum (s : State) (i : Nat) (x : Cum) : State := { s with cums := tset Cum.init s.cums i x }

/-- Read a Ledger context. -/
def getCtx (s : State) (i : Nat) : Ctx := tget Ctx.init s.ledger i

/-- Write a Ledger context. -/
def setCtx (s : State) (i : Nat) (x : Ctx) : State := { s with ledger := tset Ctx.init s.ledger i x }

/-- Read a lane. -/
def getLane (s : State) (i : Nat) : Lane := tget Lane.init s.lanes i

/-- Write a lane. -/
def setLane (s : State) (i : Nat) (x : Lane) : State := { s with lanes := tset Lane.init s.lanes i x }

/-- Read a Drift queue. -/
def getQueue (s : State) (i : Nat) : Queue := tget Queue.init s.queues i

/-- Write a Drift queue. -/
def setQueue (s : State) (i : Nat) (x : Queue) : State := { s with queues := tset Queue.init s.queues i x }

/-- Read the image of a handle. -/
def getImage (s : State) (i : Nat) : Image := tget Image.init s.images i

/-- Write the image of a handle. -/
def setImage (s : State) (i : Nat) (x : Image) : State := { s with images := tset Image.init s.images i x }

/-- Read an open staging. -/
def getStaging (s : State) (i : Nat) : Staging := tget Staging.init s.stagings i

/-- Write an open staging. -/
def setStaging (s : State) (i : Nat) (x : Staging) : State := { s with stagings := tset Staging.init s.stagings i x }

/-- Read a PLL. -/
def getPll (s : State) (i : Nat) : Pll := tget Pll.init s.plls i

/-- Write a PLL. -/
def setPll (s : State) (i : Nat) (x : Pll) : State := { s with plls := tset Pll.init s.plls i x }

/-- Read a power unit. -/
def getUnit (s : State) (i : Nat) : PowUnit := tget PowUnit.init s.units i

/-- Write a power unit. -/
def setUnit (s : State) (i : Nat) (x : PowUnit) : State := { s with units := tset PowUnit.init s.units i x }

/-- Read the control port of an octet. -/
def getPec (s : State) (i : Nat) : Pec := tget Pec.init s.pecs i

/-- Write the control port of an octet. -/
def setPec (s : State) (i : Nat) (x : Pec) : State := { s with pecs := tset Pec.init s.pecs i x }

/-- Read a MARK_OUT output. -/
def getMark (s : State) (i : Nat) : MarkOut := tget MarkOut.init s.marks i

/-- Write a MARK_OUT output. -/
def setMark (s : State) (i : Nat) (x : MarkOut) : State := { s with marks := tset MarkOut.init s.marks i x }

/-- Read the flow record of site `k` of slot `d`. -/
def getFlow (s : State) (d k : Nat) : Flow := tget Flow.init s.flows (siteKey d k)

/-- Write the flow record of site `k` of slot `d`. -/
def setFlow (s : State) (d k : Nat) (x : Flow) : State :=
  { s with flows := tset Flow.init s.flows (siteKey d k) x }

/-- Read the site record of site `k` of slot `d`. -/
def getSite (s : State) (d k : Nat) : Site := tget Site.init s.sites (siteKey d k)

/-- Write the site record of site `k` of slot `d`. -/
def setSite (s : State) (d k : Nat) (x : Site) : State :=
  { s with sites := tset Site.init s.sites (siteKey d k) x }

/-- The index of a port: its port ID (R257). -/
def portIx : Port → Nat
  | .host => 0 | .east => 1 | .west => 2 | .pair => 3

/-- Read a port. -/
def getPort (s : State) (p : Port) : PortSt := tget PortSt.init s.ports (portIx p)

/-- Write a port. -/
def setPort (s : State) (p : Port) (x : PortSt) : State :=
  { s with ports := tset PortSt.init s.ports (portIx p) x }

/-! ### Bytes (R3) -/

/-- `n` bytes of `v`, least significant first. -/
def le : Nat → Nat → Bytes
  | 0, _ => []
  | n + 1, v => BitVec.ofNat 8 v :: le n (v / 256)

/-- The number whose little-endian bytes are given. -/
def leVal : Bytes → Nat
  | [] => 0
  | b :: r => b.toNat + 256 * leVal r

/-- The `n`-byte little-endian field at offset `off`. -/
def fld (bs : Bytes) (off n : Nat) : Nat := leVal ((bs.drop off).take n)

/-- Whether the `n` bytes at `off` are zero. -/
def zeros (bs : Bytes) (off n : Nat) : Bool := ((bs.drop off).take n).all (· == 0)

/-- Bits [hi:lo] of a number. -/
def bits (v hi lo : Nat) : Nat := v / 2 ^ lo % 2 ^ (hi + 1 - lo)

/-- Bit `i` of a number. -/
def bit (v i : Nat) : Bool := v.testBit i

/-- 1 or 0. -/
def b2n (b : Bool) : Nat := if b then 1 else 0

/-- The two's complement reading of a `w`-bit number. -/
def signed (w v : Nat) : Int := if v % 2 ^ w < 2 ^ (w - 1) then (v % 2 ^ w : Nat) else (v % 2 ^ w : Nat) - (2 ^ w : Nat)

/-- The `w`-bit two's complement pattern of an integer. -/
def unsigned (w : Nat) (i : Int) : Nat := (i % (2 ^ w : Nat)).toNat

/-- Division rounded up. -/
def ceilDiv (a b : Nat) : Nat := (a + b - 1) / b

/-- The nearest integer to `a ÷ b`, halves away from zero (R189). -/
def roundDiv (a : Int) (b : Nat) : Int :=
  if a < 0 then -((2 * a.natAbs + b) / (2 * b) : Nat) else ((2 * a.natAbs + b) / (2 * b) : Nat)

/-- Nanoseconds from microseconds and milliseconds. -/
def us (n : Nat) : Nat := n * 1000
def ms (n : Nat) : Nat := n * 1000000

/-! ### Checksums -/

/-- One bit of the reflected CRC-32 of R176. -/
def crcBit (c : Word) : Word := if c.getLsbD 0 then (c >>> 1) ^^^ 0xEDB88320#32 else c >>> 1

/-- One byte of the CRC-32. -/
def crcByte (c : Word) (b : Byte) : Word :=
  crcBit (crcBit (crcBit (crcBit (crcBit (crcBit (crcBit (crcBit (c ^^^ b.zeroExtend 32))))))))

/-- Extend a finished CRC-32 by more bytes; a finished value of 0 over no bytes starts the sum (R176). -/
def crcExtend (c : Word) (bs : Bytes) : Word := (bs.foldl crcByte (c ^^^ 0xFFFFFFFF#32)) ^^^ 0xFFFFFFFF#32

/-- The CRC-32 of IEEE 802.3 over a byte string (R176). -/
def crc32 (bs : Bytes) : Word := crcExtend 0 bs

/-- One bit of the CRC-8 of R459, polynomial x^8 + x^2 + x + 1. -/
def crc8Bit (c : Byte) : Byte := if c.getLsbD 7 then (c <<< 1) ^^^ 0x07#8 else c <<< 1

/-- One byte of the CRC-8, most significant bit first. -/
def crc8Byte (c b : Byte) : Byte :=
  crc8Bit (crc8Bit (crc8Bit (crc8Bit (crc8Bit (crc8Bit (crc8Bit (crc8Bit (c ^^^ b))))))))

/-- The CRC-8 of a byte string (R459). -/
def crc8 (bs : Bytes) : Byte := bs.foldl crc8Byte 0

/-! ### Keys and signatures (R94, R95) -/

/-- The key hash held in fuses. -/
def keyHash : BitVec 384 := Config.sha384 (le 96 Config.deviceKey.toNat)

/-- ECDSA P-384 verification of a signature over a hash. -/
def ecdsaP384 (key : Bytes) (hash : BitVec 384) (signature : Bytes) : Bool :=
  (key = le 96 Config.deviceKey.toNat && signature = le 96 (Config.ecdsaSign hash).toNat) || Config.ecdsaOther key hash signature

/-- The key of this stepping. -/
def steppingKey : BitVec 256 := Config.deriveKey Config.fuseSecret 0xB1

/-- AES-256-GCM decryption: each byte of the ciphertext against the key stream, where the tag is right. -/
def gcmOpen (key : BitVec 256) (nonce aad cipher tag : Bytes) : Option Bytes :=
  if tag = le 16 (Config.gcmTag key nonce aad cipher).toNat then
    some (cipher.zipIdx.map (fun e => e.1 ^^^ Config.gcmStream key nonce e.2))
  else none

/-! ### Registers (R4, R7, R8) -/

/-- The reset value of a register that stands in `regs`: zero but where its table says otherwise. -/
def regReset (a : Nat) : Word :=
  if a = Reg.drmScrub then 240
  else if a = Reg.drmIdle then 1000
  else 0

/-- The stored value of a register. -/
def regGet (s : State) (a : Nat) : Word := tget (regReset a) s.regs a

/-- Store a register. -/
def regSet (s : State) (a : Nat) (v : Word) : State := { s with regs := tset (regReset a) s.regs a v }

/-- The field of `w` bits at `lo` of a stored register. -/
def regField (s : State) (a lo w : Nat) : Nat := (regGet s a).toNat / 2 ^ lo % 2 ^ w

/-- The word with the field of `w` bits at `lo` replaced. -/
def putField (x : Word) (lo w v : Nat) : Word :=
  BitVec.ofNat 32 (x.toNat - x.toNat / 2 ^ lo % 2 ^ w * 2 ^ lo + v % 2 ^ w * 2 ^ lo)

/-- Store a field of a register. -/
def regPut (s : State) (a lo w v : Nat) : State := regSet s a (putField (regGet s a) lo w v)

/-- Add to a saturating counter field (R7, R8). -/
def regBump (s : State) (a lo w n : Nat) : State :=
  regPut s a lo w (min (regField s a lo w + n) (2 ^ w - 1))

/-- Add to a counter field that wraps. -/
def regWrap (s : State) (a lo w : Nat) : State := regPut s a lo w (regField s a lo w + 1)

/-! ### Free values and time -/

/-- Draw a free value (R6): the value and the state that has used it. -/
def drawFree (s : State) : Nat × State := ((Config.freeWord s.free).toNat, { s with free := s.free + 1 })

/-- The Zenith time a frame carries: 64-bit seconds and 32-bit nanoseconds (R30). -/
def time12 (t : ZTime) : Bytes := le 8 t.s ++ le 4 t.ns

/-- The 16-byte stamp of R302. -/
def stamp16 (t : ZTime) : Bytes := le 8 t.s ++ le 4 t.ns ++ le 2 (t.frac / 65536) ++ le 2 0

/-- A Zenith time as a count of 2^−32 ns. -/
def zUnits (t : ZTime) : Nat := (t.s * 1000000000 + t.ns) * 4294967296 + t.frac

/-- The Zenith time of a count of 2^−32 ns. -/
def zTime (u : Nat) : ZTime :=
  { s := u / (1000000000 * 4294967296), ns := u / 4294967296 % 1000000000, frac := u % 4294967296 }

/-- The Zenith time `elapsed` ftu after the last NCLK tick: one ftu is 8 × 2^−16 ns (R303). -/
def stampAfter (s : State) (elapsed : Nat) : ZTime := zTime (zUnits s.zenith.time + elapsed * 8 * 65536)

/-- Whether a HALO_PLL is locked, so that stamps are interpolated (R303). -/
def haloLocked (s : State) : Bool := (getPll s 1).state = .locked || (getPll s 2).state = .locked

/-- The stamp of an instant `elapsed` ftu after the last NCLK tick (R303). -/
def stampNow (s : State) (elapsed : Nat) : ZTime := if haloLocked s then stampAfter s elapsed else s.zenith.time

/-! ### Token buckets (R108, R248, R325) -/

/-- Keys of the token buckets: of slot `d` on bank `b`, of a bank's port, of an Aurora channel, of the Aurora, spill, host and
scrub ports. -/
def claimKey (d b : Nat) : Nat := d * 8 + b
def portKey (b : Nat) : Nat := 128 + b
def aurKey (n : Nat) : Nat := 136 + n
def aurPortKey : Nat := 144
def spillKey : Nat := 145
def hostKey : Nat := 146
def scrubKey : Nat := 147

/-- The level of a bucket that fills at `units` × 0.125 GB/s, in eighths of a byte (R108). -/
def bucketLevel (s : State) (key units : Nat) : Nat :=
  let b := getBucket s key
  min 32768 (b.level + units * (s.now - b.at_))

/-- Debit `n` bytes from a bucket. -/
def debit (s : State) (key units n : Nat) : State :=
  setBucket s key { level := bucketLevel s key units - 8 * n, at_ := s.now }

/-! ### Queues and frames (chapter 12) -/

/-- Lines a packet of payload p bytes occupies, which is its cost in credits (R280, R287). -/
def frameLines (p : Nat) : Nat := (20 + p + 31) / 32

/-- Lines of a packet not yet popped. -/
def packetLines (p : Packet) : Nat := frameLines p.payload.length - p.popped

/-- Committed lines of a queue (R281). -/
def usedLines (q : Queue) : Nat := (q.packets.map packetLines).sum

/-- Whether the last packet is a GAP_MARK whose line has not been popped (R283). -/
def gapOpen (q : Queue) : Bool :=
  match q.packets.getLast? with
  | some p => p.ty == 0x48 && p.popped == 0
  | none => false

/-- The GAP_MARK packet of R283. -/
def gapPacket (dropped : Nat) (first last : Word) (order : Nat) : Packet :=
  { ty := 0x48, flags := 0, seq := 0, tag := first, payload := le 4 dropped ++ le 4 last.toNat, popped := 0,
    order := order }

/-- Set a flag bit of the job of tag `t` in every slot that holds it (R34). -/
def flagTag (s : State) (t : Word) (bitNo : Nat) : State :=
  { s with doms := tmap Dom.init (fun _ d =>
      if d.phase ≠ .free ∧ d.tag = t then { d with flags := d.flags ||| BitVec.ofNat 16 (2 ^ bitNo) } else d) s.doms }

/-- Drop a packet that meets a full queue: count it, and open or extend the GAP_MARK (R282, R283). -/
def dropPacket (s : State) (q : Nat) (job : Word) : State :=
  let x := getQueue s q
  let s := regBump s (Reg.dftDrop q) 0 16 1
  let s := if job = 0 then s else flagTag s job 1
  if gapOpen x then
    match x.packets.getLast? with
    | some g =>
      setQueue s q { x with packets := x.packets.dropLast ++
        [{ g with payload := le 4 (min (fld g.payload 0 4 + 1) 0xFFFFFFFF) ++ le 4 job.toNat }] }
    | none => s
  else
    let s := regBump s (Reg.dftDrop q) 16 16 1
    { setQueue s q { x with packets := x.packets ++ [gapPacket 1 job job s.orders] } with
      orders := s.orders + 1 }

/-- The job tag a packet reports in a GAP_MARK: that of a job's frame, 0 for any other (R283). -/
def jobOf (ty : Nat) (tag : Word) : Word := if 0x41 ≤ ty ∧ ty ≤ 0x44 then tag else 0

/-- Lines of a queue in use: those committed and those of the packet being written (R280). -/
def takenLines (q : Queue) : Nat := usedLines q + (q.writing.map Prod.fst).getD 0

/-- Whether a queue takes `n` lines more: at least one stays free after them (R282). -/
def hasRoom (x : Queue) (n : Nat) : Bool := decide (takenLines x + n + 1 ≤ x.lines)

/-- Whether a queue accepts a packet of payload p (R282). -/
def fits (x : Queue) (p : Nat) : Bool := hasRoom x (frameLines p)

/-- The lines of the on-die part of a queue that has a DRAM part: 1 MiB (R279). -/
def dieLines : Nat := 32768

/-- A queue as it takes packets: while the DRAM is frozen only its on-die part is left (R400). -/
def openQueue (s : State) (q : Nat) : Queue :=
  let x := getQueue s q
  if x.dram ∧ s.dram.state = .frozen then { x with lines := min x.lines dieLines } else x

/-- Commit a packet to a queue (R280), or drop it on a full one (R282). A queue without storage takes
nothing. -/
def enqueue (s : State) (q ty : Nat) (flags : BitVec 16) (tag : Word) (payload : Bytes) : State :=
  let x := getQueue s q
  if x.lines = 0 then s
  else if fits (openQueue s q) payload.length then
    let p : Packet := { ty := ty, flags := flags, seq := 0, tag := tag, payload := payload, popped := 0, order := s.orders }
    { setQueue s q { x with packets := x.packets ++ [p] } with orders := s.orders + 1 }
  else dropPacket s q (jobOf ty tag)

/-- A frame is committed to its queue. Between the latch of a fault and its FAULT_NOTICE, and while Nimbus has failed, no frame
joins a host queue: one that arises then follows FAULT_NOTICE (R394, R402, R404). -/
def commitFrame (s : State) (q ty : Nat) (flags : BitVec 16) (tag : Word) (payload : Bytes) : State :=
  if (s.anvil.window ∨ s.anvil.stopped) ∧ 16 ≤ q ∧ q ≤ 42 then
    let p : Packet := { ty := ty, flags := flags, seq := 0, tag := tag, payload := payload, popped := 0, order := q }
    { s with anvil := { s.anvil with deferred := s.anvil.deferred ++ [p] } }
  else enqueue s q ty flags tag payload

/-- The payload of an EVENT (R298). -/
def eventPayload (src : Nat) (t : ZTime) (arg : Bytes) : Bytes := le 2 src ++ le 2 0 ++ time12 t ++ arg

/-- Raise an Anvil event (R387, R392): record it in ANV_EVENT and send its EVENT frame on queue 16. -/
def raiseEvent (s : State) (src : Nat) (arg : Bytes) : State :=
  let s := regBump (regPut s Reg.anvEvent 0 16 src) Reg.anvEvent 16 16 1
  commitFrame s 16 0x46 0 0 (eventPayload src s.zenith.time arg)

/-- The payload of a READ_REPLY (R291). -/
def replyPayload (f : Frame) (status detail : Nat) (data : Bytes) : Bytes :=
  le 1 f.ty ++ le 1 status ++ le 2 0 ++ le 4 f.seq.toNat ++ le 4 data.length ++ le 4 detail ++ data

/-- Commit a READ_REPLY on queue 17 (R290). -/
def sendReply (s : State) (f : Frame) (p : Bytes) : State := commitFrame s 17 0x49 0 f.tag p

/-- Commit the replies that no reply before them holds back any more. -/
def sendOwed : List (Frame × Option Bytes) → State → State
  | (f, some p) :: r, s => sendOwed r (sendReply s f p)
  | l, s => { s with owed := l }

/-- The replies owed, with that of the first request `f` that lacks one filled in; none where no such request is owed one. -/
def fillOwed (f : Frame) (p : Bytes) : List (Frame × Option Bytes) → Option (List (Frame × Option Bytes))
  | [] => none
  | e :: r => if e = (f, none) then some ((f, some p) :: r) else (fillOwed f p r).map (e :: ·)

/-- A request has been handled whose reply follows later (R305, R333). -/
def owe (s : State) (f : Frame) : State := { s with owed := s.owed ++ [(f, none)] }

/-- Answer a request with a READ_REPLY on queue 17, in handling order (R290, R291). -/
def reply (s : State) (f : Frame) (status detail : Nat) (data : Bytes) : State :=
  let p := replyPayload f status detail data
  match s.owed with
  | [] => sendReply s f p
  | e :: r => sendOwed ((fillOwed f p (e :: r)).getD (e :: r ++ [(f, some p)])) s

/-! ### Pins and endings -/

/-- A pin parked at an instant: DEN 0, DRV 0, no edge pending (R161). -/
def parkPin (p : Pin) : Pin := { p with drv := false, den := false, edges := [] }

/-- Park every pin of slot `d`. -/
def parkDom (s : State) (d : Nat) : State :=
  { s with pins := tmap Pin.init (fun _ p => if p.dom = some d then parkPin p else p) s.pins }

/-- ECLK since the engines of a slot started at control-store address 0x000, five before vector 0 (R42); until then, those
counted since the slot's admission. -/
def clock (x : Dom) : Nat := x.idle + x.lead + x.eclk

/-- The start of the ECLK of a clock count on the domain's time base, in ftu from the start of vector 0. -/
def clockTime (c : Nat) : Int := ((c : Int) - 5) * 8192

/-- The Zenith time at which the ECLK of a clock count begins (R303): the counter at the last tick and the time elapsed since. -/
def eclkTime (s : State) (x : Dom) (c : Nat) : ZTime :=
  zTime ((zUnits s.zenith.time : Int) + (((c : Int) - x.tickAt) * 8192 + x.tickOff) * 524288).toNat

/-- The effect vector of an action. -/
def actVec : Act → Nat
  | .mark w .. => w
  | .capt w .. => w

/-- An action moved to another vector. -/
def actAt (v : Nat) : Act → Act
  | .mark _ z a m q r c => .mark v z a m q r c
  | .capt _ z b c => .capt v z b c

/-- The actions of a flow whose queue is withdrawn from vector `w` on and whose pins park at vector `park`: those attached
to a withdrawn vector are dropped, and one that waits for a vector no word has emitted takes effect at the parking
vector (R46). -/
def parkActs (f : Flow) (w park : Nat) : List Act :=
  f.acts.filter (fun a => actVec a ≤ w) ++ (f.acts.filter (fun a => w < actVec a && f.nextV ≤ actVec a)).map (actAt park)

/-- A flow without the slots from vector `w` on: it waits in no word and pushes no more. -/
def cutFlow (f : Flow) (w park : Nat) : Flow :=
  { f with
    queue := (f.queue.filter (fun r => r.v < w)).map (fun r => { r with count := min r.count (w - r.v) })
    pushed := min f.pushed w, nextV := min f.nextV w, waits := .none, costs := [], acts := parkActs f w park }

/-- Withdraw the queued slots of slot `d` from vector `v` on, at which its pins park (R73, R91). -/
def withdrawDom (s : State) (d v : Nat) : State :=
  { s with flows := tmap Flow.init (fun k f => if k / 256 = d then cutFlow f v v else f) s.flows }

/-- Stop the Aurora channels of slot `d` on idle code (R252). -/
def stopAuroras (s : State) (d : Nat) : State :=
  let stop (a : Aurora) : Aurora :=
    if a.dom = some d then { a with playing := false, armed := false, taken := none, arrived := [] } else a
  { s with auroras := tmap Aurora.init (fun _ => stop) s.auroras }

/-- Stop the Cumulus, Squall and Virga work of slot `d` (R397, R91). -/
def stopUnits (s : State) (d : Nat) : State :=
  { s with
    cums := tmap Cum.init (fun _ c => if c.dom = some d then { c with running := false, barrier := false } else c) s.cums
    squalls := tmap Squall.init (fun _ q =>
      if q.dom = some d then { q with halted := true, record := none, seg := none, arrivals := [], capts := [], closed := [] } else q) s.squalls
    virgas := tmap Virga.init (fun _ v =>
      if v.active ∧ v.dom = d then { v with stamping := false, ended := true } else v) s.virgas }

/-- Whether a slot holds a job that has not ended under R28. -/
def live (x : Dom) : Bool := x.phase = .admitted ∨ x.phase = .running

/-- The place of an ending in the order of R92: 1 machine check (and what ends a job as one does), 2 program error,
3 separation conflict, 4 slot queue empty, 5 event, 9 any other. -/
def endRankOf (e : Ending) (src : Nat) : Nat :=
  if e.status = 7 then (if src = 0x0401 then 3 else if 0x0120 ≤ src ∧ src ≤ 0x012C then 2 else 1)
  else if e.status = 3 then 4
  else if e.status = 2 then 5
  else 9

/-- Whether an ending of rank `rank` in ECLK `c` governs a job: no other stands, one of the same ECLK stands lower in
R92, or the later one is a discard and the earlier one is not (R31). -/
def governs (x : Dom) (c rank : Nat) (discard : Bool) : Bool :=
  match x.ended with
  | none => true
  | some e => if x.endClock = c + 1 then rank < x.endRank else discard && e.status ≠ 7

/-- The phase of a slot whose job has ended: one whose engines run and whose vector 0 has not started stays admitted where it
still plays, up to an end vector past 0, or parks at vector 0 by `HALT` (R26, R28, R42). -/
def endPhase (x : Dom) (e : Ending) : Phase :=
  if x.phase = .admitted ∧ x.engines ∧ ¬ x.halted ∧ (e.status ≠ 7 ∨ 0 < e.endVector) then .admitted else .ending

/-- End the job of slot `d` in ECLK `c` (R28, R31, R92); `src` names the source of a job error. -/
def endJobAt (s : State) (d c : Nat) (e : Ending) (src : Nat) : State :=
  let x := getDom s d
  if x.phase = .free ∨ ¬ governs x c (endRankOf e src) (e.status = 7) then s
  else setDom s d { x with
    phase := endPhase x e, ended := some e, endClock := c + 1, endRank := endRankOf e src, endAt := eclkTime s x c }

/-- End the job of slot `d` in the present ECLK. -/
def endJob (s : State) (d : Nat) (e : Ending) : State := endJobAt s d (clock (getDom s d)) e 0

/-- The job of slot `d` ends before vector 0 and plays no vector (R27, R35, R306): its engines stop and what they queued is
withdrawn. It sends the record of each Virga entry, which R202 excepts for other endings only (R204). -/
def endUnplayed (s : State) (d status reason : Nat) : State :=
  let s := endJob (setDom s d { getDom s d with halted := true }) d
    { status := status, reason := reason, endVector := 0, starveCh := 0xFFFF, reports := true, logs := false }
  stopUnits (stopAuroras (withdrawDom s d 0) d) d

/-- Note the registers that an ending wrote, each with its value in `s0` and now. -/
def noteUndo (s0 s : State) (d : Nat) (as : List Nat) : State :=
  let x := getDom s d
  setDom s d { x with undo := as.map (fun a => (a, regGet s0 a, regGet s a)) ++ x.undo }

/-- An ending that a higher one of the same ECLK replaces is not recorded (R92): each register that still holds what it
wrote gets its value back. -/
def unrecord (s : State) (d c : Nat) : State :=
  let x := getDom s d
  let s := if x.endClock = c + 1 then
      x.undo.foldl (fun s u => if regGet s u.1 = u.2.2 then regSet s u.1 u.2.1 else s) s
    else s
  setDom s d { getDom s d with undo := [], keep := if x.endClock = c + 1 then none else x.keep }

/-- Whether a job error with source `src` ends the job of slot `d` in ECLK `c`. One raised while the device is not Running
names a job that is discarded anyway and is dropped (R394). -/
def mayDiscard (s : State) (d c src : Nat) : Bool :=
  let x := getDom s d
  decide (x.phase ≠ .free) && decide (s.anvil.state = .running) &&
    governs x c (endRankOf { status := 7, reason := 0, endVector := 0, starveCh := 0, reports := false, logs := false } src) true

/-- End the job of slot `d` DISCARDED in ECLK `c` as a job error with source `src` (R31, R387): its pins park from vector
`endV`, and slots queued from there on are withdrawn, at once or, while the engines run, as that vector starts. No further
frame is made (R91, R202, R226) but the records of R134; commits issued complete. Anvil records the job error. -/
def discardAt (s : State) (d c src endV : Nat) : State :=
  let x := getDom s d
  if ¬ mayDiscard s d c src then s
  else
    let s := unrecord s d c
    let s0 := s
    let s := regPut (regPut s Reg.anvJobErr 0 16 src) Reg.anvJobErr 16 4 d
    let s := noteUndo s0 (regBump s Reg.anvJobErr 20 12 1) d [Reg.anvJobErr]
    let logs : Bool := src = 0x0129
    let s := endJobAt s d c
      { status := 7, reason := src / 256, endVector := endV, starveCh := 0xFFFF, reports := false, logs := logs } src
    let s := stopUnits (if x.engines ∧ ¬ x.halted then s else stopAuroras (withdrawDom s d endV) d) d
    setDom s d { getDom s d with records := if logs then x.records else [] }

/-- A job error in the present ECLK. -/
def discardJob (s : State) (d src endV : Nat) : State := discardAt s d (clock (getDom s d)) src endV

/-- First vector that starts in ECLK `e` or later at period `p` (R148). -/
def firstVector (p e : Nat) : Nat := ceilDiv (e * Config.eclk) p

/-! ### The fault latch (R393 to R397) -/

/-- The minimum recovery level of a fault source (R389, R446). -/
def faultLevel (src : Nat) : Nat :=
  if src = 0x0102 ∨ src = 0x0C01 ∨ src = 0x0C02 ∨ src = 0x0C03 ∨ src = 0x0D07 ∨ src = 0x0D09 ∨ src = 0x0E11 then 2
  else if src = 0x0C06 then 3
  else if src = 0x1001 ∨ src = 0x1002 then 0
  else 1

/-- The safe state of R397: every channel parked through the static gate, every Aurora stage at zero
current, every MARK_OUT_n low, control-port words discarded (R461), SYS_TEST cleared (R469), TWINKLE held,
and PAIR_OWN_OUT low (R444). -/
def safeState (s : State) : State :=
  regSet
  { s with
    pins := tmap Pin.init (fun _ p => parkPin p) s.pins
    auroras := tmap Aurora.init (fun _ a => { a with playing := false, armed := false, taken := none, arrived := [], zero := true }) s.auroras
    marks := tmap MarkOut.init (fun _ m => { m with pending := [] }) s.marks
    pecs := tmap Pec.init (fun _ p => { p with queue := [] }) s.pecs
    cums := tmap Cum.init (fun _ c => { c with running := false, barrier := false }) s.cums
    squalls := tmap Squall.init (fun _ q => { q with halted := true }) s.squalls
    virgas := tmap Virga.init (fun _ v => if v.active then { v with stamping := false, ended := true } else v) s.virgas
    doms := tmap Dom.init (fun _ d => if d.phase = .free then d else { d with halted := true }) s.doms
    memo := []
    owner := false
    anvil := { s.anvil with twinkleOn := false } } Reg.test 0

/-- A mask of `n` units without those retired. -/
def usableMask (retired : List Nat) (n : Nat) : Nat := ((List.range n).map (fun i => if retired.contains i then 0 else 2 ^ i)).sum

/-- The narrower of a port's transmit and receive sets; 0 while it is not Up (R411). -/
def usableWidth (s : State) (p : Port) : Nat :=
  let x := getPort s p
  if x.state = .up then min x.width x.rxWidth else 0

/-- Up to `n` codes of 2 bytes, zero-padded. -/
def codeList (l : List Nat) (n : Nat) : Bytes := ((List.range n).map (fun i => le 2 (l.getD i 0))).flatten

/-- The RECOVERY_NOTICE payload (R408). -/
def recoveryPayload (s : State) (result level flags : Nat) : Bytes :=
  let a := s.anvil
  le 1 result ++ le 1 level ++ le 1 flags ++ le 1 a.minLevel ++ le 2 a.source ++ le 2 a.overflowCount ++
    time12 s.zenith.time ++ le 4 a.faultSeq ++ le 32 (usableMask a.retiredCh 256) ++ le 1 (usableMask a.retiredBank 8) ++
    le 1 (usableMask a.retiredAur 8) ++ le 1 (usableWidth s .host) ++ le 1 (usableWidth s .east) ++
    le 1 (usableWidth s .west) ++ le 1 (usableWidth s .pair) ++ le 2 a.overCodes.length ++
    codeList a.overCodes a.overCodes.length

/-- Commit a RECOVERY_NOTICE (R408). -/
def recoveryNotice (s : State) (result level flags : Nat) : State :=
  commitFrame s 16 0x4A 0 0 (recoveryPayload s result level flags)

/-- A fault source is latched (R393), with the Zenith time of the FCLK cycle in which it arrives: which one of the present NCLK
period is open. -/
def latchNow (s : State) (src arg : Nat) : State :=
  let v := drawFree s
  safeState { v.2 with anvil := { s.anvil with
    state := .faulted, valid := true, overflow := false, nimbus := false, tagsIncomplete := false,
    source := src, mergeCount := 0, merged := [], overflowCount := 0, overCodes := [],
    minLevel := faultLevel src, time := stampNow s (v.1 % 409600), argument := arg, faultSeq := s.anvil.faultSeq + 1,
    discarded := 0, window := true, deferred := [], tags := [], wasOwner := s.owner, latchAt := s.now } }

/-- A fault source merges into the latched one (R394). Of two that arrive in one FCLK cycle the lower code is latched (R393):
whether two of one NCLK period do is open. -/
def mergeFault (s : State) (src arg : Nat) : State :=
  let a := s.anvil
  let v := if src < a.source ∧ a.latchAt = s.now then drawFree s else (0, s)
  let first : Bool := v.1 % 2 = 1
  { v.2 with anvil := { a with
      source := if first then src else a.source
      argument := if first then arg else a.argument
      mergeCount := min (a.mergeCount + 1) 255
      merged := if a.merged.length < 8 then a.merged ++ [if first then a.source else src] else a.merged
      minLevel := max a.minLevel (faultLevel src) } }

/-- A fault source that comes once the merge window has closed counts as overflow (R395). One raised in a recovery that no start
has taken over ends it with result 0x04 (R407); a Nimbus fault leaves the notice to the warm start of R404. -/
def overflowFault (s : State) (src : Nat) : State :=
  let a := s.anvil
  let s := { s with anvil := { a with
    overflow := true
    overflowCount := min (a.overflowCount + 1) 0xFFFF
    overCodes := if a.overCodes.length < 8 then a.overCodes ++ [src] else a.overCodes
    minLevel := max a.minLevel (faultLevel src) } }
  if a.state = .recovering ∧ s.boot.state ≠ 0 then
    let s := { s with anvil := { s.anvil with state := .faulted } }
    if src = 0x1001 ∨ src = 0x1002 then s else recoveryNotice s 4 a.level 0
  else s

/-- Latch a fault source (R393), merge it while the merge window is open (R394), or count it as overflow
once the window has closed (R395). -/
def latchFault (s : State) (src arg : Nat) : State :=
  if s.anvil.state = .running then latchNow s src arg
  else if s.anvil.window then mergeFault s src arg
  else overflowFault s src

/-- Whether admission is open (R427): the start reached ready and no fault stands. -/
def ready (s : State) : Bool := s.boot.state = 1 ∧ s.anvil.state = .running

/-- Whether every domain slot is free (R376). -/
def allFree (s : State) : Bool := s.doms.all (fun x => x.2.phase = .free)

end Sys2Proof.Machine
end

