-- ==== Sys2Proof/Machine/Operands.lean ====
section
/-! DEFINITION. The operand forms: how a frame arrives (R268, R278), how a request is checked and answered
(R290), and the fields of a JOB_SUBMIT payload, a microword-level emission and the board descriptor. -/

namespace Sys2Proof.Machine

/-! ### The board descriptor (R418) -/

/-- The queues that have storage, with their default size and range in KiB (R279). -/
def queueRange (q : Nat) : Option (Nat × Nat × Nat) :=
  if q = 0 then some (64, 16, 256)
  else if q = 1 then some (256, 128, 256)
  else if q = 2 ∨ q = 3 then some (16, 16, 64)
  else if (8 ≤ q ∧ q ≤ 10) ∨ (48 ≤ q ∧ q ≤ 50) then some (16, 16, 64)
  else if q = 16 then some (64, 64, 256)
  else if q = 17 then some (256, 128, 256)
  else if q = 18 then some (64, 16, 256)
  else if 19 ≤ q ∧ q ≤ 34 then some (256, 16, 65536)
  else if 35 ≤ q ∧ q ≤ 42 then some (512, 128, 65536)
  else none

/-- The default size of a queue in KiB; 0 without storage. -/
def queueDefault (q : Nat) : Nat := match queueRange q with
  | some r => r.1
  | none => 0

/-- The built-in descriptor (R419): every field at its default. -/
def builtIn : Bytes :=
  le 1 1 ++ le 3 0 ++ le 4 0 ++ le 12 0 ++ le 4 0 ++ le 20 0 ++ le 4 0 ++ (List.replicate 8 (le 2 128)).flatten ++ le 2 256 ++
    le 2 64 ++ le 4 0 ++ le 4 10 ++ le 4 100 ++ le 2 20 ++ le 2 10 ++ le 2 1 ++ le 2 2000 ++ le 1 0 ++ le 1 0 ++ le 2 8 ++
    le 2 100 ++ le 2 0 ++ le 1 1 ++ le 1 0 ++ le 2 40 ++ le 4 3600 ++ le 4 1000 ++ le 2 240 ++ le 2 0 ++ le 16 0 ++
    ((List.range 64).map (fun q => le 2 (queueDefault q / 4))).flatten ++ le 1 0 ++ le 1 1 ++ le 1 0 ++ le 1 0 ++ le 1 0 ++
    le 3 0 ++ le 2 1000 ++ le 54 0 ++ le 192 0

/-- A field of the board descriptor in force, which in boot-halt is the built-in one (R426). -/
def desc (s : State) (off n : Nat) : Nat := fld (if s.boot.state = 2 then builtIn else s.boot.desc) off n

/-- The ring and pair settings of R431. -/
def deviceId (s : State) : Nat := desc s 0x100 1
def ringSize (s : State) : Nat := desc s 0x101 1
def hopsE (s : State) : Nat := desc s 0x102 1
def hopsW (s : State) : Nat := desc s 0x103 1
def pairEnable (s : State) : Bool := desc s 0x104 1 = 1
def digestTimeoutUs (s : State) : Nat := desc s 0x108 2

/-- Whether the device is a shadow: a pair member that does not drive PAIR_OWN_OUT high (R438). -/
def shadow (s : State) : Bool := pairEnable s && !s.owner

/-- Ports declared unused: bit p of ports_unused (R257, R418). -/
def portUnused (s : State) (p : Port) : Bool := bit (desc s 0x14 1) (portIx p)

/-- Lanes of a port at full width and its first device lane (R257). -/
def portWidth : Port → Nat
  | .host => 8 | _ => 4
def portFirst : Port → Nat
  | .host => 0 | .east => 8 | .west => 12 | .pair => 16

/-- The port of a device lane. -/
def lanePort (l : Nat) : Port := if l < 8 then .host else if l < 12 then .east else if l < 16 then .west else .pair

/-- The port whose transmitter serves an outbound queue (R281). -/
def queuePort (q : Nat) : Port := if q = 48 then .east else if q = 49 then .west else if q = 50 then .pair else .host

/-- Whether a port holds at least one live lane (R264). -/
def portHasLive (s : State) (p : Port) : Bool :=
  (List.range (portWidth p)).any (fun j => (getLane s (portFirst p + j)).live)

/-- The DRAM serves requests (R326): in service, with DDR_PLL locked. -/
def dramServing (s : State) : Bool := s.dram.state = .service && s.dram.lostAt = none && (getPll s 4).state = .locked

/-- Whether DDR_PLL is lost, so that the controller issues no command (R327, R347). -/
def ddrLost (s : State) : Bool := (getPll s 4).lost || (s.dram.lostAt.isSome && (getPll s 4).state ≠ .locked)

/-! ### Arrival of a frame (R268, R278) -/

/-- The inbound queue of a frame: one that left a neighbour's queue 48, 49 or 50 enters queue 9, 8 or 10 here (R277). -/
def inQueue (f : Frame) : Nat :=
  match f.port, f.queue with
  | .west, 48 => 9
  | .east, 49 => 8
  | .pair, 50 => 10
  | _, q => q

/-- Whether a type travels on a queue at a port (R277). -/
def typeOnQueue (p : Port) (ty q : Nat) : Bool :=
  match p with
  | .host => (ty = 0x01 ∧ q = 0) ∨ (ty = 0x03 ∧ q = 1) ∨ ((ty = 0x04 ∨ ty = 0x05 ∨ ty = 0x06) ∧ q = 3) ∨
      ((ty = 0x02 ∨ ty = 0x07 ∨ ty = 0x08 ∨ ty = 0x09 ∨ ty = 0x0A ∨ ty = 0x80) ∧ q = 2)
  | .east => (ty = 0x80 ∨ ty = 0x81) ∧ q = 8
  | .west => (ty = 0x80 ∨ ty = 0x81) ∧ q = 9
  | .pair => (ty = 0x82 ∨ ty = 0x83) ∧ q = 10

/-- Whether a port grants credits for a queue (R287). -/
def grants (p : Port) (q : Nat) : Bool :=
  match p with
  | .host => q < 4 | .east => q = 8 | .west => q = 9 | .pair => q = 10

/-- Whether the reserved bits [31:30] of the nanoseconds word at `off` are zero (R30, R302). -/
def nsOk (b : Bytes) (off : Nat) : Bool := fld b off 4 < 2 ^ 30

/-- Whether a payload exchanged between devices has its fixed size, zero reserved fields and codes in range
(R278, R308, R432, R441, R444). -/
def exchangeOk (ty : Nat) (b : Bytes) : Bool :=
  if ty = 0x80 then
    b.length = 48 ∧ (fld b 0 1 = 1 ∨ fld b 0 1 = 2) ∧ (fld b 1 1 < 32 ∨ fld b 1 1 = 0xFF) ∧ zeros b 8 8 ∧
      nsOk b 0x18 ∧ zeros b 0x1E 2 ∧ nsOk b 0x28 ∧ zeros b 0x2E 2
  else if ty = 0x81 then
    b.length = 24 ∧ fld b 0 1 < 8 ∧ 1 ≤ fld b 1 1 ∧ fld b 1 1 < 32 ∧ fld b 2 1 < 32 ∧ zeros b 3 1 ∧
      zeros b 6 2 ∧ nsOk b 0x10 ∧ zeros b 0x14 4
  else if ty = 0x82 then
    b.length = 32 ∧ 1 ≤ fld b 0 1 ∧ fld b 0 1 ≤ 4 ∧ zeros b 2 2 ∧ zeros b 0xC 4 ∧ zeros b 0x16 2
  else if ty = 0x83 then b.length = 16 ∧ zeros b 2 2 ∧ nsOk b 0xC
  else true

/-- Credits the sender holds for an inbound queue, modulo 65,536 (R287). -/
def creditsHeld (x : Queue) : Nat := (x.grant + 65536 - x.used % 65536) % 65536

/-- The header of a frame as it stands on the link (R274). -/
def frameHeader (f : Frame) : Bytes :=
  le 1 f.ty ++ le 1 f.queue ++ le 2 f.flags.toNat ++ le 4 f.length ++ le 4 f.seq.toNat ++ le 4 f.tag.toNat

/-- The CRC-32 over header and payload that the trailer of a frame must hold (R275). -/
def frameCrc (f : Frame) : Word := crc32 (frameHeader f ++ f.payload)

/-- Whether a frame meets a case of R268: its columns did not end as they should, or its CRC check fails. -/
def lostOnLink (f : Frame) : Bool := f.link ≠ .eof || f.trailer ≠ frameCrc f

/-- The first case of R278 a frame meets, as the reason byte of R299; 0 for a frame that is accepted. -/
def discardReason (s : State) (f : Frame) : Nat :=
  if lostOnLink f then 1
  else if f.length ≠ f.payload.length ∨ 65536 < f.length then 2
  else if (f.flags >>> 1) ≠ 0 then 3
  else if ¬ typeOnQueue f.port f.ty (inQueue f) then 4
  else if creditsHeld (getQueue s (inQueue f)) < frameLines f.length then 5
  else if (f.ty = 0x02 ∧ f.length ≠ 4) ∨ ¬ exchangeOk f.ty f.payload then 6
  else 0

/-- Count lines a frame uses of the grant of its inbound queue, and free them at once (R287). -/
def useLines (s : State) (f : Frame) : State :=
  if grants f.port (inQueue f) then
    let x := getQueue s (inQueue f)
    setQueue s (inQueue f) { x with used := (x.used + frameLines f.length) % 65536 }
  else s

/-- Free the lines of a frame that has been handled or discarded: the grant grows (R287). -/
def freeLines (s : State) (f : Frame) : State :=
  if grants f.port (inQueue f) then
    let x := getQueue s (inQueue f)
    setQueue s (inQueue f) { x with grant := (x.grant + frameLines f.length) % 65536 }
  else s

/-- Start or retune a PLL (R346): its domain runs on bypass until it locks, and windows count once the VCO has settled, 2.3 µs
later. -/
def retune (s : State) (n : Nat) : State :=
  setPll s n { getPll s n with
    state := .bypass, good := 0, far := false, since := s.now, base := s.now + 2300, lost := false, closings := 0, cut := false }

/-- Count a power unit as in use (R354): it is Active. A port or the core that is Idle becomes Active with its use, whose wake
of 2 µs lies before it. -/
def useUnit (s : State) (u : Nat) : State :=
  let x := getUnit s u
  if x.state = .active ∨ (16 ≤ u ∧ x.state = .idle) then
    setUnit s u { x with state := .active, since := s.now, wakes := none }
  else s

/-- The core is in use: a frame is handled, or another unit wakes (R354). In Doze, where Nimbus runs on the bypass, it begins
to wake and CORE_PLL restarts (R351, R352). -/
def useCore (s : State) : State :=
  let x := getUnit s 21
  if x.state = .doze ∧ x.wakes = none then
    let s := setUnit s 21 { x with wakes := some (s.now + us 80) }
    if (getPll s 0).state = .off then retune s 0 else s
  else useUnit s 21

/-- Note that a port carried a frame (R354, R355). -/
def touchPort (s : State) (p : Port) : State :=
  useCore (useUnit (setPort s p { getPort s p with lastUse := s.now }) (16 + portIx p))

/-- A frame accepted by its port: counted in JET_PORT_RXF, its number recorded (R273, R276). -/
def acceptFrame (s : State) (f : Frame) : State :=
  let s := touchPort (regBump s (Reg.jetPortRxf (portIx f.port)) 0 32 1) f.port
  let s := setPort s f.port { getPort s f.port with seqIn := f.seq.toNat }
  useLines s f

/-- A frame discarded by its port (R278): an EVENT 0x0A02 names the reason. A frame lost on the link counts
in JET_PORT_ERR, and so does its abort column (R268, R273). -/
def discardFrame (s : State) (f : Frame) (reason : Nat) : State :=
  let s := touchPort s f.port
  let s := if reason = 1 then regBump s (Reg.jetPortErr (portIx f.port)) 0 16 1 else s
  let s := if f.link = .abort then regBump s (Reg.jetPortErr (portIx f.port)) 16 8 1 else s
  let s := if reason = 5 then s else freeLines (useLines s f) f
  raiseEvent s 0x0A02 (le 1 (portIx f.port) ++ le 1 f.queue ++ le 1 f.ty ++ le 1 reason ++ le 4 f.seq.toNat ++
    le 4 (getPort s f.port).seqIn)

/-- Whether a RECOVER that came while the merge window stands open waits at the head of queue 2: a recovery begins after
FAULT_NOTICE (R402). -/
def recoverWaits (s : State) : Bool :=
  s.anvil.window && (s.inbox.find? (fun e => inQueue e.frame = 2)).any (fun e => e.frame.ty = 0x09)

/-- Whether Nimbus takes nothing from an inbound queue: a start runs, Nimbus has failed, the JTAG reader is the consumer, or a
RECOVER waits (R281, R290, R402, R404). -/
def nimbusStopped (s : State) (q : Nat) : Bool :=
  s.boot.state = 0 || s.anvil.stopped || (getQueue s q).jtag || (q = 2 && recoverWaits s)

/-- The arrival stamp of a SYNC frame: that of the last timestamp point received on its port before its SOF (R308). -/
def rxStamp (s : State) (f : Frame) : ZTime := (getPort s f.port).stamp.getD s.zenith.time

/-- An accepted frame reaches Nimbus. One that cannot be handled yet waits behind the others of its queue (R289); queues 0, 1
and 3 keep their frames in `held0`, `held1` and `held3`, where `k` puts them. `boot` is the start the frame would cause, and `now` tells
of one that does not wait for a start under way (R428). -/
def toNimbus (s : State) (f : Frame) (boot : Option BootInput) (now : Bool) (k : State → State) : State :=
  let q := inQueue f
  if q = 0 ∨ q = 1 ∨ q = 3 then k s
  else if now ∧ s.boot.state = 0 ∧ ¬ (getQueue s q).jtag then k s
  else if nimbusStopped s q ∨ s.inbox.any (fun e => inQueue e.frame = q) ∨ (f.ty = 0x09 ∧ s.anvil.window) then
    { s with inbox := s.inbox ++ [{ frame := f, boot := boot, stamp := rxStamp s f, at_ := s.now }] }
  else k s

/-- A frame arrives at its port (R278). A port that is not Up carries no frame (R265). A frame that no case of R278 discards
is accepted and, where it is of type `ty`, `k` handles it; one of another type belongs to another command. -/
def arrive (s : State) (f : Frame) (ty : Nat) (boot : Option BootInput) (now : Bool) (k : State → State) : State :=
  if (getPort s f.port).state ≠ .up then s
  else
    let r := discardReason s f
    if r ≠ 0 then discardFrame s f r
    else if f.ty ≠ ty then s
    else toNimbus (acceptFrame s f) f boot now k

/-- A frame of type `ty` arrives. -/
def onFrame (s : State) (f : Frame) (ty : Nat) (k : State → State) : State := arrive s f ty none false k

/-! ### Requests (R290) -/

/-- A field of a request payload that must hold: its offset and whether it is right. -/
abbrev Check := Nat × Bool

/-- The offset of the first faulty field of a request: the lowest offset of a check that fails. -/
def firstFault (cs : List Check) : Option Nat :=
  cs.foldl (fun m c => if c.2 then m else match m with
    | none => some c.1
    | some o => some (min o c.1)) none

/-- Reserved bytes at `off`. -/
def rsv (b : Bytes) (off n : Nat) : Check := (off, zeros b off n)

/-- Length of a payload against the one its table gives; the fault stands at the first offset at which they
disagree. -/
def lenIs (b : Bytes) (n : Nat) : Check := (min b.length n, b.length = n)

/-- A request of a host queue (R290). Its lines are freed; a malformed one is answered with status 0x01. In
boot-halt only the requests of R426 (`haltOk`) are handled and the others are answered with status 0x06. -/
def request (s : State) (f : Frame) (haltOk : Bool) (cs : List Check) (k : State → State) : State :=
  let s := freeLines s f
  if s.boot.state = 2 ∧ ¬ haltOk then reply s f 6 0 []
  else match firstFault cs with
    | some off => reply s f 1 off []
    | none => k s

/-- A request whose first payload byte is an op: a frame of another op of its type (`others`) is not this
command. -/
def onOp (s : State) (f : Frame) (ty : Nat) (others : List Nat) (k : State → State) : State :=
  if f.payload ≠ [] ∧ others.contains (fld f.payload 0 1) then s else onFrame s f ty k

/-! ### JOB_SUBMIT (R9) -/

def jobFree (p : Bytes) : Bool := bit (fld p 1 1) 0
def jobTimed (p : Bytes) : Bool := bit (fld p 1 1) 1
def jobSiteBits (p : Bytes) : Nat := fld p 2 1
def jobItemBits (p : Bytes) : Nat := fld p 3 1
def jobBase (p : Bytes) : Nat := fld p 4 2
def jobPower (p : Bytes) : Nat := fld p 8 4
def jobMaxWait (p : Bytes) : Nat := fld p 0xC 4
def jobStartS (p : Bytes) : Nat := fld p 0x10 8
def jobStartNs (p : Bytes) : Nat := fld p 0x18 4
def jobSeq (p : Bytes) : Nat := fld p 0x20 4
def jobStreams (p : Bytes) : Nat := fld p 0x24 4
def jobTiming (p : Bytes) : Nat := fld p 0x28 4
def jobCum (p : Bytes) : Nat := fld p 0x2C 4
def jobAur (p : Bytes) : Nat := fld p 0x30 4
def jobSqu (p : Bytes) : Nat := fld p 0x34 4
def jobCumBanks (p : Bytes) : Nat := fld p 0x40 1
def jobSquBanks (p : Bytes) : Nat := fld p 0x41 1
def jobAurs (p : Bytes) : Nat := fld p 0x42 1
def jobMarks (p : Bytes) : Nat := fld p 0x43 1
def jobAurClaim (p : Bytes) : Nat := fld p 0x44 2
def jobFailClaim (p : Bytes) : Nat := fld p 0x46 2
def jobVecClaim (p : Bytes) (b : Nat) : Nat := fld p (0x48 + 2 * b) 2
def jobStoreClaim (p : Bytes) (b : Nat) : Nat := fld p (0x58 + b) 1
def jobStopMode (p : Bytes) : Nat := bits (fld p 0x60 4) 1 0
def jobVlog (p : Bytes) : Nat := bits (fld p 0x60 4) 7 2
def jobStopAt (p : Bytes) : Nat := bits (fld p 0x60 4) 31 8 + 1

/-- Whether CHn belongs to the job (R9 pin_map). -/
def jobPin (p : Bytes) (n : Nat) : Bool := bit (fld p (0x80 + n / 8) 1) (n % 8)

/-- The site of CHn (R9 site_map). -/
def jobSiteOf (p : Bytes) (n : Nat) : Nat := fld p (0xA0 + n) 1

/-- The job's pins in ascending channel order. -/
def jobPins (p : Bytes) : List Nat := (List.range 256).filter (jobPin p)

/-- The job's site count: one above its highest site (R14). -/
def jobSites (p : Bytes) : Nat := (jobPins p).foldl (fun m n => max m (jobSiteOf p n + 1)) 0

/-- The pins of one site. -/
def sitePins (p : Bytes) (k : Nat) : List Nat := (jobPins p).filter (fun n => jobSiteOf p n = k)

/-- The banks that hold a pin of the job or that it claims (R362). -/
def jobBanks (p : Bytes) : List Nat :=
  (List.range 8).filter (fun b =>
    bit (jobCumBanks p) b || bit (jobSquBanks p) b || (jobPins p).any (fun n => n / 32 = b))

/-- The size of the job's Ledger range (R19). -/
def jobRange (p : Bytes) : Nat := 2 ^ (jobSiteBits p + jobItemBits p)

/-- The flow a site follows: its own in a site-free domain, that of site 0 otherwise (R16). -/
def flowIx (p : Bytes) (k : Nat) : Nat := if jobFree p then k else 0

/-- The sites that follow a flow. -/
def flowSites (p : Bytes) (k : Nat) : List Nat := if jobFree p then [k] else List.range (jobSites p)

/-- The pins a flow drives. -/
def flowPins (p : Bytes) (k : Nat) : List Nat := if jobFree p then sitePins p k else jobPins p

/-- The period of a job in ftu (R143, R147). -/
def jobPeriod (s : State) (p : Bytes) : Nat := fld (getImage s (jobTiming p)).data 8 5

/-- A Ledger context of free values. -/
def freeCtx (s : State) : Ctx × State :=
  let a := drawFree s
  let b := drawFree a.2
  let c := drawFree b.2
  let d := drawFree c.2
  ({ status := BitVec.ofNat 8 a.1, commits := bits a.1 15 8, scratch := BitVec.ofNat 16 (bits a.1 31 16),
     failCount := bits a.1 63 32, firstFail := b.1 % 2 ^ 48, lastFail := c.1 % 2 ^ 48,
     signature := BitVec.ofNat 32 (bits b.1 63 48 + bits c.1 63 48 * 65536), firstAddr := d.1 }, d.2)

/-- The contents of a job's Ledger range become unpredictable (R91): free values. -/
def freeRange (s : State) (p : Bytes) : State :=
  (List.range (jobRange p)).foldl (fun s i =>
    let c := freeCtx s
    setCtx c.2 (jobBase p + i) c.1) s

/-- The first vector that starts in the ECLK `n` after that of clock count `c`, or later: vector 0 where that ECLK lies in the
lead of the engines or before it (R42, R148). -/
def vecAfter (s : State) (d c n : Nat) : Nat :=
  let x := getDom s d
  if x.engines then max x.next (firstVector (jobPeriod s x.payload) (c + n - 5)) else 0

/-- The first vector that starts `n` ECLK after the present one, or later. -/
def vecAhead (s : State) (d n : Nat) : Nat := vecAfter s d (clock (getDom s d)) n

/-- A job error met in ECLK `c` that ends the job as a machine check does (R90, R91): the pins park from the first vector that
starts two ECLK later. -/
def machineCheckAt (s : State) (d c src : Nat) : State :=
  let x := getDom s d
  if ¬ mayDiscard s d c src then s
  else discardAt (freeRange s x.payload) d c src (vecAfter s d c 2)

/-- A job error of the present ECLK that ends the job as a machine check does. -/
def machineCheck (s : State) (d src : Nat) : State := machineCheckAt s d (clock (getDom s d)) src

/-- One found by a unit, or raised from outside, in the ECLK whose VECTOR_POP came last. -/
def unitCheck (s : State) (d src : Nat) : State := machineCheckAt s d (clock (getDom s d) - 1) src

end Sys2Proof.Machine
end

