-- ==== Sys2Proof/Machine/Layouts.lean ====
section
/-! DEFINITION. The fields of the six image formats: sequence programs (R40, R43), symbol streams (R99 to
R101), timing images (R143, R144), Cumulus images (R122, R129, R132), Aurora images (R230 to R233) and Squall
plans with their Virga tables (R193, R207, R208, R213). Every function takes the image's bytes. -/

namespace Sys2Proof.Machine

/-! ### Sequence programs -/

def progWords (b : Bytes) : Nat := fld b 2 2
def progMasks (b : Bytes) : Nat := fld b 4 2
def progEntry (b : Bytes) : Nat := fld b 6 2

/-- The sequence word at an address, 128 bits (R40). -/
def progWord (b : Bytes) (a : Nat) : Nat := fld b (16 + 16 * a) 16

/-- A fail-mask entry, 256 bits (R40). -/
def progMask (b : Bytes) (e : Nat) : Nat := fld b (16 + 16 * progWords b + 32 * e) 32

def wordOpcode (w : Nat) : Nat := bits w 127 122
def wordSrc (w : Nat) : Nat := bits w 121 120
def wordSym (w : Nat) : Nat := bits w 119 116
def wordEcount (w : Nat) : Nat := bits w 111 96

/-! ### Decoding a sequence word (R43, R44) -/

/-- The source of a word; code 3 is reserved (R43). -/
def srcOf (n : Nat) : Option Src :=
  if n = 0 then some .stream else if n = 1 then some .again else if n = 2 then some .const else none

/-- The common fields of a word. -/
def wordEmit (w : Nat) : Option Emit :=
  (srcOf (wordSrc w)).map (fun s => { src := s, sym := BitVec.ofNat 4 (wordSym w), ecount := BitVec.ofNat 16 (wordEcount w) })

/-- The reduction of a `JSC`; code 3 is reserved (R56). -/
def reduceOf (n : Nat) : Option Reduce :=
  if n = 0 then some .own else if n = 1 then some .any else if n = 2 then some .every else none

/-- The action of a `CAPT` (R68). -/
def captOf (n : Nat) : Option CaptAction :=
  if n = 1 then some .arm else if n = 2 then some .force else if n = 3 then some .stop else none

/-- An event number; 24 to 31 are reserved (R58). -/
def eventOf (n : Nat) : Option (Fin 24) := if h : n < 24 then some ⟨n, h⟩ else none

/-- The ring event of a `MARK`, where its ring bit is set (R67). -/
def ringOf (w : Nat) : Option (Fin 8) := if bit w 24 then some (Fin.ofNat 8 (bits w 27 25)) else none

/-- The `LEDG` form of an op (R66). -/
def ledgOf (d : Fin 16) (k : Fin 256) (e : Emit) (w : Nat) : Option Instr :=
  let inc := bit w 2
  let item := BitVec.ofNat 16 (bits w 31 16)
  if w % 4 = 1 then some (.ledgSelect d k e inc item)
  else if w % 4 = 2 then some (.ledgCommit d k e)
  else if w % 4 = 3 then some (.ledgCommitSelect d k e inc item)
  else none

/-- The command that the 128 bits of a sequence word spell for site `k` of slot `d` (R43, R44). -/
def wordInstr (d : Fin 16) (k : Fin 256) (w : Nat) : Option Instr :=
  (wordEmit w).bind (fun e =>
    let op := wordOpcode w
    let target := bits w 15 0
    let lpop := bits w 19 16
    let cond := BitVec.ofNat 7 (bits w 30 24)
    let event := eventOf (bits w 28 24)
    let count := bits w 31 0 + 1
    let passes := bits w 63 32 + 1
    let b0 := BitVec.ofNat 8 (bits w 7 0)
    if op = 0x00 then some (.nop d k)
    else if op = 0x01 then some (.vec d k e)
    else if op = 0x02 then some (.rpt d k e count)
    else if op = 0x04 then some (.loop d k e count)
    else if op = 0x05 then some (.endl d k e)
    else if op = 0x08 then some (.call d k e target)
    else if op = 0x09 then some (.ret d k e)
    else if op = 0x0A then some (.jmp d k e target lpop)
    else if op = 0x0B then (reduceOf (bits w 33 32)).map (.jsc d k e target lpop cond (bit w 31))
    else if op = 0x0C then event.map (fun n => .jev d k e target lpop n (bit w 29))
    else if op = 0x10 then some (.wordMatch d k e target lpop cond passes)
    else if op = 0x11 then event.map (fun n => .wait d k e target lpop n passes)
    else if op = 0x12 then some (.barr d k e)
    else if op = 0x18 then some (.tset d k e b0)
    else if op = 0x19 then some (.fmask d k e b0)
    else if op = 0x1A then ledgOf d k e w
    else if op = 0x1C then
      some (.mark d k e b0 (BitVec.ofNat 8 (bits w 15 8)) (BitVec.ofNat 8 (bits w 23 16)) (ringOf w) (BitVec.ofNat 8 (bits w 39 32)))
    else if op = 0x1D then (captOf (bits w 10 8)).map (.capt d k e b0)
    else if op = 0x20 then some (.apg d k e b0 (bits w 23 8) passes)
    else if op = 0x3F then some (.halt d k e)
    else none)

/-! ### Symbol streams -/

/-- The directory entry of a channel (R99). -/
def strEntry (b : Bytes) (ch : Nat) : Option Nat :=
  ((List.range (fld b 2 2)).map (fun i => 16 + 32 * i)).find? (fun o => fld b o 2 = ch)

/-- A field of a channel's directory entry; 0 without one. -/
def strField (b : Bytes) (ch off n : Nat) : Nat :=
  match strEntry b ch with
  | some o => fld b (o + off) n
  | none => 0

def strBytes (b : Bytes) (ch : Nat) : Nat := strField b ch 4 4
def strSymbols (b : Bytes) (ch : Nat) : Nat := strField b ch 24 6

/-- The compressed stream of a channel. -/
def strData (b : Bytes) (ch : Nat) : Bytes := (b.drop (strField b ch 8 8)).take (strBytes b ch)

/-- Size in bytes and symbol count of the block that begins a byte string (R101). -/
def blockSize (b : Bytes) : Nat × Nat :=
  let h := fld b 0 1
  let n := h % 64
  if h / 64 = 0 then (1 + (n + 2) / 2, n + 1)
  else if h / 64 = 1 then (3, n % 4 * 65536 + fld b 1 2 + 1)
  else if h / 64 = 2 then (2 + n, 16 * (n + 1))
  else (2, 16 * (n + 1))

/-- The block that holds symbol `i`: its byte address and the symbol's offset in it; none past the end. -/
def findBlock : Nat → Bytes → Nat → Nat → Option (Nat × Nat)
  | 0, _, _, _ => none
  | fuel + 1, b, a, i =>
    if b = [] then none
    else if i < (blockSize b).2 then some (a, i)
    else findBlock fuel (b.drop (blockSize b).1) (a + (blockSize b).1) (i - (blockSize b).2)

/-- The symbols of a block whose first `n` bytes have been read (R101, R103). -/
def blockReadable (b : Bytes) (n : Nat) : Nat :=
  let kind := fld b 0 1 / 64
  let all := (blockSize b).2
  if (blockSize b).1 ≤ n then all
  else if kind = 0 then min all (2 * (n - 1))
  else if kind = 2 then min all (16 * (n - 1))
  else 0

/-- The block of a channel's stream that holds symbol `i` (R111). -/
def strBlock (b : Bytes) (ch i : Nat) : Option (Nat × Nat) := findBlock (strBytes b ch) (strData b ch) 0 i

/-- Symbol `j` of entry `e` of a channel's dictionary (R99). -/
def dictSym (b : Bytes) (ch e j : Nat) : Nat := fld b (strField b ch 16 8 + 8 * e) 8 / 16 ^ j % 16

/-- Symbol `i` of a channel's stream (R101); 0 past its end, where the pin runs dry before it is played. -/
def strSym (b : Bytes) (ch i : Nat) : Nat :=
  match strBlock b ch i with
  | none => 0
  | some (a, j) =>
    let blk := (strData b ch).drop a
    let h := fld blk 0 1
    if h / 64 = 0 then fld blk (1 + j / 2) 1 / 16 ^ (j % 2) % 16
    else if h / 64 = 1 then h / 4 % 16
    else if h / 64 = 2 then dictSym b ch (fld blk (1 + j / 16) 1) (j % 16)
    else dictSym b ch (fld blk 1 1) (j % 16)

/-- The byte address just past the block that holds symbol `i`. -/
def strBlockEnd (b : Bytes) (ch i : Nat) : Option Nat :=
  (strBlock b ch i).map (fun p => p.1 + (blockSize ((strData b ch).drop p.1)).1)

/-- The byte address of the first block not started once `i` symbols have been delivered (R106). -/
def strRead (b : Bytes) (ch i : Nat) : Nat :=
  match strBlock b ch i with
  | some (a, 0) => a
  | some (a, _) => a + (blockSize ((strData b ch).drop a)).1
  | none => strBytes b ch

/-- The byte address of the start of the block at symbol `i` (R106, R111). -/
def strStart (b : Bytes) (ch i : Nat) : Nat :=
  match strBlock b ch i with
  | some (a, _) => a
  | none => strBytes b ch

/-! ### Timing images -/

def timFast (b : Bytes) : Bool := bit (fld b 1 1) 0
def timChans (b : Bytes) : Nat := fld b 2 2
def timSets (b : Bytes) : Nat := fld b 4 2
def timPeriod (b : Bytes) : Nat := fld b 8 5
def timKeep (b : Bytes) : Nat := fld b 0x110 4

/-- The starve entry of a channel (R116). -/
def timStarve (b : Bytes) (ch : Nat) : Nat := fld b (0x120 + 4 * ch) 4

/-- The index of a channel in channels, and of a set in set_ids (R143). -/
def timChanIx (b : Bytes) (ch : Nat) : Option Nat := (List.range (timChans b)).find? (fun c => fld b (0x520 + 2 * c) 2 = ch)
def timSetIx (b : Bytes) (set : Nat) : Option Nat := (List.range (timSets b)).find? (fun i => fld b (0x10 + i) 1 = set)

/-- The offset of the waveform a symbol selects in a set of a channel (R143). -/
def waveAt (b : Bytes) (ch set sym : Nat) : Option Nat :=
  match timChanIx b ch, timSetIx b set with
  | some c, some i => some (0x720 + 512 * (timSets b * c + i) + 32 * sym)
  | _, _ => none

def edgeIx : EdgeName → Nat
  | .d0 => 0 | .d1 => 1 | .e0 => 2 | .e1 => 3 | .s0 => 4 | .s1 => 5

/-- The kind of an edge: D, E or S (R152). -/
def edgeKind (e : EdgeName) : Nat := edgeIx e / 2

def waveCtrl (b : Bytes) (o : Nat) : Nat := fld b (o + 0x18) 2
def waveEn (b : Bytes) (o : Nat) (e : EdgeName) : Bool := bit (waveCtrl b o) (edgeIx e)
def waveTime (b : Bytes) (o : Nat) (e : EdgeName) : Nat := fld b (o + 4 * edgeIx e) 4
def waveWindow (b : Bytes) (o : Nat) : Bool := bit (waveCtrl b o) 10
def waveExpect (b : Bytes) (o : Nat) : Nat := bits (waveCtrl b o) 13 11

/-- The edges a waveform enables, in the order D0 to S1. -/
def waveEdges (b : Bytes) (o : Nat) : List EdgeName :=
  [EdgeName.d0, .d1, .e0, .e1, .s0, .s1].filter (waveEn b o)

/-- The value an edge sets: bits 6 to 9 of ctrl for D0, D1, E0 and E1 (R144). -/
def waveValue (b : Bytes) (o : Nat) (e : EdgeName) : Bool := bit (waveCtrl b o) (6 + edgeIx e)

/-! ### Cumulus images -/

def cumInstrs (b : Bytes) : Nat := fld b 2 2
def cumTmpls (b : Bytes) : Nat := fld b 4 1
def cumBgs (b : Bytes) : Nat := fld b 5 1
def cumLimit (b : Bytes) : Nat := fld b 8 2
def cumInstr (b : Bytes) (a : Nat) : Nat := fld b (0x280 + 16 * a) 16

/-- The map byte of a channel (R122). -/
def cumMap (b : Bytes) (ch : Nat) : Nat := fld b (0x40 + ch) 1

/-- The offset of a template: the templates stand one after the other (R122, R129). -/
def tmplFrom (b : Bytes) : Nat → Nat → Nat
  | 0, o => o
  | n + 1, o => tmplFrom b n (o + 136 + 128 * fld b o 1)
def cumTmpl (b : Bytes) (t : Nat) : Nat := tmplFrom b t (0x280 + 16 * cumInstrs b)

/-! ### Aurora images -/

/-- The section of a channel. -/
def aurSec (b : Bytes) (n : Nat) : Nat := fld b (0x10 + 8 * n) 8
def aurHas (b : Bytes) (n : Nat) : Bool := bit (fld b 1 1) n
def aurSteps (b : Bytes) (n : Nat) : Nat := fld b (aurSec b n) 2
def aurSegs (b : Bytes) (n : Nat) : Nat := fld b (aurSec b n + 2) 2
def aurEntry (b : Bytes) (n : Nat) : Nat := fld b (aurSec b n + 4) 2
def aurStartSrc (b : Bytes) (n : Nat) : Nat := fld b (aurSec b n + 6) 1
def aurStartArg (b : Bytes) (n : Nat) : Nat := fld b (aurSec b n + 7) 1
def aurResident (b : Bytes) (n : Nat) : Nat := fld b (aurSec b n + 8) 4
def aurStream (b : Bytes) (n : Nat) : Nat := fld b (aurSec b n + 12) 1

/-- A field of a step, and of a segment entry. -/
def aurStep (b : Bytes) (n st off k : Nat) : Nat := fld b (aurSec b n + 0x40 + 48 * st + off) k
def aurSeg (b : Bytes) (n sg off k : Nat) : Nat := fld b (aurSec b n + 0x40 + 48 * aurSteps b n + 16 * sg + off) k

/-- Granules of one play of a step (R240). -/
def aurGranules (b : Bytes) (n st : Nat) : Nat :=
  if aurStep b n st 0 1 % 4 = 1 then aurStep b n st 0x10 4 + 1
  else aurSeg b n (aurStep b n st 0x10 4) 8 4 / 64 * (aurStep b n st 0x14 2 + 1)

/-- Whether a step plays a streamed segment. -/
def aurStreamed (b : Bytes) (n st : Nat) : Bool :=
  aurStep b n st 0 1 % 4 = 0 && bit (aurSeg b n (aurStep b n st 0x10 4) 12 1) 0

/-! ### Squall plans -/

/-- The bank section of a plan: sections stand in ascending bank order (R207). -/
def sqlSec (b : Bytes) (k : Nat) : Nat := 16 + 1104 * ((List.range k).filter (bit (fld b 1 1))).length
def sqlHas (b : Bytes) (k : Nat) : Bool := bit (fld b 1 1) k
def sqlVirga (b : Bytes) : Nat := fld b 4 4

/-- A field of the section of a bank. -/
def sqlField (b : Bytes) (k off n : Nat) : Nat := fld b (sqlSec b k + off) n

/-- The number of recorded pins of a bank. -/
def sqlPins (b : Bytes) (k : Nat) : List Nat := (List.range 32).filter (bit (sqlField b k 4 4))

/-- A field of a trigger state (R213). -/
def sqlState (b : Bytes) (k st off n : Nat) : Nat := sqlField b k (0x20 + 40 * st + off) n

/-- The entries of the Virga table of a plan (R193). -/
def virEntries (b : Bytes) : List Bytes :=
  if sqlVirga b = 0 then []
  else (List.range (fld b (sqlVirga b) 2)).map (fun i => (b.drop (sqlVirga b + 16 + 16 * i)).take 16)

/-- The Virga entry of a channel. -/
def virEntry (b : Bytes) (ch : Nat) : Option Bytes := (virEntries b).find? (fun e => fld e 0 2 = ch)

end Sys2Proof.Machine
end

