-- ==== Sys2Proof/Machine/Flags.lean ====
section
/-! DEFINITION. Flag computations: saturation, the event latches (R58), the Ledger context of an item (R173),
the site conditions (R180) with their reductions (R56), and the condition bits of R82. -/

namespace Sys2Proof.Machine

/-- Saturating addition in `w` bits. -/
def satAdd (w a b : Nat) : Nat := min (a + b) (2 ^ w - 1)

/-! ### Event latches (R58) -/

/-- Whether an event sets the latches of a slot (R58): from admission on, since one that occurs before its engines start may set
its latch in that ECLK or later. -/
def latching (x : Dom) : Bool := x.phase = .admitted ∨ x.phase = .running

/-- Set latch `n` of one site: it reads set from ECLK `c` on, and so sets in the ECLK before that. An event does not
hide an earlier one. -/
def setLatch (s : State) (d n c k : Nat) : State :=
  let y := getSite s d k
  let e := (n, c)
  setSite s d k { y with latches := if y.latches.contains e then y.latches else y.latches ++ [e] }

/-- Set latch `n` in every site of every domain (R58), in each from the ECLK that `from_` gives. -/
def setLatches (s : State) (n : Nat) (from_ : Dom → Nat) : State :=
  (List.range 16).foldl (fun s d =>
    if latching (getDom s d) then (List.range (getDom s d).sites).foldl (fun s k => setLatch s d n (from_ (getDom s d)) k) s
    else s) s

/-- The latches that the start of the engines keeps: those set in that ECLK or later, of which the clock counts from 0 (R58). -/
def keptLatches (y : Site) (c : Nat) : List (Nat × Nat) :=
  (y.latches.filter (fun e => c < e.2)).map (fun e => (e.1, e.2 - c))

/-- Whether a source is the start source of a channel's section (R231). -/
def startMatches (b : Bytes) (n : Nat) : AurSource → Bool
  | .mark c => aurStartSrc b n = 0 || (aurStartSrc b n = 1 && aurStartArg b n = c.toNat)
  | .event e => aurStartSrc b n = 2 && aurStartArg b n = e

/-- A source occurs at a claimed channel with reference instant `tr` (R237, R244): it becomes the channel's start where it is the first start
source since the channel was armed, an ignored occurrence where it comes too early or too late, and a request
on its way in every case. -/
def occur (s : State) (n : Nat) (src : AurSource) (tr : Int) : State :=
  let a := getAurora s n
  match a.dom, a.image with
  | some _, some h =>
    let starts := startMatches (getImage s h.toNat).data n src
    let s := if starts ∧ (¬ a.armed ∨ a.due.isSome) then regBump s (Reg.aurReq n) 16 8 1 else s
    setAurora s n { a with
      due := if starts ∧ a.armed ∧ a.due = none then some (src, tr) else a.due
      requests := a.requests ++ [(src, tr)] }
  | _, _ => s

/-- What channel `c` sees of event `n`, whose latches read set from `from_` (R237, R244). -/
def eventSeen (n : Nat) (from_ : Dom → Nat) (s : State) (c : Nat) : State := match (getAurora s c).dom with
  | some d => occur s c (.event n) (clockTime (from_ (getDom s d)) - Config.eclk)
  | none => s

/-- Every claimed Squall keeps when event `n` reads set (R214 sources 5 and 6). -/
def noteArrivals (s : State) (n : Nat) (from_ : Dom → Nat) : State :=
  let see (q : Squall) : Squall := match q.dom with
    | some d => { q with arrivals := q.arrivals ++ [.event n (from_ (getDom s d))] }
    | none => q
  { s with squalls := tmap Squall.init (fun _ => see) s.squalls }

/-- An event sets its latches, which read set in each domain from the ECLK that `from_` gives (R58); every claimed Squall
(`noteArrivals`) and every claimed Aurora channel (`eventSeen`) sees it. -/
def setEventAt (s : State) (n : Nat) (from_ : Dom → Nat) : State :=
  (List.range 8).foldl (eventSeen n from_) (noteArrivals (setLatches s n from_) n from_)

/-- An event sets its latches `delay` − 1 ECLK from now. -/
def setEvent (s : State) (n delay : Nat) : State := setEventAt s n (fun x => clock x + delay)

/-- The ECLK counts from which latch `n` of a site reads set, for each event that has set it since it was cleared. -/
def latchTimes (y : Site) (n : Nat) : List Nat := (y.latches.filter (fun e => e.1 = n)).map Prod.snd

/-- Whether latch `n` of a site is set in the present ECLK of its domain. -/
def latchSet (x : Dom) (y : Site) (n : Nat) : Bool := (latchTimes y n).any (fun t => t ≤ clock x)

/-- The ECLK count from which latch `n` first reads set. -/
def latchFirst (y : Site) (n : Nat) : Nat := ((latchTimes y n).min?).getD 0

/-- Clear latch `n` of a site in ECLK `c`: an event that sets it later is kept. -/
def clearLatch (y : Site) (c n : Nat) : Site :=
  { y with latches := y.latches.filter (fun e => ¬ (e.1 = n ∧ e.2 ≤ c)) }

/-! ### Sites -/

/-- Whether a site has left the program: it retired `HALT` or took an event. -/
def siteGone (y : Site) : Bool := y.retired.isSome || y.event.isSome

/-- The sites of a domain that have neither retired `HALT` nor stopped (R56, R181). -/
def activeSites (s : State) (d : Nat) : List Nat :=
  (List.range (getDom s d).sites).filter (fun k => !siteGone (getSite s d k))

/-- Whether every pin of a slot's job has parked: those of a job that never started stand parked. -/
def allParked (s : State) (d : Nat) : Bool :=
  let x := getDom s d
  !x.engines || x.halted || (List.range x.sites).all (fun k => (getSite s d k).parked)

/-- Whether a pin of a played vector played its queue, so that its compares count (R115, R117). -/
def plays (p : Played) : Bool := p.pins.any (fun q => !q.starve && !q.parked)

/-- Whether a vector with such a pin has not yet been judged. -/
def judging (x : Dom) : Bool := x.flight.any plays

/-- The first vector not yet judged, of those that are. -/
def judgedTo (x : Dom) : Nat := ((x.flight.find? plays).map Played.v).getD x.next

/-- The Ledger context of (site, item) (R173). -/
def ctxIx (p : Bytes) (k item : Nat) : Nat := jobBase p + k * 2 ^ jobItemBits p + item

/-- The item current in a site. -/
def siteItem (s : State) (d k : Nat) : Nat := (getFlow s d (flowIx (getDom s d).payload k)).item

/-- A site condition 0x00 to 0x5F (R180); reserved numbers are false. -/
def siteCond (s : State) (d k n : Nat) : Bool :=
  let y := getSite s d k
  let c := getCtx s (ctxIx (getDom s d).payload k (siteItem s d k))
  if n = 0 then c.status.getLsbD 1
  else if n = 1 then c.status.getLsbD 0
  else if n = 2 then !y.acc.isEmpty
  else if n = 3 then decide (0 < y.failCount)
  else if 0x10 ≤ n ∧ n < 0x30 then decide (2 ^ (n - 0x10) ≤ c.failCount)
  else if 0x30 ≤ n ∧ n < 0x40 then decide (4 ^ (n - 0x30) ≤ y.failCount)
  else if 0x40 ≤ n ∧ n < 0x50 then c.scratch.getLsbD (n - 0x40)
  else false

/-- A condition of R55 for one site. PASS_CLEAN (0x61) belongs to a `MATCH` and is judged there. LAST_ITER reads false where
no loop level is open: a DESIGN CHOICE, since the manual gives it a meaning only for the innermost open loop. -/
def condOf (s : State) (d k n : Nat) : Bool :=
  let y := getSite s d k
  if n < 0x60 then siteCond s d k n
  else if n = 0x60 then true
  else if n = 0x62 then y.matchTo
  else if n = 0x63 then y.waitTo
  else if n = 0x64 then
    match (getFlow s d (flowIx (getDom s d).payload k)).loops with
    | l :: _ => decide (l.count = 1)
    | [] => false
  else false

/-- A condition under its reduction (R56, R181). -/
def reduced (s : State) (d k n : Nat) : Reduce → Bool
  | .own => condOf s d k n
  | .any => (activeSites s d).any (fun k => condOf s d k n)
  | .every => (activeSites s d).all (fun k => condOf s d k n)

/-- Sites of a job with at least one unmasked fail (R30, R167). -/
def failingSites (s : State) (d : Nat) : Nat :=
  ((List.range (getDom s d).sites).filter (fun k => decide (0 < (getSite s d k).failCount))).length

/-- PASS or FAIL of a job that ran to its end, any other status as decided (R31). -/
def finalStatus (s : State) (d : Nat) (e : Ending) : Nat :=
  if e.status = 0 ∧ 0 < failingSites s d then 1 else e.status

end Sys2Proof.Machine
end

