-- ==== Sys2Proof/Machine/Drift.lean ====
section
/-! DEFINITION. Drift queues (chapter 12): packets committed, lines popped, queue resets, credits, and the
FAIL_LOG frames that carry fail records. -/

namespace Sys2Proof.Machine

/-- The bytes of a packet as its lines carry them: length slot, header and payload (R280). -/
def packetBytes (q : Nat) (p : Packet) : Bytes :=
  le 4 (16 + p.payload.length) ++ le 1 p.ty ++ le 1 q ++ le 2 p.flags.toNat ++ le 4 p.payload.length ++
    le 4 p.seq.toNat ++ le 4 p.tag.toNat ++ p.payload

/-- One line of a packet, padded with zeros (R280). -/
def lineBytes (q : Nat) (p : Packet) : Bytes :=
  let l := ((packetBytes q p).drop (32 * p.popped)).take 32
  l ++ List.replicate (32 - l.length) 0

/-- The tag of a packet's next line: [5:0] valid bytes, [6] start of packet (R280). -/
def lineTagOf (p : Packet) : Nat :=
  min 32 (20 + p.payload.length - 32 * p.popped) + (if p.popped = 0 then 64 else 0)

/-! ### The frames that wait on an inbound queue -/

/-- The frames that wait on an inbound queue, oldest first. -/
def waitingFrames (s : State) (q : Nat) : List Frame :=
  if q = 0 then s.held0 else if q = 1 then s.held1 else if q = 3 then s.held3
  else (s.inbox.filter (fun e => inQueue e.frame = q)).map Arrived.frame

/-- An inbound queue with the frames that wait on it replaced by the last ones of them: the first `n` leave. -/
def dropFrames (s : State) (q n : Nat) : State :=
  if q = 0 then { s with held0 := s.held0.drop n }
  else if q = 1 then { s with held1 := s.held1.drop n }
  else if q = 3 then { s with held3 := s.held3.drop n, written := 0 }
  else { s with inbox := s.inbox.filter (fun e => inQueue e.frame ≠ q) ++ (s.inbox.filter (fun e => inQueue e.frame = q)).drop n }

/-- The packet of a frame as it stands in its queue (R280). -/
def framePacket (f : Frame) : Packet :=
  { ty := f.ty, flags := f.flags, seq := f.seq, tag := f.tag, payload := f.payload, popped := 0, order := 0 }

/-- The lines of an inbound queue that are freed grow the grant (R287). -/
def grantLines (s : State) (q n : Nat) : State :=
  if q < 16 then setQueue s q { getQueue s q with grant := ((getQueue s q).grant + n) % 65536 } else s

/-- The packet of which the next line of a queue is popped. The JTAG reader takes the frames of an inbound queue as they came
(R281). -/
def bringHead (s : State) (q : Nat) : State :=
  let x := getQueue s q
  if x.packets = [] ∧ x.jtag then
    match waitingFrames s q with
    | f :: _ => setQueue (dropFrames s q 1) q { x with packets := [framePacket f] }
    | [] => s
  else s

/-- Pop one line of a queue, or underrun (R281). While Nimbus is the consumer it takes the lines of a waiting frame itself. -/
def popLine (s : State) (q : Nat) : State :=
  let s := bringHead s q
  let x := getQueue s q
  match x.packets with
  | [] => if waitingFrames s q = [] then setQueue s q { x with underrun := true, popUnder := true } else s
  | p :: r =>
    let p' := { p with popped := p.popped + 1 }
    grantLines (setQueue s q { x with
      line := lineBytes q p, lineTag := lineTagOf p, popUnder := false,
      packets := if packetLines p' = 0 then r else p' :: r }) q 1

/-- Pop `n` lines. -/
def popLines : Nat → State → Nat → State
  | 0, s, _ => s
  | n + 1, s, q => popLines n (popLine s q) q

/-- The rest of a packet that JTAG began to pop is dropped as Nimbus or a transmitter becomes the consumer again. -/
def jtagLeaves (s : State) (q : Nat) : State :=
  let x := getQueue s q
  if q < 16 then grantLines (setQueue s q { x with packets := [] }) q (usedLines x)
  else match x.packets with
    | k :: r => if k.popped = 0 then s else setQueue s q { x with packets := r }
    | [] => s

/-- The members of a list without repeats, each at its last place. -/
def dedup : List Word → List Word
  | [] => []
  | a :: r => if r.contains a then dedup r else a :: dedup r

/-- The job tags a lost packet names (R286): that of a job's frame or of a JOB_SUBMIT, and those a GAP_MARK reports. -/
def lostTags (q : Nat) (p : Packet) : List Word :=
  if p.ty = 0x48 then [p.tag, BitVec.ofNat 32 (fld p.payload 4 4)]
  else if q = 0 ∧ p.ty = 0x01 then [p.tag] else [jobOf p.ty p.tag]

/-- Reset a queue (R286): every line is lost, the jobs named carry RESULTS_LOST, an inbound queue's credits
return, and an EVENT with source `src` lists the tags. -/
def resetQueue (s : State) (q src : Nat) : State :=
  let x := getQueue s q
  let held := waitingFrames s q
  let lost := x.packets ++ held.map framePacket
  let tags := dedup (((lost.map (lostTags q)).flatten ++ (x.writing.map Prod.snd).toList).filter (· ≠ 0))
  let s := grantLines (setQueue s q { x with packets := [], writing := none }) q
    (usedLines x + (held.map (fun f => frameLines f.length)).sum)
  let s := dropFrames s q held.length
  let s := regBump s (Reg.dftCorr q) 16 16 1
  let s := tags.foldl (fun s t => flagTag s t 1) s
  let listed := tags.take 10
  raiseEvent s src (le 1 q ++ le 1 listed.length ++ le 1 (b2n (decide (10 < tags.length))) ++ le 1 0 ++
    (listed.map (fun t => le 4 t.toNat)).flatten)

/-- Largest queue, in lines, that keeps two copies of its pointers: 256 KiB (R286). -/
def smallLines : Nat := 8192

/-- What an access of a queue's store meets (R286): 1 a pointer mismatch in a queue of 256 KiB or less, 2 a
corrected word and 3 an uncorrectable word in the on-die part of a larger one. -/
def queueDamage (s : State) (q dmg : Nat) : State :=
  let n := if q < 56 then (getQueue s q).lines else 0
  if dmg = 1 ∧ 0 < n ∧ n ≤ smallLines then resetQueue s q 0x0A01
  else if dmg = 2 ∧ smallLines < n then regBump s (Reg.dftCorr q) 0 16 1
  else if dmg = 3 ∧ smallLines < n then resetQueue s q 0x0A03
  else s

/-! ### Producers (R277, R280) -/

/-- Whether a type with a payload of p bytes leaves on an outbound queue (R277, R298). -/
def outboundFits (q ty p : Nat) : Bool :=
  let results : Bool := 19 ≤ q ∧ q ≤ 34
  let captures : Bool := 35 ≤ q ∧ q ≤ 42
  let container : Bool := 16 ≤ p ∧ p ≤ 65536
  if ty = 0x41 then q = 16 && p = 64
  else if ty = 0x42 ∨ ty = 0x43 then results && container
  else if ty = 0x44 then captures && container
  else if ty = 0x45 then q = 18 && decide (p ≤ 65536)
  else if ty = 0x46 then q = 16 && decide (16 ≤ p ∧ p ≤ 64)
  else if ty = 0x47 then q = 16 && decide (68 ≤ p ∧ p ≤ 65536 ∧ p % 4 = 0)
  else if ty = 0x48 then decide (16 ≤ q ∧ q ≤ 42 ∨ 48 ≤ q ∧ q ≤ 50) && p = 8
  else if ty = 0x49 then q = 17 && container
  else if ty = 0x4A then q = 16 && decide (p ≤ 65536)
  else if ty = 0x80 then decide (q = 16 ∨ q = 48 ∨ q = 49) && p = 48
  else if ty = 0x81 then decide (q = 48 ∨ q = 49) && p = 24
  else if ty = 0x82 then q = 50 && p = 32
  else if ty = 0x83 then q = 50 && p = 16
  else false

/-- Lines of a packet of which `n` bytes after the length slot are written (R280). -/
def writtenLines (n : Nat) : Nat := (4 + n + 31) / 32

/-- A producer has written `n` bytes of its packet (R280). A packet that needs a line of a full queue is dropped (R282). -/
def writePart (s : State) (q n : Nat) (job : Word) : State :=
  let x := { getQueue s q with writing := none }
  if x.lines = 0 then s
  else if hasRoom x (writtenLines n) then setQueue s q { x with writing := some (writtenLines n, job) }
  else dropPacket (setQueue s q x) q job

/-- The lines of a packet being written become free. -/
def releaseWriting (s : State) (q : Nat) : State :=
  if (getQueue s q).writing.isSome then setQueue s q { getQueue s q with writing := none } else s

/-- PACKET_COMMIT: a producer writes its packet, commits it by its length slot, or abandons it (R280, R282, R283). A packet
that R277 does not give the queue is no packet of a producer. The frames of an inbound queue are committed as they arrive,
and only the damage of such a commit stands here. Where the access finds the two copies of the pointers of a queue of 256 KiB
or less apart, the queue is reset, and the packet's lines are lost with the others (R286); those of an inbound frame were used
as it arrived (R287). -/
def execPacketCommit (q : Fin 64) (stage : Writing) (ty : Nat) (flags : BitVec 16) (tag : Word) (payload : Bytes) (mismatch : Bool)
    (s : State) : Host.Outcome State Fault Refusal :=
  let x := getQueue s q
  if mismatch ∧ 0 < x.lines ∧ x.lines ≤ smallLines then
    let p : Packet := { ty := ty, flags := flags, seq := 0, tag := tag, payload := payload, popped := 0, order := s.orders }
    let used := if q.val < 16 then x.used + packetLines p else x.used
    .next (resetQueue (setQueue s q { x with packets := x.packets ++ [p], used := used % 65536 }) q 0x0A01)
  else if ¬ outboundFits q ty payload.length then .next s
  else match stage with
    | .part n => .next (writePart s q (min n (16 + payload.length)) (jobOf ty tag))
    | .whole => .next (commitFrame (releaseWriting s q) q ty flags tag payload)
    | .abandon => .next (releaseWriting s q)

/-- LINE_POP: the consumer pops one line (R281); `damage` is what the access met (R286). -/
def execLinePop (q : Fin 64) (damage : Option Nat) (s : State) : Host.Outcome State Fault Refusal :=
  match damage with
  | some m => .next (if m = 2 then popLine (queueDamage s q m) q else queueDamage s q m)
  | none => .next (popLine s q)

/-- The DFT_POP action: pop a line of a queue whose jtag bit is 1 into DFT_LINE_k (R300). The queue popped
stands in the stored DFT_POP, and the line in the stored DFT_LINE_k. -/
def popToLines (s : State) (q : Nat) : State :=
  if (getQueue s q).jtag then
    let s := popLine s q
    let x := getQueue s q
    let s := regSet s Reg.dftPop (BitVec.ofNat 32 (x.lineTag * 64 + b2n x.popUnder * 8192))
    (List.range 8).foldl (fun s k => regSet s (Reg.dftLine k) (BitVec.ofNat 32 (fld x.line (4 * k) 4))) s
  else s

/-- DFT_POP: a write to DFT_POP (R300). -/
def execDftPop (value : Word) (s : State) : Host.Outcome State Fault Refusal :=
  .next (popToLines s (value.toNat % 64))

/-! ### Result containers (R295) -/

/-- The 16-byte head of a RESULT, FAIL_LOG or CAPTURE payload. -/
def resultHead (content d bank count first offset : Nat) : Bytes :=
  le 1 content ++ le 1 d ++ le 1 bank ++ le 1 0 ++ le 4 count ++ le 4 first ++ le 4 offset

/-- Commit the waiting fail records of a slot as FAIL_LOG frames of at most 64 records on queue 19 + d
(R140, R183, R295, R296). A shadow produces none (R439). `fuel` bounds the number of frames. -/
def flushRecords : Nat → State → Nat → Bool → State
  | 0, s, _, _ => s
  | fuel + 1, s, d, all =>
    let x := getDom s d
    if x.records.length = 0 ∨ (x.records.length < 64 ∧ ¬ all) then s
    else
      let out := x.records.take 64
      let s := setDom s d { x with records := x.records.drop 64, recordsAt := s.now }
      let s := if shadow s then s
        else commitFrame s (19 + d) 0x43 0 x.tag (resultHead 3 d 0xFF out.length 0 0 ++ (out.map Prod.snd).flatten)
      flushRecords fuel s d all

/-- Records a buffer holds (R140, R183). -/
def recordBuffer : Nat := 1024

/-- Add a fail record to buffer `buf` of its slot: that of a Cumulus (R140), or 8 for the vector fail records (R183). A record
that finds its buffer full is dropped on the queue, counted in its GAP_MARK, and the job carries RESULTS_LOST. -/
def addRecord (s : State) (d buf : Nat) (r : Bytes) : State :=
  let x := getDom s d
  if recordBuffer ≤ (x.records.filter (fun e => e.1 = buf)).length then dropPacket s (19 + d) x.tag
  else setDom s d { x with
    records := x.records ++ [(buf, r)], recordsAt := if x.records = [] then s.now else x.recordsAt }

/-- FAIL_LOG_FRAME_COMMIT: 64 records, 1 µs after the first record, or the job's end (R296). -/
def execFailLogFrameCommit (d : Fin 16) (s : State) : Host.Outcome State Fault Refusal :=
  let x := getDom s d
  if x.halted then .next s
  else if s.now ≥ x.recordsAt + us 1 ∨ x.phase = .ending then .next (flushRecords x.records.length s d true)
  else .next (flushRecords x.records.length s d false)

/-! ### The DRAM part of a frozen queue (R400) -/

/-- The packets of a queue that stand in its on-die part, and the others. -/
def splitDie : Nat → List Packet → List Packet × List Packet
  | _, [] => ([], [])
  | used, p :: r =>
    if used + packetLines p ≤ dieLines then ((p :: (splitDie (used + packetLines p) r).1), (splitDie (used + packetLines p) r).2)
    else ([], p :: r)

/-- Packets in the DRAM part of a queue are lost while the DRAM is frozen; each counts in a GAP_MARK (R400). -/
def loseDramPart (s : State) (q : Nat) : State :=
  let x := getQueue s q
  if x.dram ∧ s.dram.state = .frozen then
    let c := splitDie 0 x.packets
    c.2.foldl (fun s p => dropPacket s q (jobOf p.ty p.tag)) (setQueue s q { x with packets := c.1 })
  else s

/-- The DRAM parts of every queue are lost as the DRAM freezes once FAULT_NOTICE has gone; before it the purge does so. -/
def loseDramParts (s : State) : State :=
  if s.anvil.window then s else (List.range 27).foldl (fun s i => loseDramPart s (16 + i)) s

end Sys2Proof.Machine
end

