-- ==== Sys2Proof/Machine/ImageChecks.lean ====
section
/-! DEFINITION. The checks a LOAD close makes on each kind of image: R41, R100 with R101, R123, R145 with
R116 and R152, R234, and R209 with R194. A check is an image byte offset with whether the field there is
right; a refused image reports the lowest offset at fault (R291). -/

namespace Sys2Proof.Machine

/-- Checks made for every index below `n`. -/
def forAll (n : Nat) (f : Nat → List Check) : List Check := ((List.range n).map f).flatten

/-- A byte of an image is zero in the bits outside `mask`. -/
def byteIn (b : Bytes) (off mask : Nat) : Check := (off, fld b off 1 &&& (255 - mask) = 0)

/-! ### Sequence programs (R41) -/

/-- Whether a condition number is defined (R55, R180). -/
def condDefined (c : Nat) : Bool := c ≤ 3 ∨ (0x10 ≤ c ∧ c ≤ 0x4F) ∨ (0x60 ≤ c ∧ c ≤ 0x64)

/-- The ecount range of an opcode and the mask of its operand bits (R44). -/
def opForm (op : Nat) : Option (Nat × Nat × Nat) :=
  if op = 0x00 then some (0, 0, 0)
  else if op = 0x01 then some (1, 65535, 0)
  else if op = 0x02 then some (1, 16, 0xFFFFFFFF)
  else if op = 0x04 then some (0, 65535, 0xFFFFFFFF)
  else if op = 0x05 ∨ op = 0x09 ∨ op = 0x3F then some (0, 65535, 0)
  else if op = 0x08 then some (0, 65535, 0xFFFF)
  else if op = 0x0A then some (0, 65535, 0xFFFFF)
  else if op = 0x0B then some (0, 65535, 0x3FF0FFFFF)
  else if op = 0x0C then some (0, 65535, 0x3F0FFFFF)
  else if op = 0x10 then some (1, 64, 0xFFFFFFFF7F0FFFFF)
  else if op = 0x11 then some (1, 16, 0xFFFFFFFF1F0FFFFF)
  else if op = 0x12 then some (1, 16, 0)
  else if op = 0x18 ∨ op = 0x19 then some (0, 65535, 0xFF)
  else if op = 0x1A then some (0, 65535, 0xFFFF0007)
  else if op = 0x1C then some (0, 65535, 0xFF0FFFFFFF)
  else if op = 0x1D then some (0, 65535, 0x7FF)
  else if op = 0x20 then some (0, 0, 0xFFFFFFFF00FFFFFF)
  else none

/-- The checks of R41 on the word at byte `o`. -/
def wordChecks (b : Bytes) (wc mc o : Nat) : List Check :=
  let w := fld b o 16
  let op := wordOpcode w
  match opForm op with
  | none => ([(o + 15, false)] : List Check)
  | some (lo, hi, mask) =>
    let ec := wordEcount w
    let jumps := op = 0x0A ∨ op = 0x0B ∨ op = 0x0C ∨ op = 0x10 ∨ op = 0x11
    ([(o + 15, wordSrc w ≠ 3), (o + 14, wordSym w = 0 ∨ wordSrc w = 2), (o + 14, bits w 115 112 = 0),
      (o + 12, lo ≤ ec ∧ ec ≤ hi), (o, (op ≠ 0x08 ∧ ¬ jumps) ∨ bits w 15 0 < wc), (o + 2, ¬ jumps ∨ bits w 19 16 ≤ 8),
      (o, op ≠ 0x19 ∨ bits w 7 0 < mc), (o, op ≠ 0x1A ∨ bits w 1 0 ≠ 0),
      (o + 2, op ≠ 0x1A ∨ ¬ bit w 2 ∨ bits w 31 16 = 0), (o + 1, op ≠ 0x1D ∨ (1 ≤ bits w 10 8 ∧ bits w 10 8 ≤ 3)),
      (o, op ≠ 0x20 ∨ bits w 7 0 ≠ 0), (o + 3, op ≠ 0x0B ∨ (condDefined (bits w 30 24) ∧ bits w 30 24 ≠ 0x61)),
      (o + 3, op ≠ 0x10 ∨ condDefined (bits w 30 24)), (o + 3, (op ≠ 0x0C ∧ op ≠ 0x11) ∨ bits w 28 24 < 24),
      (o + 4, op ≠ 0x0B ∨ bits w 33 32 ≠ 3),
      (o + 12, op ≠ 0x0B ∨ 0x60 ≤ bits w 30 24 ∨ (1 ≤ ec ∧ ec ≤ 16))] : List Check)
    ++ forAll 12 (fun i => ([byteIn b (o + i) (mask / 256 ^ i % 256)] : List Check))

/-- R41. -/
def progChecks (b : Bytes) : List Check :=
  let wc := progWords b
  let mc := progMasks b
  let head : List Check := ([(0, fld b 0 1 = 1), rsv b 1 1, (2, 1 ≤ wc ∧ wc ≤ 256), (4, decide (mc ≤ 256)),
    (6, decide (progEntry b < wc)), rsv b 8 8, lenIs b (16 + 16 * wc + 32 * mc)] : List Check)
  head ++ (if wc ≤ 256 then forAll wc (fun i => wordChecks b wc mc (16 + 16 * i)) else [])

/-! ### Symbol streams (R100, R101) -/

/-- Check the blocks of a stream from byte `a` of the image: the checks, and the symbols they decode to. -/
def blockChecks (dict : Nat) : Nat → Bytes → Nat → List Check × Nat
  | 0, _, _ => ([], 0)
  | fuel + 1, b, a =>
    if b = [] then ([], 0)
    else
      let h := fld b 0 1
      let n := h % 64
      let sz := (blockSize b).1
      let here : List Check :=
        if b.length < sz then ([(a, false)] : List Check)
        else if h / 64 = 0 then ([(a + sz - 1, n % 2 = 1 ∨ fld b (sz - 1) 1 < 16)] : List Check)
        else if h / 64 = 1 then []
        else forAll (sz - 1) (fun i => ([(a + 1 + i, decide (fld b (1 + i) 1 < dict))] : List Check))
      let rest := blockChecks dict fuel (b.drop sz) (a + sz)
      (here ++ rest.1, (blockSize b).2 + rest.2)

/-- R100. -/
def streamChecks (b : Bytes) : List Check :=
  let n := fld b 2 2
  let entry (i : Nat) : List Check :=
    let o := 16 + 32 * i
    let de := fld b (o + 2) 2
    let sb := fld b (o + 4) 4
    let so := fld b (o + 8) 8
    let dof := fld b (o + 16) 8
    let blocks := blockChecks de sb ((b.drop so).take sb) so
    ([(o, fld b o 2 ≤ 255 ∧ (i = 0 ∨ fld b (o - 32) 2 < fld b o 2)), (o + 2, decide (de ≤ 256)),
      (o + 8, so % 256 = 0 ∧ so + sb ≤ b.length),
      (o + 16, dof % 8 = 0 ∧ (de ≠ 0 ∨ dof = 0) ∧ dof + 8 * de ≤ b.length), rsv b (o + 30) 2,
      (o + 24, blocks.2 = fld b (o + 24) 6)] : List Check) ++ blocks.1
  ([(0, fld b 0 1 = 1), rsv b 1 1, (2, 1 ≤ n ∧ n ≤ 256), rsv b 4 12,
    (min b.length (16 + 32 * n), decide (16 + 32 * n ≤ b.length))] : List Check) ++ (if n ≤ 256 then forAll n entry else [])

/-! ### Timing images (R145) -/

/-- Whether two edge times are separated (R152). -/
def apart (x y : Nat) : Bool := 512 ≤ x - y ∨ 512 ≤ y - x

/-- Two waveforms of one set at vector distance `m` keep the separation rule; at distance 0 the pair is one
waveform with itself. -/
def wavesApart (b : Bytes) (p o1 o2 m : Nat) : Bool :=
  (waveEdges b o1).all (fun e => (waveEdges b o2).all (fun f =>
    edgeKind e ≠ edgeKind f ∨ (m = 0 ∧ e = f) ∨ apart (waveTime b o1 e) (m * p + waveTime b o2 f)))

/-- The checks of one waveform entry (R144, R145). -/
def waveChecks (b : Bytes) (p : Nat) (fast : Bool) (o : Nat) : List Check :=
  let en := waveEn b o
  let ex := waveExpect b o
  let win := waveWindow b o
  forAll 6 (fun i =>
    let t := fld b (o + 4 * i) 4
    ([(o + 4 * i, if bit (waveCtrl b o) i then t < 4 * p else t = 0)] : List Check)) ++
  ([(o + 0x18, ex ≤ 4 ∧ (ex = 0 ∨ en .s0 ∨ en .s1)), (o + 0x18, bits (waveCtrl b o) 15 14 = 0),
    (o + 0x18, ¬ win ∨ (en .s0 ∧ en .s1)), (o + 0x14, ¬ win ∨ waveTime b o .s0 < waveTime b o .s1), rsv b (o + 0x1A) 6,
    (o + 0x18, ¬ fast ∨ (¬ en .d1 ∧ ¬ en .e0 ∧ ¬ en .e1 ∧ ¬ en .s1 ∧ ¬ win))] : List Check)

/-- The checks of one set record on one channel: each waveform, equal drive and strobe offsets in Fast mode,
and the separation of every pair at distances 0 to 3 (R145). -/
def setChecks (b : Bytes) (p : Nat) (fast : Bool) (o : Nat) : List Check :=
  forAll 16 (fun w => waveChecks b p fast (o + 32 * w)) ++
  forAll 16 (fun w => forAll 16 (fun x =>
    let o1 := o + 32 * w
    let o2 := o + 32 * x
    ([(o2, ¬ fast ∨ ¬ (waveEn b o1 .d0 ∧ waveEn b o2 .d0) ∨ waveTime b o1 .d0 = waveTime b o2 .d0),
      (o2 + 0x10, ¬ fast ∨ ¬ (waveEn b o1 .s0 ∧ waveEn b o2 .s0) ∨ waveTime b o1 .s0 = waveTime b o2 .s0),
      (o1, w ≠ x ∨ wavesApart b p o1 o1 0), (o1, wavesApart b p o1 o2 1), (o1, wavesApart b p o1 o2 2),
      (o1, wavesApart b p o1 o2 3)] : List Check)))

/-- The checks of a starve entry (R116). -/
def starveChecks (b : Bytes) (ch : Nat) : List Check :=
  let o := 0x120 + 4 * ch
  let v := fld b o 4
  ([(o, v % 4 ≠ 3 ∧ bits v 3 2 = 0), (o, v % 4 = 2 ∨ bits v 7 4 = 0),
    (o + 1, if v % 4 = 2 then (timSetIx b (bits v 15 8)).isSome else bits v 15 8 = 0), rsv b (o + 2) 2] : List Check)

/-- R145. -/
def timingChecks (b : Bytes) : List Check :=
  let nc := timChans b
  let ns := timSets b
  let p := timPeriod b
  let fast := timFast b
  let head : List Check := ([(0, fld b 0 1 = 1), byteIn b 1 1, (2, 1 ≤ nc ∧ nc ≤ 256), (4, 1 ≤ ns ∧ ns ≤ 256),
    rsv b 6 2, (8, 512 ≤ p ∧ p ≤ 819200000000), rsv b 13 3, (1, fast = decide (p < 2048)), rsv b 0x114 12,
    lenIs b (0x720 + 512 * nc * ns)] : List Check)
  let ids := forAll 256 (fun i =>
    ([(0x10 + i, if i < ns then i = 0 ∨ fld b (0x0F + i) 1 < fld b (0x10 + i) 1 else fld b (0x10 + i) 1 = 0)] : List Check))
  let chs := forAll 256 (fun c =>
    let o := 0x520 + 2 * c
    ([(o, if c < nc then fld b o 2 ≤ 255 ∧ (c = 0 ∨ fld b (o - 2) 2 < fld b o 2) else fld b o 2 = 0)] : List Check))
  let sets := if nc ≤ 256 ∧ ns ≤ 256 ∧ b.length = 0x720 + 512 * nc * ns then
      forAll (nc * ns) (fun i => setChecks b p fast (0x720 + 512 * i))
    else []
  head ++ ids ++ forAll 256 (starveChecks b) ++ chs ++ sets

/-! ### Cumulus images (R123) -/

/-- The checks of one Cumulus instruction (R123, R132, R133). -/
def cumInstrChecks (b : Bytes) (i : Nat) : List Check :=
  let o := 0x280 + 16 * i
  let w := cumInstr b i
  let nx := bits w 30 28
  ([(o, decide (bits w 5 0 < cumTmpls b)), (o, bits w 9 6 ≠ 15), (o + 1, bits w 13 10 ≠ 15), (o + 1, bits w 17 14 ≠ 15),
    (o + 2, decide (bits w 21 18 < max (cumBgs b) 1)), (o + 2, decide (bits w 24 22 ≤ 4)),
    (o + 3, ¬ bit w 26 ∨ bit (fld b 6 1) 0), (o + 3, decide (nx ≤ 5)),
    (o + 3, (nx ≠ 2 ∧ nx ≠ 3) ∨ bits w 32 31 ≠ 3),
    (o + 4, (nx ≠ 1 ∧ nx ≠ 2 ∧ nx ≠ 3) ∨ bits w 44 33 < cumInstrs b), (o + 5, bits w 63 45 = 0)] : List Check)

/-- The checks of one template (R129). -/
def tmplChecks (b : Bytes) (t : Nat) : List Check :=
  let o := cumTmpl b t
  let l := fld b o 1
  ([(o, 1 ≤ l ∧ l ≤ 64), rsv b (o + 1) 7] : List Check) ++
  forAll (64 * l) (fun c =>
    let p := o + 136 + 2 * c
    let v := fld b p 2
    let k := v % 4
    let ix := bits v 8 2
    ([(p, if k = 0 then ix = 0 else if k = 1 then ix ≤ 95 else ix ≤ 63), (p + 1, bits v 11 9 = 0),
      (p + 1, k = 0 ∨ bits v 15 12 = 0)] : List Check))

/-- R123. -/
def cumulusChecks (b : Bytes) : List Check :=
  let ic := cumInstrs b
  let tc := cumTmpls b
  let gen (g : Nat) : List Check :=
    let o := 0x10 + 16 * g
    let w := fld b o 1
    ([(o, 1 ≤ w ∧ w ≤ 32), rsv b (o + 1) 3, (o + 4, fld b (o + 4) 4 < 2 ^ w ∧ fld b (o + 4) 4 ≤ fld b (o + 8) 4),
      (o + 8, decide (fld b (o + 8) 4 < 2 ^ w)), (o + 12, decide (fld b (o + 12) 4 < 2 ^ w))] : List Check)
  ([(0, fld b 0 1 = 1), rsv b 1 1, (2, 1 ≤ ic ∧ ic ≤ 4096), (4, 1 ≤ tc ∧ tc ≤ 64), (5, decide (cumBgs b ≤ 16)),
    byteIn b 6 1, rsv b 7 1, rsv b 10 6, lenIs b (cumTmpl b tc)] : List Check) ++
  forAll 3 gen ++ forAll 256 (fun ch => ([byteIn b (0x40 + ch) 0x7F] : List Check)) ++
  forAll 16 (fun i => ([(0x140 + 8 * i, i < cumBgs b ∨ fld b (0x140 + 8 * i) 8 = 0)] : List Check)) ++
  forAll 96 (fun k =>
    let o := 0x1C0 + 2 * k
    let v := fld b o 2
    ([(o, bits v 6 0 ≤ 95 ∧ bits v 13 7 ≤ 95), (o, bit (fld b 6 1) 0 ∨ v = 0)] : List Check)) ++
  (if ic ≤ 4096 ∧ tc ≤ 64 ∧ b.length = cumTmpl b tc then
    forAll ic (cumInstrChecks b) ++ forAll tc (tmplChecks b) else [])

/-! ### Aurora images (R234) -/

/-- Follow the steps of one call level from a step, `sub` following a call one level deeper: none where the
call depth or a return breaks R234, otherwise whether the level returns. -/
def callLevel (b : Bytes) (n : Nat) (sub : Nat → Option Bool) : Nat → Nat → Option Bool
  | 0, _ => some false
  | fuel + 1, st =>
    let m := aurStep b n st 1 1
    if m = 0 then callLevel b n sub fuel (aurStep b n st 4 2)
    else if m = 1 then
      match sub (aurStep b n st 6 2) with
      | none => none
      | some true => callLevel b n sub fuel (aurStep b n st 4 2)
      | some false => some false
    else if m = 2 then some true
    else some false

/-- Whether every path from a step with an empty stack keeps the call rules of R234. -/
def callsOk (b : Bytes) (n st : Nat) : Bool :=
  let lv (sub : Nat → Option Bool) : Nat → Option Bool := callLevel b n sub (aurSteps b n + 1)
  lv (lv (lv (lv (lv (fun _ => none))))) st = some false

/-- The checks of one step (R233, R234). -/
def aurStepChecks (b : Bytes) (n st : Nat) : List Check :=
  let o := aurSec b n + 0x40 + 48 * st
  let f := aurStep b n st
  let sc := aurSteps b n
  let k := f 0 1 % 4
  let seg := decide (k = 0)
  let jt := f 8 2
  ([(o, decide (k ≤ 1 ∧ f 0 1 < 16 ∧ (¬ bit (f 0 1) 3 ∨ k = 1))), (o + 1, decide (f 1 1 ≤ 3)), (o + 2, decide (f 2 1 ≤ 2)),
    (o + 3, f 2 1 ≠ 2 ∨ f 3 1 < 24), (o + 4, decide (f 4 2 < sc)),
    (o + 6, if f 1 1 = 1 then f 6 2 < sc else f 6 2 = 0),
    (o + 8, if f 2 1 = 0 then jt = 0 else jt < sc ∧ ¬ aurStreamed b n jt), rsv b (o + 11) 1, rsv b (o + 15) 1,
    (o + 16, if seg then f 16 4 < aurSegs b n else 7 ≤ f 16 4), (o + 20, if seg then f 20 2 < 1024 else f 20 2 = 0),
    rsv b (o + 22) 2, (o + 24, decide (f 24 2 ≤ 32768)), (o + 26, if seg then f 26 2 = 0 else f 26 2 ≤ 32768),
    (o + 28, (¬ seg ∧ bit (f 0 1) 3) ∨ f 28 2 = 0), rsv b (o + 30) 2,
    (o + 32, if seg then f 32 8 = 0 else f 32 8 < 2 ^ 47), (o + 40, if seg then f 40 8 = 0 else f 40 8 < 2 ^ 47),
    (o + 8, f 2 1 = 0 ∨ callsOk b n jt)] : List Check)

/-- The checks of one segment entry (R232, R234). -/
def aurSegChecks (b : Bytes) (n sg : Nat) : List Check :=
  let o := aurSec b n + 0x40 + 48 * aurSteps b n + 16 * sg
  let loc := fld b o 8
  let len := fld b (o + 8) 4
  let str := bit (fld b (o + 12) 1) 0
  ([(o, if str then loc % 256 = 0 ∧ loc + 2 * len ≤ b.length else loc % 64 = 0 ∧ loc + len ≤ aurResident b n),
    (o + 8, len % 64 = 0 ∧ 512 ≤ len), byteIn b (o + 12) 1, rsv b (o + 13) 3,
    (o + 12, ¬ str ∨ (aurStream b n ≠ 0 ∧ 65536 ≤ 4194304 - aurResident b n))] : List Check)

/-- The checks of one channel section (R231, R234). -/
def aurSecChecks (b : Bytes) (n : Nat) : List Check :=
  let o := aurSec b n
  if ¬ aurHas b n then ([(0x10 + 8 * n, o = 0)] : List Check)
  else
    let sc := aurSteps b n
    let sg := aurSegs b n
    let res := aurResident b n
    let ro := fld b (o + 0x20) 8
    let whole := o + 0x40 + 48 * sc + 16 * sg ≤ b.length
    ([(0x10 + 8 * n, o ≠ 0 ∧ o % 64 = 0 ∧ whole), (o, 1 ≤ sc ∧ sc ≤ 4096), (o + 2, decide (sg ≤ 16384)),
      (o + 4, decide (aurEntry b n < sc)), (o + 6, decide (aurStartSrc b n ≤ 2)),
      (o + 7, aurStartSrc b n ≠ 2 ∨ aurStartArg b n < 24),
      (o + 8, res % 64 = 0 ∧ res ≤ 4194304), (o + 12, decide (aurStream b n ≤ 32)), rsv b (o + 13) 3,
      (o + 16, decide (fld b (o + 16) 4 < 2 ^ 24)), rsv b (o + 20) 12,
      (o + 32, ro % 64 = 0 ∧ (res ≠ 0 ∨ ro = 0) ∧ ro + 2 * res ≤ b.length), rsv b (o + 40) 24] : List Check) ++
    (if whole ∧ sc ≤ 4096 then
      forAll sc (aurStepChecks b n) ++ forAll sg (aurSegChecks b n) ++ ([(o + 4, callsOk b n (aurEntry b n))] : List Check) else [])

/-- R234. -/
def auroraChecks (b : Bytes) : List Check :=
  ([(0, fld b 0 1 = 1), rsv b 2 14, (min b.length 80, decide (80 ≤ b.length))] : List Check) ++ forAll 8 (aurSecChecks b)

/-! ### Squall plans (R209) and Virga tables (R194) -/

/-- The transition kinds a quantity uses, as edges bits (R197, R199). -/
def quantityEdges (q sel : Nat) : Nat :=
  let inp := sel % 2
  let dir := sel / 2 % 2
  if q = 2 ∨ q = 5 then 2 ^ (2 * inp + dir) else if q = 3 ∨ q = 4 then 3 * 4 ^ inp else 0

/-- The checks of one Virga entry (R193, R194). -/
def virgaChecks (b : Bytes) (i : Nat) : List Check :=
  let o := sqlVirga b + 16 + 16 * i
  let q := fld b (o + 5) 1
  let sel := fld b (o + 6) 1
  let ed := fld b (o + 4) 1
  let use := quantityEdges q sel
  let refOk : Bool := match virEntry b (fld b (o + 2) 2) with
    | none => false
    | some e => fld e 7 1 = fld b (o + 7) 1 ∧ fld e 4 1 &&& use = use
  ([(o, fld b o 2 ≤ 255 ∧ (i = 0 ∨ fld b (o - 16) 2 < fld b o 2)),
    (o + 2, if q = 5 then decide (fld b (o + 2) 2 ≠ fld b o 2) && refOk else fld b (o + 2) 2 = 0),
    (o + 4, ed ≠ 0 ∧ ed < 16 ∧ ed &&& use = use), (o + 5, decide (q ≤ 5)),
    (o + 6, decide (sel < 4)), (o + 7, decide (fld b (o + 7) 1 ≤ 1)),
    (o + 8, q ≠ 0 ∨ fld b (o + 8) 4 = 0), rsv b (o + 12) 4] : List Check)

/-- Whether a stamp condition or window on pin `p` of bank `k` names kinds its Virga entry enables (R209). -/
def kindsEnabled (b : Bytes) (k p kinds : Nat) : Bool :=
  match virEntry b (32 * k + p) with
  | none => false
  | some e => kinds &&& fld e 4 1 = kinds

/-- The checks of one trigger state (R209, R213, R214). -/
def trigChecks (b : Bytes) (k o st : Nat) : List Check :=
  let so := o + 0x20 + 40 * st
  let sc := fld b (o + 0x19) 1
  let cond (c : Nat) : List Check :=
    let v := fld b (so + 2 * c) 2
    let src := v % 16
    let ix := bits v 6 4
    let scond := o + 0x350 + 8 * ix
    ([(so + 2 * c, decide (src ≤ 7)), (so + 2 * c, src ≠ 7 ∨ ix < 4), (so + 2 * c + 1, v < 256),
      (so + 2 * c, src ≠ 4 ∨ kindsEnabled b k (fld b scond 1) (fld b (scond + 1) 1))] : List Check)
  let exit (e : Nat) : List Check :=
    let v := fld b (so + 10 + e) 1
    ([(so + 10 + e, v < 128 ∧ (¬ bit v 6 ∨ v % 16 < sc))] : List Check)
  forAll 4 cond ++ forAll 4 exit ++
  ([byteIn b (so + 8) 1, (so + 9, fld b (so + 9) 1 % 16 ≤ 5 ∧ fld b (so + 9) 1 / 16 ≤ 5), rsv b (so + 14) 2,
    rsv b (so + 22) 2, rsv b (so + 30) 2] : List Check)

/-- The checks of one bank section (R208, R209). -/
def sqlSecChecks (b : Bytes) (k : Nat) : List Check :=
  if ¬ sqlHas b k then []
  else
    let o := sqlSec b k
    let su := fld b o 1
    let gu := fld b (o + 1) 1
    let np := (sqlPins b k).length
    let pre := fld b (o + 8) 4
    let post := fld b (o + 12) 4
    let sc := fld b (o + 0x19) 1
    ([(o, decide (su ≤ 64)), (o + 1, gu ≤ 64 ∧ su + gu ≤ 64), rsv b (o + 2) 2, (o + 4, su = 0 ∨ np ≠ 0),
      (o + 8, pre ≤ 2 ^ 31 ∧ (su = 0 ∨ np = 0 ∨ pre + post ≤ su * 524288 / (2 * np))),
      (o + 12, 1 ≤ post ∧ post ≤ 2 ^ 31), (o + 0x12, 1 ≤ fld b (o + 0x12) 2 ∧ fld b (o + 0x12) 2 ≤ 4096),
      (o + 1, gu = 0 ∨ 64 + 16 * fld b (o + 0x12) 2 ≤ gu * 65536), byteIn b (o + 0x14) 1, byteIn b (o + 0x15) 31,
      byteIn b (o + 0x16) 31, byteIn b (o + 0x17) 1, (o + 0x18, decide (fld b (o + 0x18) 1 < sc)),
      (o + 0x19, 1 ≤ sc ∧ sc ≤ 16), rsv b (o + 0x1A) 6] : List Check) ++
    forAll 16 (trigChecks b k o) ++
    forAll 8 (fun i =>
      let q := o + 0x350 + 8 * i
      ([byteIn b q 31, byteIn b (q + 1) 15, (q + 2, decide (fld b (q + 2) 1 ≤ 2)), rsv b (q + 3) 1] : List Check)) ++
    forAll 4 (fun i =>
      let q := o + 0x390 + 16 * i
      ([(q + 8, decide (fld b (q + 8) 4 < 1000000000)), rsv b (q + 12) 4] : List Check)) ++
    forAll 8 (fun i =>
      let q := o + 0x3D0 + 16 * i
      let en := bit (fld b (q + 2) 1) 7
      ([byteIn b q 31, byteIn b (q + 1) 15, byteIn b (q + 2) 0x81, rsv b (q + 3) 1,
        (q + 4, ¬ en ∨ fld b (q + 4) 4 < fld b (q + 8) 4), rsv b (q + 12) 4,
        (q, ¬ en ∨ kindsEnabled b k (fld b q 1) (fld b (q + 1) 1))] : List Check))

/-- R209 and R194. -/
def squallChecks (b : Bytes) : List Check :=
  let ends := sqlSec b 8
  let vo := sqlVirga b
  let ec := fld b vo 2
  ([(0, fld b 0 1 = 1), rsv b 2 2, (4, vo = 0 ∨ (vo % 16 = 0 ∧ ends ≤ vo)), rsv b 8 8,
    lenIs b (if vo = 0 then ends else vo + 16 + 16 * ec)] : List Check) ++
  forAll 8 (sqlSecChecks b) ++
  (if vo = 0 then [] else ([(vo, decide (ec ≤ 256)), rsv b (vo + 2) 14] : List Check) ++ (if ec ≤ 256 then forAll ec (virgaChecks b) else []))

/-- The first field at fault of an image of kind 1 to 6 (R292). -/
def imageFault (kind : Nat) (b : Bytes) : Option Nat :=
  if kind = 1 then firstFault (progChecks b)
  else if kind = 2 then firstFault (streamChecks b)
  else if kind = 3 then firstFault (timingChecks b)
  else if kind = 4 then firstFault (cumulusChecks b)
  else if kind = 5 then firstFault (auroraChecks b)
  else firstFault (squallChecks b)

end Sys2Proof.Machine
end

