-- ==== Sys2Proof/Machine/Units.lean ====
section
/-! DEFINITION. What the blocks ask of the power units and the DRAM: the PLLs that must run, wakes (R351, R352, R354), and
requests that wait for the DRAM (R334, R335). -/

namespace Sys2Proof.Machine

/-! ### Units and their PLLs -/

/-- Whether a PLL must run for the units it serves (R352). HALO_PLL_A always does, and HALO_PLL_B also in place of a HALO_PLL_A
that has failed (R303); without REFCLK they stand on the oscillator (R348). -/
def pllNeeded (s : State) (n : Nat) : Bool :=
  let on (u : Nat) : Bool :=
    let x := getUnit s u
    (x.state ≠ .doze && x.state ≠ .off) || x.wakes.isSome
  if n = 0 then on 21
  else if n = 1 then true
  else if n = 2 then ([4, 5, 6, 7].any on) || (getPll s 1).state = .failed
  else if n = 3 then (List.range 8).any (fun i => on (8 + i))
  else if n = 4 then on 20 || s.dram.change ≠ []
  else
    let u := if n ≤ 6 then 16 else 16 + (n - 6)
    (getUnit s u).state ≠ .off || (getUnit s u).wakes.isSome

/-- PLLs stop and start with the units they serve (R352). -/
def syncPlls (s : State) : State :=
  (List.range 10).foldl (fun s n =>
    let x := getPll s n
    if pllNeeded s n then (if x.state = .off then retune s n else s)
    else if x.state = .failed then s
    else setPll s n { x with state := .off, good := 0, far := false, lost := false }) s

/-- The wake time of a unit in ns (R351). -/
def wakeNs (s : State) (u : Nat) : Nat :=
  match (getUnit s u).state with
  | .active => 0
  | .idle => if u = 20 then 1200 else us 2
  | .doze => if u = 20 then us 12 else if 16 ≤ u ∧ u ≤ 19 then us 60 else us 80
  | .off => us 80

/-- Wake a unit to Active (R354). -/
def wakeUnit (s : State) (u : Nat) : State :=
  let x := getUnit s u
  if x.state = .active ∨ x.wakes.isSome then s
  else syncPlls (useCore (setUnit s u { x with wakes := some (s.now + wakeNs s u) }))

/-! ### Loss of power (R351, R429) -/

/-- The port of a unit. -/
def unitPort (u : Nat) : Port := if u = 16 then .host else if u = 17 then .east else if u = 18 then .west else .pair

/-- Whether an address belongs to the registers of a bank, an Aurora channel or a port, which a power-off clears (R429). -/
def unitReg (u a : Nat) : Bool :=
  let within (lo n : Nat) : Bool := lo ≤ a && a < lo + n
  if u < 8 then
    within (Reg.cumStat u) 0x20 || within (Reg.sqlStat u) 0x20 || within (Reg.halTset (32 * u)) 128 ||
      within (Reg.virCal (32 * u)) 128 || within (Reg.virLost (32 * u)) 128 || a = Reg.strBank u || a = Reg.strBorrow u
  else if u < 16 then within (Reg.aurStat (u - 8)) 0x20
  else if u < 20 then within (Reg.jetPortStat (u - 16)) 0x10 ||
    (if u = 16 then within (Reg.jetLane 0) 32 else within (Reg.jetLane (4 * u - 60)) 16)
  else false

/-- A bank that leaves Active and Idle: the 1 s of R359 starts again. -/
def bankDown (s : State) (u : Nat) : State :=
  if u < 8 ∧ ((getUnit s u).state = .active ∨ (getUnit s u).state = .idle) then
    { s with horizon := { s.horizon with vacantTrim := s.now } }
  else s

/-- The contents of a unit that is powered off are lost (R351): its memories, and its register fields (R429). -/
def losePower (s : State) (u : Nat) : State :=
  let s := { s with regs := s.regs.filter (fun e => !unitReg u e.1) }
  if u < 8 then setSquall (setCum s u .init) u .init
  else if u < 16 then setAurora s (u - 8) { Aurora.init with image := (getAurora s (u - 8)).image }
  else s

/-! ### Requests of the DRAM -/

/-- Whether a job claims DRAM bandwidth (R332, R334). -/
def hasClaim (p : Bytes) : Bool :=
  jobAurClaim p ≠ 0 || jobFailClaim p ≠ 0 || (List.range 8).any (fun b => jobVecClaim p b ≠ 0)

/-- Whether no domain holds a non-zero vector, Aurora or fail-log claim and no Aurora channel is playing. -/
def noClaims (s : State) : Bool :=
  s.doms.all (fun d => d.2.phase = .free || !hasClaim d.2.payload) && s.auroras.all (fun a => !a.2.playing)

/-- The idle timer of R334 restarts at a request of a port other than scrub (R335). -/
def touchDram (s : State) : State := { s with dram := { s.dram with idleSince := s.now } }

/-- The host's share in units of 0.125 GB/s. -/
def hostShare : Nat := 180

/-- A request finds the DRAM not in service and waits. In self-refresh it is counted, and the exit begins (R333, R335). -/
def askDram (s : State) (r : DramReq) : State :=
  let s := { s with dram := { s.dram with waiting := s.dram.waiting ++ [r] } }
  if s.dram.state = .selfRefresh then wakeUnit (regBump s Reg.drmSr 16 16 1) 20 else s

/-- A frame at the head of queue `q` needs `n` bytes of the DRAM: the host port is debited, or the frame waits there until the
DRAM is in service, as the answer tells (R325, R333, R335). -/
def hostDram (s : State) (q n : Nat) : State × Bool :=
  if dramServing s then (touchDram (debit s hostKey hostShare n), true)
  else if s.dram.waiting.contains (.host q) then (s, false)
  else (askDram s (.host q), false)

end Sys2Proof.Machine
end

