-- ==== Sys2Proof/Machine/Images.lean ====
section
/-! DEFINITION. LOAD (R292): stagings, image checks, handles, and the holds of R13 and R235. -/

namespace Sys2Proof.Machine

/-- Pages of 4 KiB a length takes (R292). -/
def pages (n : Nat) : Nat := ceilDiv n 4096

/-- The DRAM part of a queue in bytes: what exceeds 1 MiB of a queue above 256 KiB (R279). -/
def dramPart (x : Queue) : Nat := if x.dram then 32 * x.lines - 1048576 else 0

/-- Data capacity of the DRAM in bytes: 8 subchannels of four data components of `density` gigabits (R315). -/
def capacity (s : State) : Nat := s.dram.density * 4 * 1073741824

/-- Free pages of the image space (R292): the capacity less the 512 MiB of R318, the DRAM parts of the queues,
and what images and stagings hold. -/
def freePages (s : State) : Nat :=
  capacity s / 4096 - 131072 - pages ((s.queues.map (fun q => dramPart q.2)).sum) -
    (s.images.map (fun i => pages i.2.data.length)).sum - (s.stagings.map (fun t => pages t.2.length)).sum

/-- The first page of the image space: the queues' DRAM parts lie below it, upward from address 0 (R318). -/
def firstPage (s : State) : Nat := pages ((s.queues.map (fun q => dramPart q.2)).sum)

/-- Whether an image or a staging holds a page. -/
def pageTaken (s : State) (p : Nat) : Bool :=
  s.images.any (fun i => i.2.pages.contains p) || s.stagings.any (fun t => t.2.pages.contains p)

/-- The lowest `need` pages from `p` on that `taken` does not hold. -/
def takePages (taken : Nat → Bool) : Nat → Nat → Nat → List Nat
  | _, _, 0 => []
  | 0, _, _ => []
  | fuel + 1, p, need + 1 => if taken p then takePages taken fuel (p + 1) (need + 1) else p :: takePages taken fuel (p + 1) need

/-- Every page an image or a staging holds. -/
def heldPages (s : State) : List Nat := (s.images.map (fun i => i.2.pages)).flatten ++ (s.stagings.map (fun t => t.2.pages)).flatten

/-- The pages of a staging once `n` bytes of it have been written: it takes the lowest free pages as its bytes arrive (R292,
R318). -/
def stagingPages (s : State) (t : Staging) (n : Nat) : List Nat :=
  let need := pages n - t.pages.length
  t.pages ++ takePages (pageTaken s) (need + (heldPages s).length) (firstPage s) need

/-- The bursts that bytes `pos` to `pos + n − 1` of a region with these pages lie in. -/
def burstsOf (ps : List Nat) (pos n : Nat) : List Nat :=
  (List.range (ceilDiv (pos % 64 + n) 64)).map (fun i => ps.getD ((pos / 64 + i) / 64) 0 * 64 + (pos / 64 + i) % 64)

/-- Written bursts hold right codewords: they differ from them in no byte (R320). -/
def clearBursts (s : State) (bs : List Nat) : State :=
  { s with dram := { s.dram with cells := s.dram.cells.filter (fun c => !bs.contains (c.1 / 80)) } }

/-- The handles a JOB_SUBMIT payload names. -/
def jobHandles (p : Bytes) : List Nat := [jobSeq p, jobStreams p, jobTiming p, jobCum p, jobAur p, jobSqu p].filter (· ≠ 0)

/-- Whether a job the device holds pins an image: from the window to the commit of its JOB_STATUS (R13). -/
def pinned (s : State) (h : Nat) : Bool :=
  s.window.any (fun w => (jobHandles w.payload).contains h) ||
    s.doms.any (fun d => d.2.phase ≠ .free && (jobHandles d.2.payload).contains h)

/-- Images of other handles whose Aurora channels an image's channel_mask meets (R235). -/
def auroraMet (s : State) (mask except : Nat) : List Nat :=
  (s.images.filter (fun i => i.2.kind = 5 ∧ i.1 ≠ except ∧ fld i.2.data 1 1 &&& mask ≠ 0)).map Prod.fst

/-- Free an image: its pages return (R292), and no Aurora channel holds it any more (R235). -/
def freeImage (s : State) (h : Nat) : State :=
  setImage { s with auroras := tmap Aurora.init (fun _ a =>
    if a.image = some (BitVec.ofNat 32 h) then { a with image := none } else a) s.auroras } h .init

/-- The first number from `n` on that is free, skipping 0 and 0xFFFF_FFFF (R292). -/
def freeNumber (used : Nat → Bool) : Nat → Word → Word
  | 0, n => n
  | fuel + 1, n => if n = 0 ∨ n = 0xFFFFFFFF#32 ∨ used n.toNat then freeNumber used fuel (n + 1) else n

/-- Whether a handle names an image. -/
def placed (s : State) (h : Nat) : Bool := (getImage s h).kind ≠ 0

/-- An Aurora channel that is not retired holds the image of a handle (R235). One that is Off holds none (R350), so that it
goes to Doze with it (DESIGN CHOICE). -/
def holdImage (s : State) (n h : Nat) : State :=
  if s.anvil.retiredAur.contains n then s
  else
    let s := setAurora s n { getAurora s n with image := some (BitVec.ofNat 32 h) }
    let u := getUnit s (8 + n)
    if u.state = .off then setUnit s (8 + n) { u with state := .doze, since := s.now } else s

/-- Place a checked image under a handle. The images whose Aurora channels it meets, and the one it replaces, are freed whole,
and the channels named hold it (R235). -/
def placeImage (s : State) (h kind : Nat) (data : Bytes) (ps : List Nat) : State :=
  let s := if kind = 5 then (auroraMet s (fld data 1 1) h ++ [h]).foldl freeImage s else s
  let s := setImage s h { kind := kind, data := data, pages := ps }
  if kind = 5 then
    (List.range 8).foldl (fun s n => if aurHas data n then holdImage s n h else s) s
  else s

/-- The checks of a LOAD head (R292): op, kind and the fields each op uses. -/
def loadChecks (b : Bytes) (op : Nat) : List Check :=
  let kind := fld b 1 1
  let pos := fld b 8 8
  ([(0, fld b 0 1 = op), (1, if op = 1 then 1 ≤ kind ∧ kind ≤ 6 else kind = 0), rsv b 2 2,
    (4, op = 2 ∨ op = 3 ∨ op = 5 ∨ fld b 4 4 = 0),
    (8, if op = 1 then 16 ≤ pos ∧ pos ≤ 2 ^ 40 else op = 2 ∨ pos = 0),
    (16, op = 3 ∨ op = 4 ∨ fld b 16 4 = 0), rsv b 20 12,
    (min b.length 32, if op = 2 then 33 ≤ b.length else b.length = 32)] : List Check)

/-- Open (R292): a fifth staging or a length that the free pages cannot hold receives status 0x03. -/
def loadOpen (s : State) (f : Frame) : State :=
  let n := fld f.payload 8 8
  if 4 ≤ s.stagings.length ∨ freePages s < pages n then reply s f 3 0 []
  else
    let k := freeNumber (fun i => (getStaging s i).kind ≠ 0) 8 s.nextStaging
    let s := { setStaging s k.toNat { kind := fld f.payload 1 1, length := n, data := [] } with nextStaging := k + 1 }
    reply s f 0 0 (le 4 k.toNat)

/-- Data (R292): in ascending order without gaps and within the declared length, or status 0x05. The bytes are written to the
staging's pages. -/
def loadData (s : State) (f : Frame) : State :=
  let k := fld f.payload 4 4
  let t := getStaging s k
  let d := f.payload.drop 32
  if t.kind = 0 then reply s f 4 k []
  else if fld f.payload 8 8 ≠ t.data.length ∨ t.length < t.data.length + d.length then reply s f 5 t.data.length []
  else
    let ps := stagingPages s t (t.data.length + d.length)
    let s := clearBursts s (burstsOf ps t.data.length d.length)
    reply (setStaging s k { t with data := t.data ++ d, pages := ps }) f 0 0 []

/-- The images a LOAD would overwrite or free (R13, R235). -/
def loadMeets (s : State) (f : Frame) : List Nat :=
  let b := f.payload
  if fld b 0 1 = 4 then [fld b 16 4]
  else if fld b 0 1 = 3 then
    let t := getStaging s (fld b 4 4)
    let h := fld b 16 4
    (if h = 0 then [] else [h]) ++
      (if t.kind = 5 ∧ t.data.length = t.length then auroraMet s (fld t.data 1 1) h else [])
  else []

/-- Whether a LOAD is held at the head of queue 1: an image it would overwrite or free is pinned (R13). -/
def loadHeld (s : State) (f : Frame) : Bool := (loadMeets s f).any (fun h => placed s h && pinned s h)

/-- Close (R292): a staging with bytes missing stays open with status 0x05; a refused image frees the staging
with status 0x02; otherwise the image takes a fresh handle, or the handle it replaces. -/
def loadClose (s : State) (f : Frame) : State :=
  let k := fld f.payload 4 4
  let h := fld f.payload 16 4
  let t := getStaging s k
  if t.kind = 0 then reply s f 4 k []
  else if t.data.length < t.length then reply s f 5 t.data.length []
  else if h ≠ 0 ∧ (getImage s h).kind ≠ t.kind then reply s f 4 h []
  else
    let s := setStaging s k .init
    match imageFault t.kind t.data with
    | some off => reply s f 2 off []
    | none =>
      if h ≠ 0 then reply (placeImage s h t.kind t.data t.pages) f 0 0 (le 4 h)
      else
        let n := freeNumber (placed s) (s.images.length + 3) s.nextHandle
        let s := { placeImage s n.toNat t.kind t.data t.pages with nextHandle := n + 1 }
        reply s f 0 0 (le 4 n.toNat)

/-- Free (R292). -/
def loadFree (s : State) (f : Frame) : State :=
  let h := fld f.payload 16 4
  if placed s h then reply (freeImage s h) f 0 0 []
  else reply s f 4 h []

/-- Abort (R292). -/
def loadAbort (s : State) (f : Frame) : State :=
  let k := fld f.payload 4 4
  if (getStaging s k).kind = 0 then reply s f 4 k [] else reply (setStaging s k .init) f 0 0 []

/-- Handle one LOAD frame taken from queue 1. -/
def doLoad (s : State) (f : Frame) : State :=
  let op := fld f.payload 0 1
  request s f false (loadChecks f.payload (if 1 ≤ op ∧ op ≤ 5 then op else 1)) (fun s =>
    if op = 1 then loadOpen s f
    else if op = 2 then loadData s f
    else if op = 3 then loadClose s f
    else if op = 4 then loadFree s f
    else loadAbort s f)

/-- Whether Nimbus reads queues 0 and 1: not while the device is Faulted or Recovering, nor in boot-halt (R403,
R426). -/
def readsWork (s : State) : Bool := s.anvil.state = .running && s.boot.state = 1

/-- Whether Nimbus takes the frames of queue 0 or 1: the JTAG reader may be their consumer (R281). -/
def readsQueue (s : State) (q : Nat) : Bool := readsWork s && !(getQueue s q).jtag

/-- The bytes of the DRAM a LOAD reads or writes: the data it brings, or the image its close checks. -/
def loadBytes (s : State) (f : Frame) : Nat :=
  let t := getStaging s (fld f.payload 4 4)
  if firstFault (loadChecks f.payload (fld f.payload 0 1)) ≠ none ∨ t.kind = 0 then 0
  else if fld f.payload 0 1 = 2 then f.payload.length - 32
  else if fld f.payload 0 1 = 3 then t.data.length
  else 0

/-- What a LOAD needs of the DRAM, and whether it is served (R335). -/
def loadDram (s : State) (f : Frame) : State × Bool := if loadBytes s f = 0 then (s, true) else hostDram s 1 (loadBytes s f)

/-- Handle the LOAD frames waiting at the head of queue 1, until one is held (R13) or waits for the DRAM. -/
def drainLoads : Nat → State → State
  | 0, s => s
  | fuel + 1, s =>
    match s.held1 with
    | [] => s
    | f :: r =>
      if readsQueue s 1 ∧ ¬ loadHeld s f then
        let d := loadDram s f
        if d.2 then drainLoads fuel (doLoad { d.1 with held1 := r } f) else d.1
      else s

/-- A LOAD frame arrives: it waits behind those already held on queue 1, and is handled once none is (R13). -/
def takeLoad (s : State) (f : Frame) (op : Nat) : State :=
  let o := fld f.payload 0 1
  if f.payload ≠ [] ∧ o ≠ op ∧ 1 ≤ o ∧ o ≤ 5 then s
  else onFrame s f 0x03 (fun s => drainLoads (s.held1.length + 1) { s with held1 := s.held1 ++ [f] })

/-- LOAD_OPEN. -/
def execLoadOpen (f : Frame) (s : State) : Host.Outcome State Fault Refusal := .next (takeLoad s f 1)

/-- LOAD_DATA. -/
def execLoadData (f : Frame) (s : State) : Host.Outcome State Fault Refusal := .next (takeLoad s f 2)

/-- LOAD_CLOSE. -/
def execLoadClose (f : Frame) (s : State) : Host.Outcome State Fault Refusal := .next (takeLoad s f 3)

/-- LOAD_FREE. -/
def execLoadFree (f : Frame) (s : State) : Host.Outcome State Fault Refusal := .next (takeLoad s f 4)

/-- LOAD_ABORT. -/
def execLoadAbort (f : Frame) (s : State) : Host.Outcome State Fault Refusal := .next (takeLoad s f 5)

end Sys2Proof.Machine
end

