-- ==== Sys2Proof/Machine/Retire.lean ====
section
/-! DEFINITION. The JOB_STATUS of a job that is never admitted (R30), the checks 6 to 8 of R21, and the
retirement of units (R409, R410). -/

namespace Sys2Proof.Machine

/-- A pair digest frame (R441). -/
def digestFrame (kind status : Nat) (tag : Word) (window vectors : Nat) (drive fail : Word) : Bytes :=
  le 1 kind ++ le 1 status ++ le 2 0 ++ le 4 tag.toNat ++ le 4 window ++ le 4 0 ++ le 8 vectors ++
    le 4 drive.toNat ++ le 4 fail.toNat

/-- A pair member tells its partner that it holds no running copy of a job (R443). -/
def tellAbsent (s : State) (tag : Word) (status : Nat) : State :=
  if pairEnable s then commitFrame s 50 0x82 0 0 (digestFrame 3 status tag 0 0 0 0) else s

/-- The 64-byte JOB_STATUS payload (R30). -/
def statusPayload (status reason flags domain sites endV starve failing waitUs : Nat) (ta ts te : ZTime) : Bytes :=
  le 1 status ++ le 1 reason ++ le 2 flags ++ le 1 domain ++ le 1 0 ++ le 2 sites ++ le 8 (endV % 2 ^ 48) ++
    le 2 starve ++ le 2 failing ++ le 4 waitUs ++ time12 ta ++ time12 ts ++ time12 te ++ le 4 0

/-- A job's JOB_STATUS has been committed: a later cancel of its tag has no effect (R35). -/
def noteDone (s : State) (tag : Word) : State := { s with done := s.done.filter (· ≠ tag) ++ [tag] }

/-- End a job that was never admitted (R30, R31): its JOB_STATUS is committed at once. -/
def refuseJob (s : State) (tag : Word) (status reason flags sites waitUs : Nat) : State :=
  tellAbsent (commitFrame (noteDone s tag) 16 0x41 0 tag
    (statusPayload status reason flags 0xFF sites 0 0xFFFF 0 waitUs .zero .zero s.zenith.time)) tag status

/-- Microseconds a job has spent in the window (R30). -/
def waitedUs (s : State) (w : Waiting) : Nat := min ((s.now - w.entered) / 1000) 0xFFFFFFFF

/-- End a job of the window and remove it. -/
def refuseWaiting (s : State) (w : Waiting) (status reason : Nat) : State :=
  refuseJob { s with window := s.window.filter (fun v => v.tag ≠ w.tag) } w.tag status reason
    (if w.throttled then 16 else 0) (jobSites w.payload) (waitedUs s w)

/-- Checks 6 to 8 of R21: the reason of a pin, bank or Aurora channel that is retired; 0 where none is. -/
def retiredReason (s : State) (p : Bytes) : Nat :=
  let a := s.anvil
  if (jobPins p).any a.retiredCh.contains then 3
  else if (List.range 8).any (fun b => (bit (jobCumBanks p) b || bit (jobSquBanks p) b) && a.retiredBank.contains b) then 4
  else if (List.range 8).any (fun n => bit (jobAurs p) n && a.retiredAur.contains n) then 5
  else 0

/-- Nimbus applies checks 6 to 8 again to every waiting job (R372, R410), while no fault has discarded them (R399). A LOAD held for
an image that only a refused job pinned goes on (R13). -/
def recheckRetired (s : State) : State :=
  let s := if s.anvil.state ≠ .running then s else s.window.foldl (fun s w =>
    let r := retiredReason s w.payload
    if r = 0 then s else refuseWaiting s w 5 r) s
  drainLoads s.held1.length s

/-- An item becomes due for a cause (R375); one that is due already keeps the stronger cause. -/
def makeDue (s : State) (item : CalItem) (cause : Nat) : State :=
  let h := s.horizon
  let due := if h.due.any (fun x => x.item = item) then
      h.due.map (fun x => if x.item = item then { x with cause := min x.cause cause } else x)
    else h.due ++ [{ item := item, cause := cause, active := false, runA := none, attempts := 0 }]
  { s with horizon := { h with due := due } }

/-- Add to a list without repeats. -/
def addOnce (l : List Nat) (n : Nat) : List Nat := if l.contains n then l else l ++ [n]

/-- A retired bank or Aurora channel goes to Off (R354, R410): its contents are lost, and its PLL stops where no other unit
needs it (R351, R352). -/
def unitOff (s : State) (u : Nat) : State :=
  let s := losePower (bankDown s u) u
  syncPlls (setUnit s u { getUnit s u with state := .off, since := s.now, wakes := none })

/-- Whether an item is measured on a channel, or on an Aurora channel. -/
def itemOf (isCh : Bool) (n : Nat) : CalItem → Bool
  | .deskew ch => isCh && ch.val = n
  | .linearity ch => isCh && ch.val = n
  | .aurora k => !isCh && k.val = n
  | .diode => false

/-- The staged values of a channel are discarded when it is retired (R377), and its items are due no more. -/
def dropStaged (s : State) (ch : Nat) : State :=
  let h := s.horizon
  { s with horizon := { h with staged := tset none h.staged ch none, due := h.due.filter (fun x => !itemOf true ch x.item) } }

/-- Retire a channel (R409). -/
def retireChannel (s : State) (ch : Nat) : State :=
  let s := dropStaged s ch
  recheckRetired { s with anvil := { s.anvil with retiredCh := addOnce s.anvil.retiredCh ch } }

/-- The record of retired units with a bank and its 32 channels (R409). -/
def withBank (a : Anvil) (b : Nat) : Anvil :=
  { a with
    retiredBank := addOnce a.retiredBank b
    retiredCh := ((List.range 32).map (fun i => 32 * b + i)).foldl addOnce a.retiredCh
    retiring := a.retiring.filter (· ≠ b) }

/-- Retire a bank with its 32 channels (R409). -/
def retireBank (s : State) (b : Nat) : State :=
  let s := (List.range 32).foldl (fun s i => dropStaged s (32 * b + i)) s
  recheckRetired (unitOff { s with anvil := withBank s.anvil b } b)

/-- Whether an admitted domain whose job has not ended holds a bank: one of its pins, or its Cumulus or Squall (R410). -/
def bankHeld (s : State) (b : Nat) : Bool :=
  s.doms.any (fun d => (d.2.phase = .admitted || d.2.phase = .running) && (jobBanks d.2.payload).contains b)

/-- A bank fails its test: it retires now, or once the last job that holds it has ended (R410). -/
def failBank (s : State) (b : Nat) : State :=
  if bankHeld s b then { s with anvil := { s.anvil with retiring := addOnce s.anvil.retiring b } } else retireBank s b

/-- The banks whose retirement waited retire once no job holds them (R410). -/
def retireWaiting (s : State) : State :=
  s.anvil.retiring.foldl (fun s b => if bankHeld s b then s else retireBank s b) s

/-- Free the image whose section an Aurora channel holds (R235, R255). -/
def freeAuroraImage (s : State) (n : Nat) : State :=
  match (getAurora s n).image with
  | some h => freeImage s h.toNat
  | none => s

/-- Retire an Aurora channel with its resident image (R409). -/
def retireAurora (s : State) (n : Nat) : State :=
  let h := s.horizon
  let s := { s with horizon := { h with
    stagedAur := tset none h.stagedAur n none, due := h.due.filter (fun x => !itemOf false n x.item) } }
  recheckRetired (unitOff (freeAuroraImage
    { s with anvil := { s.anvil with retiredAur := addOnce s.anvil.retiredAur n } } n) (8 + n))

end Sys2Proof.Machine
end

