-- ==== Sys2Proof/Machine/Squall.lean ====
section
/-! DEFINITION. Squall (chapter 09): the trigger sequencer, pin-state records, segments, the input buffer and the
readout. -/

namespace Sys2Proof.Machine

/-! ### The plan in force -/

/-- The plan of the job that claims bank `b`'s Squall, with that job's slot. -/
def planOf (s : State) (b : Nat) : Option (Nat × Bytes) :=
  (getSquall s b).dom.map (fun d => (d, (getImage s (jobSqu (getDom s d).payload)).data))

def sqlStateUnits (p : Bytes) (b : Nat) : Nat := sqlField p b 0 1
def sqlSegUnits (p : Bytes) (b : Nat) : Nat := sqlField p b 1 1
def sqlPre (p : Bytes) (b : Nat) : Nat := sqlField p b 8 4
def sqlPost (p : Bytes) (b : Nat) : Nat := sqlField p b 0xC 4
def sqlWindow (p : Bytes) (b : Nat) : Nat := sqlField p b 0x10 2
def sqlMaxEvents (p : Bytes) (b : Nat) : Nat := sqlField p b 0x12 2
def sqlMaskStop (p : Bytes) (b : Nat) : Bool := bit (sqlField p b 0x14 1) 0

/-- The present ECLK of a domain, counted from the ECLK of vector 0 (R211). -/
def nowEclk (x : Dom) : Nat := x.eclk - 1

/-- The clock count of the present ECLK. The Squall commands of an ECLK come after its VECTOR_POP. -/
def nowClock (x : Dom) : Nat := clock x - 1

/-- The start of ECLK `e` on the S scale (R211). -/
def eclkS (e : Nat) : Nat := 8192 * e + 32768

/-- S_trig of a vector (R212, R214). -/
def vectorS (period v : Nat) : Nat := v * period + 32768

/-! ### Conditions (R214, R215) -/

/-- Whether an event word is of one of the kinds of a 4-bit set (R193). -/
def kindIn (kinds : Nat) (w : EventWord) : Bool := bit kinds (b2n w.falling + 2 * b2n w.input)

/-- Whether an event word qualifies for a stamp condition; `interval` is its distance from the previous stamp of
its pin (R215). -/
def stampQualifies (p : Bytes) (b i : Nat) (w : EventWord) (interval : Option Nat) : Bool :=
  let o := 0x350 + 8 * i
  let test := sqlField p b (o + 2) 1
  let limit := sqlField p b (o + 4) 4
  w.channel = 32 * b + sqlField p b o 1 && kindIn (sqlField p b (o + 1) 1) w &&
    (test = 0 || match interval with
      | none => false
      | some x => if test = 1 then x < limit else limit ≤ x)

/-- The trigger vector and S_trig of source 5: the start of the present ECLK (R214). -/
def eclkTrigger (period e : Nat) : Nat × Nat := (firstVector period e, eclkS e)

/-- The entries of times[] whose Zenith time has come by the present ECLK of the domain, as a mask: one that has come stays so,
whatever a later step of the clock does (R214). -/
def timesReached (s : State) (b : Nat) (p : Bytes) (x : Dom) : Nat :=
  let now := zUnits (eclkTime s x (nowClock x))
  (List.range 4).foldl (fun m i =>
    let t := zUnits { s := sqlField p b (0x390 + 16 * i) 8, ns := sqlField p b (0x398 + 16 * i) 4, frac := 0 }
    if t ≤ now then m ||| 2 ^ i else m) (getSquall s b).times

/-- What a condition sees in the present ECLK: its trigger vector and S_trig where its source is true (R214). -/
def condSees (s : State) (b : Nat) (p : Bytes) (x : Dom) (period c : Nat) : Option (Nat × Nat) :=
  let q := getSquall s b
  let src := c % 16
  let i := c / 16 % 8
  let first (f : Arrival → Option (Nat × Nat)) : Option (Nat × Nat) := q.arrivals.findSome? f
  let here := eclkTrigger period (nowEclk x)
  let event (n : Nat) : Option (Nat × Nat) := first (fun a => match a with
    | .event m t => if m = n ∧ t = clock x then some here else none
    | _ => none)
  if src = 1 then first (fun a => match a with
    | .rows v w =>
      if q.armV ≤ v ∧ (w ^^^ sqlField p b (0x2A0 + 16 * i + 8) 8) &&& sqlField p b (0x2A0 + 16 * i) 8 = 0 then
        some (v, vectorS period v) else none
    | _ => none)
  else if src = 2 then first (fun a => match a with
    | .fails v m => if q.armV ≤ v ∧ m &&& sqlField p b (0x320 + 4 * i) 4 ≠ 0 then some (v, vectorS period v) else none
    | _ => none)
  else if src = 3 then first (fun a => match a with
    | .marker v code =>
      if (code.toNat ^^^ sqlField p b (0x340 + 2 * i) 1) &&& sqlField p b (0x341 + 2 * i) 1 = 0 then
        some (v, vectorS period v) else none
    | _ => none)
  else if src = 4 then first (fun a => match a with
    | .word w t => if stampQualifies p b i w t then some (ceilDiv (w.stamp - 32768) period, w.stamp) else none
    | _ => none)
  else if src = 5 then event i
  else if src = 6 then event (8 + i)
  else if src = 7 then (if bit (timesReached s b p x) i then some here else none)
  else none

/-! ### Closing records (R219, R220) -/

/-- The samples of a pin-state record, two bits per recorded pin and vector (R220). -/
def sampleBytes (pins : List Nat) (rows : List (Nat × Nat)) : Bytes :=
  let digits := (rows.map (fun r => pins.map (fun p => r.2 / 4 ^ p % 4))).flatten
  le (ceilDiv (2 * digits.length) 8) (digits.foldr (fun d acc => d + 4 * acc) 0)

/-- Close the pin-state record of bank `b` with flag bits `fl` (R219, R220). -/
def closeRecord (s : State) (b fl : Nat) : State :=
  let q := getSquall s b
  match q.record, planOf s b with
  | some r, some (_, p) =>
    let pins := sqlPins p b
    let pre := sqlPre p b
    let post := sqlPost p b
    let kept := match r.trig with
      | some t => r.rows.filter (fun x => t - min pre (t - r.armV) ≤ x.1 ∧ x.1 < t + post)
      | none => r.rows.drop (r.rows.length - (pre + post))
    let preN := match r.trig with
      | some t => (kept.filter (fun x => x.1 < t)).length
      | none => kept.length
    let first := (kept.head?.map Prod.fst).getD r.armV
    let samples := sampleBytes pins kept
    let flags := fl + (if r.trig = none then 8 else 0) + (if r.force then 16 else 0)
    let t := if r.trig = none then ZTime.zero else r.trigAt
    let data := le 1 4 ++ le 1 b ++ le 2 flags ++ le 4 r.number ++ le 4 (sqlField p b 4 4) ++ le 1 pins.length ++
      le 1 r.state ++ le 2 0 ++ le 8 ((r.trig.getD (2 ^ 48 - 1)) % 2 ^ 48) ++ le 8 (first % 2 ^ 48) ++ le 4 preN ++
      le 4 (kept.length - preN) ++ le 8 t.s ++ le 4 t.ns ++ le 4 samples.length ++ le 8 0 ++ samples
    setSquall s b { q with
      record := none, recNo := q.recNo + 1
      closed := q.closed ++ [{ number := q.recNo, isRec := true, data := data, space := 0, sent := 0 }] }
  | _, _ => s

/-! ### Closing segments (R221 to R224) -/

/-- The bytes of an event word (R190). -/
def eventBytes (w : EventWord) : Bytes :=
  le 8 w.stamp ++ le 2 w.channel ++ le 1 (b2n w.input + 2 * b2n w.falling + 4 * b2n w.merged + 8 * b2n w.stale) ++
    le 1 0 ++ le 2 w.lost ++ le 2 0

/-- The stamps of one pin, input and direction in a segment. -/
def stampsOf (ws : List EventWord) (ch : Nat) (input falling : Bool) : List Nat :=
  (ws.filter (fun w => w.channel.val = ch ∧ w.input = input ∧ w.falling = falling)).map EventWord.stamp

/-- The measurements of a segment: edge_count, period_q, high_width, low_width, skew (R222). -/
def measure (p : Bytes) (b : Nat) (ws : List EventWord) : Nat × Nat × Nat × Nat × Nat :=
  let pin := 32 * b + sqlField p b 0x15 1
  let ref := 32 * b + sqlField p b 0x16 1
  let input := bit (sqlField p b 0x17 1) 0
  let rise := stampsOf ws pin input false
  let fall := stampsOf ws pin input true
  let after (a : List Nat) (l : List Nat) : Nat :=
    match a with
    | [] => 0xFFFFFFFF
    | x :: _ => match l.find? (fun y => x < y) with
      | some y => y - x
      | none => 0xFFFFFFFF
  let k := rise.length
  let period := if k < 2 then 0xFFFFFFFF
    else (roundDiv ((16 * (rise.getLastD 0 - rise.headD 0) : Nat) : Int) (k - 1)).toNat
  let skew : Nat := match rise, stampsOf ws ref input false with
    | x :: _, y :: _ => if pin = ref then 0x80000000 else unsigned 32 ((x : Int) - y)
    | _, _ => 0x80000000
  ((ws.filter (fun w => w.channel.val = pin)).length, period, after rise fall, after fall rise, skew)

/-- The mask windows a segment violates; `stopS` is the S at which it stopped collecting early (R223). -/
def maskResult (p : Bytes) (b trigS : Nat) (stopS : Option Nat) (ws : List EventWord) : Nat :=
  ((List.range 8).map (fun w =>
    let o := 0x3D0 + 16 * w
    let rule := sqlField p b (o + 2) 1
    let lo := trigS + sqlField p b (o + 4) 4
    let hi := trigS + sqlField p b (o + 8) 4
    let n := (ws.filter (fun x => x.channel.val = 32 * b + sqlField p b o 1 ∧
      kindIn (sqlField p b (o + 1) 1) x ∧ lo ≤ x.stamp ∧ x.stamp < hi)).length
    let skipped : Bool := match stopS with
      | some t => t < hi
      | none => false
    if bit rule 7 && !skipped && (if bit rule 0 then 0 < n else n = 0) then 2 ^ w else 0)).sum

/-- Close the open segment of bank `b`; `fl` holds the flags that say why (R221 to R224). -/
def closeSegment (s : State) (b fl : Nat) : State :=
  let q := getSquall s b
  match q.seg, planOf s b with
  | some g, some (d, p) =>
    let e := nowEclk (getDom s d)
    let stopS : Option Nat := if fl = 0 then none
      else if fl = 8 then some ((g.words.getLast?.map EventWord.stamp).getD 0)
      else some (eclkS (e - 23))
    let m := maskResult p b g.trigS stopS g.words
    let flags := fl + (if g.words.any EventWord.stale then 16 else 0) + (if m = 0 then 0 else 32)
    let z := measure p b g.words
    let data := le 1 5 ++ le 1 b ++ le 2 flags ++ le 4 g.number ++ le 8 g.trigS ++ le 8 g.trigAt.s ++ le 4 g.trigAt.ns ++
      le 4 g.missed ++ le 6 g.trigV ++ le 2 g.words.length ++ le 1 g.source ++ le 1 m ++ le 2 z.1 ++ le 4 z.2.1 ++
      le 4 z.2.2.1 ++ le 4 z.2.2.2.1 ++ le 4 z.2.2.2.2 ++ le 4 0 ++ (g.words.map eventBytes).flatten
    let s := regBump s (Reg.sqlSegs b) 0 32 1
    setSquall s b { q with
      seg := none, recNo := q.recNo + 1, segs := q.segs + 1, gap := true, gapEnd := e + 512
      noSeg := q.noSeg || (m ≠ 0 && sqlMaskStop p b), halted := q.halted || (m ≠ 0 && sqlMaskStop p b)
      freeSeg := q.freeSeg - data.length
      closed := q.closed ++ [{ number := q.recNo, isRec := false, data := data, space := data.length, sent := 0 }] }
  | _, _ => s

/-! ### The input buffer (R225) -/

/-- A trigger of the present ECLK is not taken: the record that took it stands untriggered, and the segment it opened is gone
(R225). -/
def untake (q : Squall) (x : Dom) : Squall :=
  let q := match q.record with
    | some r => if r.trig.isSome ∧ r.trigE = x.eclk then
        { q with record := some { r with trig := none, trigAt := .zero, state := 0, force := false } } else q
    | none => q
  match q.seg with
  | some g => if g.openE = nowEclk x then { q with seg := none, missed := g.missed } else q
  | none => q

/-- Squall `b` overflows: the open record and segment close, flagged overflow, the sequencer halts until the
next arm, and a trigger of this ECLK is not taken (R225). -/
def overflow (s : State) (b : Nat) : State :=
  let s := match (getSquall s b).dom with
    | some d => setSquall s b (untake (getSquall s b) (getDom s d))
    | none => s
  let s := closeSegment (closeRecord s b 1) b 1
  let q := getSquall s b
  let s := regPut (setSquall s b { q with halted := true, stopV := some 0, arrivals := [] }) (Reg.sqlStat b) 12 1 1
  match q.dom with
  | some d => setDom s d { getDom s d with flags := (getDom s d).flags ||| 4 }
  | none => s

/-- `n` bits arrive in the input buffer of 65,536 bytes; whether they fit, and the state with the fill and the
highest fill noted (R225, R229). What the buffer may still drain in this ECLK leaves as they arrive: DEDUCED from the worked
example of R225, which overflows 16,384 ECLK after recording begins. -/
def buffer (s : State) (b n : Nat) : Bool × State :=
  let q := getSquall s b
  let out := min q.drain (q.fill + n)
  let fill := q.fill + n - out
  if 524288 < fill then (false, overflow s b)
  else
    let s := setSquall s b { q with fill := fill, drain := q.drain - out }
    (true, regPut s (Reg.sqlFifo b) 0 17 (max (regField s (Reg.sqlFifo b) 0 17) (ceilDiv fill 8)))

/-! ### Triggers (R216, R217, R219, R221) -/

/-- Insert an event word in ascending S and then ascending channel order (R221). -/
def insertWord (w : EventWord) : List EventWord → List EventWord
  | [] => [w]
  | x :: r => if w.stamp < x.stamp ∨ (w.stamp = x.stamp ∧ w.channel < x.channel) then w :: x :: r else x :: insertWord w r

/-- An open segment collects a word within its window (R221, R225). Of the words of one ECLK, which come in any order, a full
segment keeps those of the lowest S and channel. -/
def collectWord (s : State) (b : Nat) (p : Bytes) (x : Dom) (w : EventWord) : State :=
  match (getSquall s b).seg with
  | some g =>
    if g.openE + sqlWindow p b < nowEclk x then s
    else if g.words.length < sqlMaxEvents p b then
      let r := buffer s b 128
      if r.1 then setSquall r.2 b { getSquall r.2 b with seg := some { g with words := insertWord w g.words } } else r.2
    else setSquall s b { getSquall s b with seg := some { g with words := (insertWord w g.words).dropLast } }
  | none => s

/-- The event words that arrived in the present ECLK, in ascending S and channel order. -/
def wordsOf (q : Squall) : List EventWord :=
  q.arrivals.foldl (fun l a => match a with
    | .word w _ => insertWord w l
    | _ => l) []

/-- A segment opens, with the words that arrive in this ECLK, or the trigger is missed (R221). -/
def openSegment (s : State) (b : Nat) (p : Bytes) (x : Dom) (v trigS src : Nat) : State :=
  let q := getSquall s b
  let e := nowEclk x
  if sqlSegUnits p b ≠ 0 ∧ q.seg = none ∧ ¬ (q.gap ∧ e ≤ q.gapEnd) ∧ ¬ q.noSeg ∧ 64 + 16 * sqlMaxEvents p b ≤ q.freeSeg then
    let s := setSquall s b { q with
      missed := 0, gap := false
      seg := some { number := q.segs, trigS := trigS, trigV := v, trigAt := eclkTime s x (nowClock x), source := src,
                    missed := q.missed, openE := e, words := [], flags := 0, mask := 0 } }
    (wordsOf q).foldl (fun s w => collectWord s b p x w) s
  else regBump (setSquall s b { q with missed := satAdd 32 q.missed 1 }) (Reg.sqlMissed b) 0 16 1

/-- A trigger is raised (R217): it is counted, event 16 + b sets its latches in the next ECLK, which is the present one of
the domain's clock, and the open record
and the segments take it, unless a stop of this ECLK comes before it (`take`). At most one is taken in an ECLK. -/
def raiseTrigger (s : State) (b v trigS : Nat) (force take : Bool) : State :=
  match planOf s b with
  | none => s
  | some (d, p) =>
    let x := getDom s d
    let q := getSquall s b
    if q.trigEclk = some x.eclk then s
    else
      let src := b2n force + q.state * 16
      let s := setEvent (regBump s (Reg.sqlTrig b) 0 32 1) (16 + b) 1
      let q := { getSquall s b with trigEclk := some x.eclk }
      if ¬ take then setSquall s b q
      else
      let q := match q.record with
        | some r =>
          if r.trig = none then
            { q with record := some { r with
                trig := some v, trigE := x.eclk, trigAt := eclkTime s x (nowClock x), state := q.state, force := force } }
          else q
        | none => q
      openSegment (setSquall s b q) b p x v trigS src

/-- The conditions C0 to C3 of a state: whether each is used, what its source sees, and its value (R214). -/
def condsOf (s : State) (b : Nat) (p : Bytes) (x : Dom) (period st : Nat) : List (Bool × Option (Nat × Nat) × Bool × Bool) :=
  (List.range 4).map (fun i =>
    let c := sqlState p b st (2 * i) 2
    let see := condSees s b p x period c
    (c % 16 ≠ 0, see, bit c 7, c % 16 ≠ 0 && (if bit c 7 then see.isNone else see.isSome)))

/-- The exit that acts: the lowest-numbered enabled one that fires (R216). -/
def actingExit (p : Bytes) (b st : Nat) (fired : List Bool) : Option Nat :=
  (List.range 4).find? (fun i => fired.getD i false && bit (sqlState p b st (0xA + i) 1) 6)

/-- Run the sequencer of bank `b` for the present ECLK, unless it has run or is idle or halted (R216). Where a stop acts in this
ECLK, a trigger whose vector is `limit` or later is not taken (R212). -/
def sequencer (s : State) (b : Nat) (limit : Option Nat) : State :=
  match planOf s b with
  | none => s
  | some (d, p) =>
    let x := getDom s d
    let q := getSquall s b
    if x.eclk ≤ q.eclk then s
    else
      let s := setSquall s b { q with eclk := x.eclk }
      if ¬ q.armed ∨ q.halted then s
      else
        let period := jobPeriod s x.payload
        let st := q.state
        let cs := condsOf s b p x period st
        let used := cs.filter Prod.fst
        let m : Bool := used = [] || (if bit (sqlState p b st 8 1) 0 then used.any (fun c => c.2.2.2) else used.all (fun c => c.2.2.2))
        let src (n : Nat) : Bool := if n = 1 then m else if 2 ≤ n ∧ n ≤ 5 then (cs.map (fun c => c.2.2.2)).getD (n - 2) false else false
        let s0 := src (sqlState p b st 9 1 % 16)
        let s1 := src (sqlState p b st 9 1 / 16)
        let cnt0 := q.cnt0 + b2n s0
        let cnt1 := q.cnt1 + b2n s1
        let fired := [s0 && cnt0 = sqlState p b st 0x10 6 + 1, s1 && cnt1 = sqlState p b st 0x18 6 + 1,
          q.tmr0 + 1 = sqlState p b st 0x20 4 + 1, q.tmr1 + 1 = sqlState p b st 0x24 4 + 1]
        match actingExit p b st fired with
        | none => setSquall s b { q with eclk := x.eclk, cnt0 := cnt0, cnt1 := cnt1, tmr0 := q.tmr0 + 1, tmr1 := q.tmr1 + 1 }
        | some i =>
          let ex := sqlState p b st (0xA + i) 1
          let hit := (cs.findSome? (fun c => if c.2.2.1 then none else if c.1 then c.2.1 else none)).getD
            (eclkTrigger period (nowEclk x))
          let late : Bool := limit.any (fun v => decide (v ≤ hit.1))
          let s := if bit ex 4 then raiseTrigger s b hit.1 hit.2 false (!late) else s
          let q := getSquall s b
          if bit ex 5 then setSquall s b { q with halted := true }
          else setSquall s b { q with state := ex % 16, cnt0 := 0, cnt1 := 0, tmr0 := 0, tmr1 := 0 }

/-! ### CAPT actions (R212) -/

/-- The order of the actions of one vector. -/
def captRank : CaptAction → Nat
  | .arm => 0 | .force => 1 | .stop => 2

/-- Insert an action in the order in which actions apply: by vector, then arm, force trigger, stop. -/
def insertCapt (a : Nat × CaptAction) : List (Nat × CaptAction) → List (Nat × CaptAction)
  | [] => [a]
  | x :: r => if a.1 < x.1 ∨ (a.1 = x.1 ∧ captRank a.2 < captRank x.2) then a :: x :: r else x :: insertCapt a r

/-- The first arm of a bank starts its Virga runs with start 1: stamping begins at S `from_` (R197). -/
def armVirgas (s : State) (b from_ : Nat) : State :=
  { s with virgas := tmap Virga.init (fun ch v =>
      if v.active ∧ ch / 32 = b ∧ fld v.entry 7 1 = 1 ∧ v.from_ = none then { v with from_ := some from_ } else v) s.virgas }

/-- An arm acts at vector `v` (R212). -/
def armSquall (s : State) (b v : Nat) : State :=
  match planOf s b with
  | some (d, p) =>
    let q := getSquall s b
    let units := sqlStateUnits p b
    if units ≠ 0 ∧ (q.record.isSome ∨ q.closed.any CapRec.isRec) then regBump s (Reg.sqlMissed b) 16 16 1
    else
      let new : Option StateRec := if units = 0 then q.record
        else some { number := q.arms, armV := v, trig := none, trigE := 0, trigAt := .zero, state := 0, force := false, flags := 0, rows := [] }
      let s := armVirgas s b (eclkS (nowEclk (getDom s d) + 600))
      setSquall s b { q with
        armed := true, halted := false, armV := v, state := sqlField p b 0x18 1, cnt0 := 0, cnt1 := 0, tmr0 := 0,
        tmr1 := 0, eclk := (getDom s d).eclk, stopV := none, noSeg := false
        record := new, arms := if units = 0 then q.arms else q.arms + 1 }
  | none => s

/-- A force trigger acts at vector `v` (R212). -/
def forceSquall (s : State) (b v : Nat) : State :=
  let q := getSquall s b
  match q.dom with
  | some d =>
    if q.armed ∧ q.stopV = none then raiseTrigger s b v (vectorS (jobPeriod s (getDom s d).payload) v) true true else s
  | none => s

/-- A stop acts at vector `v` (R212): the sequencer runs for this ECLK with the triggers before `v`, then what is open closes
and the sequencer halts. With nothing open it has no effect. -/
def stopSquall (s : State) (b v : Nat) : State :=
  if (getSquall s b).record.isSome ∨ (getSquall s b).seg.isSome then
    let s := sequencer s b (some v)
    let s := closeSegment (closeRecord s b 2) b 2
    setSquall s b { getSquall s b with halted := true, stopV := some v }
  else s

/-- An action acts. -/
def actCapt (s : State) (b : Nat) (c : Nat × CaptAction) : State :=
  match c.2 with
  | .arm => armSquall s b c.1
  | .force => forceSquall s b c.1
  | .stop => stopSquall s b c.1

/-- A command takes the action `a` at vector `v` where it is the next of its bank to act. -/
def takeCapt (s : State) (b v : Nat) (a : CaptAction) : State :=
  let q := getSquall s b
  match q.capts with
  | c :: r => if c = (v, a) then actCapt (setSquall s b { q with capts := r }) b c else s
  | [] => s

/-- SQUALL_ARM (R212). -/
def execSquallArm (b : Fin 8) (v : Nat) (s : State) : Host.Outcome State Fault Refusal := .next (takeCapt s b v .arm)

/-- SQUALL_FORCE_TRIGGER (R212). -/
def execSquallForceTrigger (b : Fin 8) (v : Nat) (s : State) : Host.Outcome State Fault Refusal := .next (takeCapt s b v .force)

/-- SQUALL_STOP (R212). -/
def execSquallStop (b : Fin 8) (v : Nat) (s : State) : Host.Outcome State Fault Refusal := .next (takeCapt s b v .stop)

/-! ### One ECLK -/

/-- An event word reaches the Squall of bank `b` (R211, R221). -/
def arriveWord (s : State) (b : Nat) (e : Nat × EventWord) : State :=
  let q := getSquall s b
  let w := e.2
  let ch := w.channel.val
  let last := tget 0 q.lastWord ch
  let iv := if last = 0 then none else some ((w.stamp + 2 ^ 64 - (last - 1)) % 2 ^ 64)
  let s := setSquall s b { q with
    incoming := q.incoming.erase e, lastWord := tset 0 q.lastWord ch (w.stamp + 1)
    arrivals := if q.armed then q.arrivals ++ [.word w iv] else q.arrivals }
  match planOf s b with
  | some (d, p) => collectWord s b p (getDom s d) w
  | none => s

/-- The event words of bank `b` that are due in the present ECLK arrive (R211). -/
def arriveDue (s : State) (b : Nat) (x : Dom) : State :=
  let q := getSquall s b
  (q.incoming.filter (fun e => e.1 ≤ nowEclk x)).foldl (fun s e => arriveWord s b e) s

/-- The present ECLK of bank `b`: the words due arrive, the actions that have not acted do so, and the sequencer runs
(R211, R212, R216, R217). -/
def squallRun (s : State) (b : Nat) : State :=
  match (getSquall s b).dom with
  | some d =>
    let s := arriveDue s b (getDom s d)
    let q := getSquall s b
    let s := q.capts.foldl (fun s c => actCapt s b c) (setSquall s b { q with capts := [] })
    sequencer s b none
  | none => s

/-- A memory of bank `b`'s Squall meets a parity error: the job ends DISCARDED with source 0x0701 as after a machine check. `ok`
tells whether the test that follows the job passes (R228). -/
def squallParity (s : State) (b d : Nat) (ok : Bool) : State :=
  let q := getSquall s b
  unitCheck (regPut (setSquall s b { q with closed := [], record := none, seg := none, test := some ok }) (Reg.sqlStat b) 13 1 1) d 0x0701

/-- TRIGGER_EXIT: the present ECLK of a Squall, once all that arrives in it has arrived (R216, R217). Where its tables or its
input buffer meet a parity error, the job ends (R228). -/
def execTriggerExit (b : Fin 8) (parity : Option Bool) (s : State) : Host.Outcome State Fault Refusal :=
  match parity, (getSquall s b).dom with
  | some ok, some d => .next (squallParity s b d ok)
  | _, _ => .next (squallRun s b)

/-- The end of an ECLK of a domain: the Squalls that have not run do, what arrived is forgotten, and each input
buffer drains what is left of its 64 bytes (R216, R225). -/
def squallEclk (s : State) (d : Nat) : State :=
  (List.range 8).foldl (fun s b =>
    if (getSquall s b).dom = some d then
      let s := squallRun s b
      let q := getSquall s b
      setSquall s b { q with
        fill := q.fill - q.drain, drain := 512
        times := match planOf s b with
          | some (_, p) => timesReached s b p (getDom s d)
          | none => q.times
        arrivals := q.arrivals.filter (fun a => match a with
          | .event _ t => clock (getDom s d) < t
          | _ => false) }
    else s) s

/-! ### Arrivals -/

/-- The readings of a vector, and its pin fails, reach the Squall of bank `b` (R211, R219, R225). -/
def rowArrives (s : State) (b v word fails : Nat) : State :=
  match planOf s b with
  | none => s
  | some (_, p) =>
    let q := getSquall s b
    if ¬ q.armed then s
    else
      let new := [Arrival.rows v word] ++ (if fails = 0 then [] else [Arrival.fails v fails])
      let s := setSquall s b { q with arrivals := q.arrivals ++ new }
      match q.record with
      | none => s
      | some r =>
        if v < r.armV then s
        else
          let r' := buffer s b (2 * (sqlPins p b).length)
          if r'.1 then
            let s := r'.2
            let q := getSquall s b
            let cap := sqlStateUnits p b * 524288 / (2 * (sqlPins p b).length)
            let rows := r.rows ++ [(v, word)]
            setSquall s b { q with record := some { r with rows := rows.drop (rows.length - cap) } }
          else r'.2

/-- EVENT_WORD_ARRIVAL: an event word on its way reaches the Squall in its ECLK; an open segment collects it within its window
(R211, R221). -/
def execEventWordArrival (b : Fin 8) (word : EventWord) (s : State) : Host.Outcome State Fault Refusal :=
  let q := getSquall s b
  match q.dom, q.incoming.find? (fun e => e.2 = word) with
  | some d, some e => if e.1 ≤ nowEclk (getDom s d) then .next (arriveWord s b e) else .next s
  | _, _ => .next s

/-! ### Endings and readout -/

/-- Whether slot `d`'s job records no further reading: it has ended, its pins stand parked and its last vector is judged (R117,
R226); or its domain is in keep-alive and the readings before it have arrived (R219, R227). -/
def settled (s : State) (d : Nat) : Bool :=
  let x := getDom s d
  x.ended.isSome && (if x.keep.isSome then x.flight = [] else allParked s d && !judging x)

/-- SEGMENT_CLOSE: the window has passed, seg_max_events words are in, or the job has ended, in keep-alive as its pins park (R221,
R224, R227). The words due in the present ECLK have then arrived. -/
def execSegmentClose (b : Fin 8) (s : State) : Host.Outcome State Fault Refusal :=
  let s := match (getSquall s b).dom with
    | some d => arriveDue s b (getDom s d)
    | none => s
  match (getSquall s b).seg, planOf s b with
  | some g, some (d, p) =>
    let x := getDom s d
    if sqlMaxEvents p b ≤ g.words.length then .next (closeSegment s b 8)
    else if g.openE + sqlWindow p b ≤ nowEclk x then .next (closeSegment s b 0)
    else if settled s d ∧ allParked s d then .next (closeSegment s b 4)
    else .next s
  | _, _ => .next s

/-- REARM_GAP_END: 512 ECLK after the closing ECLK the gap has passed (R221). -/
def execRearmGapEnd (b : Fin 8) (s : State) : Host.Outcome State Fault Refusal :=
  let q := getSquall s b
  match q.dom with
  | some d => if q.gap ∧ q.gapEnd < nowEclk (getDom s d) then .next (setSquall s b { q with gap := false }) else .next s
  | none => .next s

/-- PIN_STATE_RECORD_COMPLETE: the readings of vector t + post_vectors − 1 have arrived, or the job has ended
(R219). -/
def execPinStateRecordComplete (b : Fin 8) (s : State) : Host.Outcome State Fault Refusal :=
  match (getSquall s b).record, planOf s b with
  | some r, some (d, p) =>
    match r.trig with
    | some t =>
      if r.rows.any (fun x => t + sqlPost p b ≤ x.1 + 1) then .next (closeRecord s b 0)
      else if settled s d then .next (closeRecord s b 4)
      else .next s
    | none => if settled s d then .next (closeRecord s b 4) else .next s
  | _, _ => .next s

/-- Send the next fragment of the oldest closed record: at most 65,504 bytes, the last one flagged (R297). A
shadow sends none (R439). -/
def sendFragment (s : State) (b d : Nat) (q : Squall) (c : CapRec) (r : List CapRec) : State :=
  let n := min 65504 (c.data.length - c.sent)
  let part := (c.data.drop c.sent).take n
  let last := c.sent + n = c.data.length
  let q := if last then { q with closed := r, freeSeg := q.freeSeg + c.space }
    else { q with closed := { c with sent := c.sent + n } :: r }
  let s := setSquall s b q
  if shadow s then s
  else commitFrame s (35 + b) 0x44 (if last then 1 else 0) (getDom s d).tag (resultHead 4 d b n c.number c.sent ++ part)

/-- CAPTURE_SEND: a closed record leaves in CAPTURE fragments (R226, R297). Where the read of the capture memory
meets a parity error, the job ends DISCARDED with source 0x0701; `parity` then tells whether the test of the
Squall's memories passes (R228). -/
def execCaptureSend (b : Fin 8) (parity : Option Bool) (s : State) : Host.Outcome State Fault Refusal :=
  let q := getSquall s b
  match q.dom, q.closed with
  | some d, c :: r =>
    match parity with
    | none => .next (sendFragment s b d q c r)
    | some ok => .next (squallParity s b d ok)
  | _, _ => .next s

end Sys2Proof.Machine
end

