-- ==== Sys2Proof/Machine/Fails.lean ====
section
/-! DEFINITION. What a failing vector of a site does (chapter 07): the site fail count, the accumulator, the
vector fail record and the stop policy. -/

namespace Sys2Proof.Machine

/-- A failing vector of a site as its judgement becomes visible: the vector, the item then current, the number
of failing pins, the failing-pin set, the PA64 of its Cumulus op, and whether a `MATCH` timeout placed it. -/
structure Failing where
  v       : Nat
  item    : Nat
  pins    : Nat
  set     : Bytes
  pa      : Option Nat
  timeout : Bool
  deriving DecidableEq, Repr

/-- The failing-pin set of R176: one bit per site pin, ⌈p ÷ 8⌉ bytes. -/
def failSet (pins : List Nat) (failed : Nat → Bool) : Bytes :=
  let n := ((List.range pins.length).map (fun j => if failed (pins.getD j 0) then 2 ^ j else 0)).sum
  le (ceilDiv pins.length 8) n

/-- The kind 0x02 record of a failing vector (R182). -/
def failRecord (k : Nat) (x : Failing) (limit : Bool) (first : Nat) : Bytes :=
  le 1 2 ++ le 1 k ++ le 2 x.item ++ le 2 x.pins ++
    le 2 (b2n limit + 2 * b2n x.pa.isSome + 4 * b2n x.timeout) ++ le 8 (x.v % 2 ^ 48) ++
    (x.set ++ List.replicate (32 - x.set.length) 0) ++ le 2 first ++ le 14 0

/-- Whether Nimbus makes no further record for a job (R91, R134). -/
def silent (x : Dom) : Bool :=
  match x.ended with
  | some e => !(e.reports || e.logs)
  | none => false

/-- Write the vector fail record of a failing vector while the site has records left (R182). -/
def logFail (s : State) (d k : Nat) (x : Failing) : State :=
  let p := (getDom s d).payload
  let y := getSite s d k
  let most := 2 ^ (jobVlog p - 1)
  if jobVlog p = 0 ∨ most ≤ y.records ∨ silent (getDom s d) then s
  else
    let r := failRecord k x (y.records + 1 = most) ((sitePins p k).headD 0)
    addRecord (setSite s d k { y with records := y.records + 1 }) d 8 r

/-- The ECLK after vector 0 in which the judgement of vector `v` becomes visible (R148, R169). -/
def visibleEclk (s : State) (x : Dom) (v : Nat) : Nat := (v + x.ret) * jobPeriod s x.payload / 8192

/-- Record a stop at vector `v` by site `k`: CMP_STOP_n keeps the first stop of its job, and of the sites that reach N in one
ECLK the lowest (R172, R186). -/
def recordStop (s : State) (d k v : Nat) : State :=
  let x := getDom s d
  let w := (regGet s (Reg.cmpStop d)).toNat
  let first := bits w 25 10 * 2 ^ 32 + (regGet s (Reg.cmpStopVec d)).toNat
  if bit w 31 ∧ ¬ (visibleEclk s x first = visibleEclk s x v ∧ k < bits w 7 0) then s
  else
    let word := k % 256 + jobStopMode x.payload * 256 + v / 2 ^ 32 % 65536 * 1024 + 2 ^ 31
    regSet (regSet s (Reg.cmpStop d) (BitVec.ofNat 32 word)) (Reg.cmpStopVec d) (BitVec.ofNat 32 v)

/-- Present a stop event in the ECLK in which vector v + R starts (R171, R172): to the site alone in mode 1, to every site in
mode 2, once. -/
def presentStop (s : State) (d k v : Nat) : State :=
  let x := getDom s d
  let y := getSite s d k
  let mode := jobStopMode x.payload
  let at_ := some (visibleEclk s x v + 5)
  if siteGone y ∨ y.stopSent ∨ (mode ≠ 1 ∧ mode ≠ 2) then s
  else if mode = 1 then recordStop (setSite s d k { y with stopDue := at_, stopSent := true }) d k v
  else if x.stopSent then recordStop s d k v
  else
    let s := (activeSites s d).foldl (fun s j => setSite s d j { getSite s d j with stopDue := at_ }) s
    recordStop (setDom s d { x with stopSent := true }) d k v

/-- Count a failing vector of a site (R167, R169, R171, R176). -/
def countFail (s : State) (d k : Nat) (x : Failing) : State :=
  let y := getSite s d k
  let s := setSite s d k { y with
    failCount := satAdd 32 y.failCount 1, acc := y.acc ++ [{ v := x.v, set := x.set, pa := x.pa }] }
  let s := logFail s d k x
  if y.failCount + 1 = jobStopAt (getDom s d).payload then presentStop s d k x.v else s

/-- The single fail of a `MATCH` timeout (R60, R176). -/
def timeoutFail (s : State) (d k v item : Nat) : State :=
  let p := (getDom s d).payload
  let s := setSite s d k { getSite s d k with mFail := none }
  countFail s d k { v := v, item := item, pins := 0, set := failSet (sitePins p k) (fun _ => false),
                    pa := none, timeout := true }

end Sys2Proof.Machine
end

