-- ==== Sys2Proof/Machine/Sequence.lean ====
section
/-! DEFINITION. The sequence words (chapter 02): emission, loops, calls, jumps, waiting words, barriers, setting
words and the program errors. A word command carries the word at NSA, and acts only where the image spells it there; it
queues the whole emission as one `Run`. A word that acts after its emission (R46), and one whose decision is open (an
interlocked `JSC`, a `MATCH`, a `WAIT`), takes a second command of the same word. The word commands of an ECLK come before
its VECTOR_POP. -/

namespace Sys2Proof.Machine

/-! ### The job's images -/

def seqImage (s : State) (p : Bytes) : Bytes := (getImage s (jobSeq p)).data
def strImage (s : State) (p : Bytes) : Bytes := (getImage s (jobStreams p)).data
def timImage (s : State) (p : Bytes) : Bytes := (getImage s (jobTiming p)).data
def cumImage (s : State) (p : Bytes) : Bytes := (getImage s (jobCum p)).data

/-- Vectors of an open-ended run, which a later exit cuts. -/
def openRun : Nat := 2 ^ 48

/-- d = ⌈32,768 ÷ P⌉, the vectors of 4 ECLK (R62). -/
def dVec (s : State) (d : Nat) : Nat := ceilDiv 32768 (jobPeriod s (getDom s d).payload)

/-! ### Program errors (R73, R75) -/

/-- Record an abnormal end in CIR_DOM_END and CIR_DOM_ENDPOS (R75). -/
def recordEnd (s : State) (d kind k addr : Nat) : State :=
  let ch := (sitePins (getDom s d).payload k).headD 0
  let s' := regSet s (Reg.domEnd d) (BitVec.ofNat 32 (kind + k % 256 * 256 + addr % 256 * 65536))
  noteUndo s (regWrap (regPut s' (Reg.domEndPos d) 0 9 ch) (Reg.domEndPos d) 16 16) d [Reg.domEnd d, Reg.domEndPos d]

/-- The first vector not yet played at an ending in ECLK `c`: `w`, or an earlier one at which a lower ending of the same
ECLK stopped the pins (R73, R92). -/
def earliest (x : Dom) (c w : Nat) : Nat :=
  match x.ended with
  | some e => if x.endClock = c + 1 then min w e.endVector else w
  | none => w

/-- A program error of slot `d` in ECLK `c`, met by site `k` at address `addr`; `w` is the first vector not yet played
(R73). An ending that governs stands (R92). Of a site-locked domain, whose sites meet an error together, it records the
site the command names: a DESIGN CHOICE. -/
def progErrorAt (s : State) (d c k kind addr w : Nat) : State :=
  if ¬ mayDiscard s d c (0x0100 + kind) then s
  else recordEnd (discardAt s d c (0x0100 + kind) (earliest (getDom s d) c w)) d kind k addr

/-- A program error met by a word: in the present ECLK, or, where the word acts once its emission is pushed (`late`), in
the ECLK before it, in which its last block was pushed. -/
def progErrorL (s : State) (d k kind addr : Nat) (late : Bool) : State :=
  if late then progErrorAt s d (clock (getDom s d) - 1) k kind addr (getDom s d).next
  else progErrorAt s d (clock (getDom s d)) k kind addr (vecAhead s d 1)

/-- The flows of a domain. -/
def flowList (x : Dom) : List Nat := if jobFree x.payload then List.range x.sites else [0]

/-- A program error in the present ECLK. -/
def progError (s : State) (d k kind addr : Nat) : State := progErrorL s d k kind addr false

/-! ### Endings of sites (R36, R117, R171, R177) -/

/-- The item in force at vector `v`, the first not yet played. -/
def itemAt (f : Flow) (v : Nat) : Nat :=
  match f.queue.find? (fun r => r.v ≤ v ∧ v < r.v + r.count) with
  | some r => r.item
  | none => f.item

/-- Leave the commits that take effect at `v` or earlier and add the final commit of R177. -/
def finalCommit (y : Site) (v item : Nat) : Site :=
  { y with commits := y.commits.filter (fun c => c.v ≤ v) ++ [{ v := v, item := item }] }

/-- The vector at which a site left the program. -/
def goneVec (y : Site) : Nat := max (y.retired.getD 0) (y.event.getD 0)

/-- Decide the ending of a domain whose sites have all retired or taken an event (R28, R36, R171): CANCELLED
where a site took a cancel, PASS or FAIL otherwise. -/
def settle (s : State) (d : Nat) : State :=
  let x := getDom s d
  if x.phase = .free ∨ x.ended ≠ none ∨ activeSites s d ≠ [] then s
  else
    let ys := (List.range x.sites).map (getSite s d)
    let cancelled := ys.any (fun y => y.event.isSome && !y.stopped)
    endJob s d { status := if cancelled then 2 else 0, reason := if cancelled then 0x32 else 0,
                 endVector := ys.foldl (fun m y => max m (goneVec y)) 0, starveCh := 0xFFFF, reports := true, logs := false }

/-! ### Emission -/

/-- The symbol pin `ch` plays at vector `v` of a run that Cumulus does not feed (R43, R45). -/
def runSym (str : Bytes) (r : Run) (ch v : Nat) : Nat :=
  let o := v - r.v
  let o := if r.block = 0 then o else o % r.block
  match r.src with
  | .const => r.sym
  | .again => tget 0 r.base ch
  | .stream => strSym str ch (tget 0 r.base ch + o)

/-- The marker of a last symbol that a Cumulus run has not delivered yet; the pop of that run resolves it. -/
def openSym : Nat := 16

/-- Whether Cumulus feeds channel `ch` in a run that hands the banks `cum` (R69, R124). -/
def handed (cumImg : Bytes) (cum ch : Nat) : Bool := bit cum (ch / 32) && bit (cumMap cumImg ch) 0

/-- The last symbols after a run that ends before vector `v`. -/
def lastAfter (str cumImg : Bytes) (pins : List Nat) (r : Run) (v : Nat) (last : Tbl Nat) : Tbl Nat :=
  pins.foldl (fun t ch => tset 0 t ch (if handed cumImg r.cum ch then openSym else runSym str r ch (v - 1))) last

/-- The stream positions after `n` symbols taken on every pin. -/
def advance (pins : List Nat) (n : Nat) (pos : Tbl Nat) : Tbl Nat :=
  pins.foldl (fun t ch => tset 0 t ch (tget 0 t ch + n)) pos

/-- The pins of a flow that take their own symbols while the banks `cum` are handed to Cumulus (R69). -/
def ownPins (s : State) (p : Bytes) (fi cum : Nat) : List Nat :=
  (flowPins p fi).filter (fun ch => !handed (cumImage s p) cum ch)

/-- Push `n` vectors: a block of `block` vectors replayed, or one pass where `block` is 0 (R45, R50). -/
def push (s : State) (d fi : Nat) (f : Flow) (src : Src) (sym n block cmp cum : Nat) : Flow :=
  let p := (getDom s d).payload
  if n = 0 then f
  else
    let r : Run := { v := f.nextV, count := n, src := src, sym := sym, block := block,
                     base := (match src with | .stream => f.pos | .again => f.last | .const => []),
                     tset := f.tset, cmp := cmp, item := f.item, mask := f.mask, cum := cum, starve := false }
    let used := if block = 0 then n else min n block
    { f with
      queue := f.queue ++ [r], nextV := f.nextV + n
      pos := if src = .stream then advance (ownPins s p fi cum) used f.pos else f.pos
      last := lastAfter (strImage s p) (cumImage s p) (flowPins p fi) r (f.nextV + n) f.last }

/-- Push the emission of a word that plays it once. -/
def emit (s : State) (d fi : Nat) (f : Flow) (e : Emit) : Flow :=
  push s d fi f e.src e.sym.toNat e.ecount.toNat 0 0 0

/-- Cut the last run at vector `exit`: later slots are withdrawn (R60, R62, R63). -/
def cutRun (s : State) (d fi : Nat) (f : Flow) (exit : Nat) : Flow :=
  let p := (getDom s d).payload
  match f.queue.getLast? with
  | none => { f with nextV := exit, pushed := min f.pushed exit, waits := .none }
  | some r =>
    let r' := { r with count := exit - r.v }
    { f with
      queue := f.queue.dropLast ++ (if r'.count = 0 then [] else [r']), nextV := exit, waits := .none
      pushed := min f.pushed exit, costs := f.costs.filter (fun c => c.1 ≤ exit)
      last := if r'.count = 0 then f.last
        else lastAfter (strImage s p) (cumImage s p) (flowPins p fi) r' exit f.last }

/-! ### Events (R87) and retirement -/

/-- The sites of a flow still in the program; none follows the engines of an event routine. -/
def flowActive (s : State) (d fi : Nat) : List Nat :=
  if (getFlow s d fi).left then [] else (flowSites (getDom s d).payload fi).filter (fun k => !siteGone (getSite s d k))

/-- Whether an event presented in an ECLK is pending in ECLK `c` (R86). -/
def pending (e : Option Nat) (c : Nat) : Bool :=
  match e with
  | some p => p < c
  | none => false

/-- The engines of a site that leaves the flow at vector `w`, in ECLK `c`: from the next ECLK on they run the event routine at
control-store address `ca` (R76, R87). -/
def eventRoutine (f : Flow) (w c ca : Nat) : Flow :=
  { f with
    left := true, queue := [], acts := [], costs := [], waits := .none, nextV := w, pushed := w
    micro := { f.micro with ca := ca, landing := false, rest := 0, ran := c + 1 } }

/-- Site `k` takes an event in the present ECLK: its starve waveform begins at the first vector that starts in the next one,
its final commit is issued, and the queue is withdrawn once no site follows the flow (R87, R177). A `MATCH` timeout fail at a
vector that has still been played counts. The commits that take effect by the event vector stand, and the final commit is to
the item of the first vector not played: R115 says so of keep-alive only, for an event it is a DESIGN CHOICE. -/
def takeEvent (s : State) (d k : Nat) (cancel : Bool) : State :=
  let x := getDom s d
  let fi := flowIx x.payload k
  let f := getFlow s d fi
  let w := vecAhead s d 1
  let y := finalCommit (getSite s d k) w (itemAt f w)
  let s := setSite s d k { y with
    event := some w, stopped := !cancel, cancelDue := none, stopDue := none, mFail := y.mFail.filter (fun m => m.1 < w)
    routine := some (eventRoutine f w (clock x) (if cancel then 0x40 else 0x41)) }
  if flowActive s d fi = [] then setFlow s d fi (cutFlow f w (w + timKeep (timImage s x.payload))) else s

/-- The barrier a flow waits at, by a word or by a microword: whether it is an `APG`'s, its address, and the vector of the
arrival. -/
def barrierOf (f : Flow) : Option (Bool × Nat × Nat) :=
  match f.waits with
  | .barr a v _ => some (false, a, v)
  | .apg a v _ _ _ _ => some (true, a, v)
  | _ => match f.micro.barr, f.micro.barrRel with
    | some m, none => some (false, m)
    | _, _ => match f.micro.apg, f.micro.apgRel with
      | some m, none => some (true, m)
      | _, _ => none

/-- Whether a site owns a pin in a bank of a mask. -/
def ownsPin (s : State) (d banks k : Nat) : Bool := (sitePins (getDom s d).payload k).any (fun n => bit banks (n / 32))

/-- The active sites that an `APG` barrier waits for: those that own a pin in its banks. -/
def apgSites (s : State) (d banks : Nat) : List Nat := (activeSites s d).filter (ownsPin s d banks)

/-- The banks of the `APG` barrier a flow waits at. -/
def apgBanks (f : Flow) : Nat :=
  match f.waits with
  | .apg _ _ banks _ _ _ => banks
  | _ => bits f.micro.ir.toNat 7 0

/-- Keep CUM_STAT true as sites leave (R136, R142): a Cumulus drives no pins once no site that owns one of its bank is left, and
its barrier flag stands while a site waits there. -/
def refreshCums (s : State) (d : Nat) : State :=
  let waitsAt (b k : Nat) : Bool :=
    let f := getFlow s d (flowIx (getDom s d).payload k)
    (barrierOf f).any (fun w => w.1) && bit (apgBanks f) b
  { s with cums := tmap Cum.init (fun b c =>
      let ks := apgSites s d (2 ^ b)
      if c.dom = some d then { c with running := c.running && !ks.isEmpty, barrier := c.barrier && ks.any (waitsAt b) } else c) s.cums }

/-- The pending events of the sites of a flow are taken at a yield; a cancel wins over a stop (R86). -/
def takeEvents (s : State) (d fi : Nat) : State :=
  let c := clock (getDom s d)
  let due (k : Nat) : Bool := pending (getSite s d k).cancelDue c || pending (getSite s d k).stopDue c
  match (flowActive s d fi).filter due with
  | [] => s
  | ks => refreshCums (ks.foldl (fun s k => takeEvent s d k (pending (getSite s d k).cancelDue c)) s) d

/-! ### Barriers (R63, R70, R74, R136) -/

/-- The kind and address of the barrier a flow waits at. -/
def barrierAddr (f : Flow) : Option (Bool × Nat) := (barrierOf f).map (fun b => (b.1, b.2.1))

/-- The vector at which a flow arrived at its barrier. -/
def arrival (f : Flow) : Nat := ((barrierOf f).map (fun b => b.2.2)).getD 0

/-- The vector A of a release: the last arrival or the last retirement, whichever is later. -/
def releaseA (s : State) (d : Nat) (ks : List Nat) : Nat :=
  let gone := ((List.range (getDom s d).sites).map (fun k => goneVec (getSite s d k))).foldl max 0
  ks.foldl (fun m k => max m (arrival (getFlow s d k))) gone

/-- Start the Cumulus of a bank for an `APG` at vector `v` (R69, R124): its first block is prepared in the next ECLK at the
earliest. An entry past the last instruction delivers no vectors. -/
def startCum (s : State) (d b entry v vcount : Nat) : State :=
  setCum s b { getCum s b with
    running := true, barrier := false, ranAt := clock (getDom s d) + 1, next := entry, rpt := 0, start := v, vcount := vcount
    made := 0, fed := 0, wrong := if cumInstrs (cumImage s (getDom s d).payload) ≤ entry then some 0 else none }

/-- The banks set in an 8-bit field. -/
def banksOf (m : Nat) : List Nat := (List.range 8).filter (bit m)

/-- Hand the pins of a flow to Cumulus from vector `v` on (R69). -/
def playApg (s : State) (d fi : Nat) (f : Flow) (e : Emit) (banks vcount : Nat) : State :=
  setFlow s d fi { push s d fi f e.src e.sym.toNat vcount 0 0 banks with waits := .none }

/-- Release a flow from a `BARR` with the vector A (R63, R471). -/
def leaveBarr (s : State) (d k A : Nat) : State :=
  let f := getFlow s d k
  match f.waits with
  | .barr _ _ ec => setFlow s d k (cutRun s d k f (max (A + max ec (dVec s d)) (vecAhead s d 1)))
  | _ => setFlow s d k { f with micro := { f.micro with barrRel := some A } }

/-- Release the `BARR` at which every active site waits (R63, R471). -/
def releaseBarr (s : State) (d : Nat) : State :=
  let act := activeSites s d
  match act.head?.bind (fun k => barrierAddr (getFlow s d k)) with
  | some (false, a) =>
    if act.all (fun k => barrierAddr (getFlow s d k) = some (false, a)) then
      let A := releaseA s d act
      act.foldl (fun s k => leaveBarr s d k A) s
    else s
  | _ => s

/-- Release a flow from an `APG` barrier with the vector A; it runs from `exit` on (R70). -/
def leaveApg (s : State) (d k A exit : Nat) : State :=
  let f := getFlow s d k
  match f.waits with
  | .apg _ _ banks _ vcount e => playApg s d k (cutRun s d k f exit) e banks vcount
  | _ => setFlow s d k { f with micro := { f.micro with apgRel := some A } }

/-- Release the `APG` barrier of site `k` once every site it waits for is at this address (R70, R471). -/
def releaseApg (s : State) (d k : Nat) : State :=
  match barrierAddr (getFlow s d k) with
  | some (true, a) =>
    let ks := apgSites s d (apgBanks (getFlow s d k))
    if ks.contains k ∧ ks.all (fun j => barrierAddr (getFlow s d j) = some (true, a)) then
      let A := releaseA s d ks
      let exit := max (A + dVec s d) (vecAhead s d 1)
      let cums : List (Nat × Nat × Nat) := match (getFlow s d k).waits with
        | .apg _ _ banks entry vcount _ => (banksOf banks).map (fun b => (b, entry, vcount))
        | _ => []
      let s := ks.foldl (fun s j => leaveApg s d j A exit) s
      cums.foldl (fun s b => startCum s d b.1 b.2.1 exit b.2.2) s
    else s
  | _ => s

/-- Whether every active site waits at a barrier, and none has an event to take (R36, R74). -/
def deadlocked (s : State) (d : Nat) : Bool :=
  let act := activeSites s d
  let c := clock (getDom s d)
  act ≠ [] && act.all (fun k => (barrierAddr (getFlow s d k)).isSome &&
    !pending (getSite s d k).cancelDue c && !pending (getSite s d k).stopDue c)

/-- Whether a flow waits at the barrier of a word, which yields in every ECLK (R88). -/
def atBarrier (f : Flow) : Bool :=
  match f.waits with
  | .barr .. | .apg .. => true
  | _ => false

/-- The sites that wait at the barrier of a word take the events pending in the present ECLK (R86, R88). -/
def barrierEvents (s : State) (d : Nat) : State :=
  (activeSites s d).foldl (fun s k => if atBarrier (getFlow s d k) then takeEvents s d k else s) s

/-- Whether the engines of a slot execute words in ECLK `c`: also in the ECLK in which the job ends (R90, R92, R115). -/
def runningAt (x : Dom) (c : Nat) : Bool :=
  x.engines && !x.halted && x.phase ≠ .free && (x.ended.isNone || x.endClock = c + 1)

/-- Whether the engines of a slot execute words in the present ECLK. -/
def running (x : Dom) : Bool := runningAt x (clock x)

/-- Re-examine the barriers of a site-free domain after an arrival, a retirement or an event: the sites that wait take their
pending events, what can be released is, and a deadlock is raised where nothing can be (R36, R74). A site that waits at a
barrier by microwords takes its event at a yield of its own, and there is no deadlock while it has one to take (DESIGN
CHOICE: R74 does not speak of it). -/
def barriers (s : State) (d : Nat) : State :=
  if jobFree (getDom s d).payload ∧ running (getDom s d) then
    let s := releaseBarr (barrierEvents s d) d
    let s := (activeSites s d).foldl (fun s k => releaseApg s d k) s
    if deadlocked s d then
      let k := (activeSites s d).headD 0
      progError s d k 0x2A (((barrierAddr (getFlow s d k)).map Prod.snd).getD 0)
    else s
  else s

/-! ### The frame of a word -/

/-- Whether the sequence image holds the word of a command at an address (R43, R44). -/
def spells (s : State) (d : Fin 16) (k : Fin 256) (addr : Nat) (i : Instr) : Bool :=
  wordInstr d k (progWord (seqImage s (getDom s d).payload) addr) = some i

/-- The ECLK a word costs without a push (R48): base − 1, and one where it emits nothing. -/
def charge (s : State) (d fi base v : Nat) : State :=
  let f := getFlow s d fi
  let n := base - 1 + (if f.nextV = v then 1 else 0)
  if n = 0 then s else setFlow s d fi { f with costs := f.costs ++ [(f.nextV, n)] }

/-- Whether a flow can dispatch a word: it waits in none, and has pushed its vectors and paid its cost (R48). The word
before the entry word takes the first ECLK (R42). -/
def canDispatch (s : State) (d fi : Nat) : Bool :=
  let f := getFlow s d fi
  running (getDom s d) && decide (1 ≤ clock (getDom s d)) && decide (flowActive s d fi ≠ []) && decide (f.waits = .none) &&
    decide (f.pushed = f.nextV) && decide (f.costs = [])

/-- The word `i` of slot `d` in the flow of site `k`, of base cost `base`: pending events are taken first (R86, R87);
then NSA names the word, and `body` carries it out on the flow of index `fi`. Execution past the last word is an error
(R73). A command whose word does not stand at NSA is none of this program, and does nothing. -/
def word (s : State) (d : Fin 16) (k : Fin 256) (i : Instr) (base : Nat) (body : State → Nat → Flow → State) : State :=
  let x := getDom s d
  let fi := flowIx x.payload k
  let past : Bool := progWords (seqImage s x.payload) ≤ (getFlow s d fi).nsa
  if canDispatch s d fi ∧ k < x.sites ∧ (past ∨ spells s d k (getFlow s d fi).nsa i) then
    let s := takeEvents s d fi
    if flowActive s d fi = [] then settle (barriers s d) d
    else
      let f := getFlow s d fi
      if past then progError s d k 0x26 f.sa
      else charge (body s fi { f with sa := f.nsa, nsa := f.nsa + 1 }) d fi base f.nextV
  else s

/-- The second command of a word whose decision is open: events are taken first (R88). -/
def reword (s : State) (d : Fin 16) (k : Fin 256) (i : Instr) (op : Nat) (body : State → Nat → Flow → Nat → State) : State :=
  let x := getDom s d
  let fi := flowIx x.payload k
  if running x ∧ k < x.sites ∧ spells s d k (getFlow s d fi).sa i then
    match (getFlow s d fi).waits with
    | .word o v =>
      if o ≠ op then s
      else
      let s := takeEvents s d fi
      if flowActive s d fi = [] then settle (barriers s d) d else body s fi (getFlow s d fi) v
    | _ => s
  else s

/-- The second command of a word that acts once its emission is pushed and its cost is paid (R46): the act belongs to the
ECLK of the last push, so no event is taken before it. -/
def finish (s : State) (d : Fin 16) (k : Fin 256) (i : Instr) (op : Nat) (act : State → Nat → Flow → State) : State :=
  let x := getDom s d
  let fi := flowIx x.payload k
  let f := getFlow s d fi
  if running x ∧ k < x.sites ∧ spells s d k f.sa i ∧ flowActive s d fi ≠ [] ∧ f.pushed = f.nextV ∧ f.costs = [] then
    match f.waits with
    | .word o _ => if o ≠ op then s else act s fi { f with waits := .none }
    | _ => s
  else s

/-- Whether a flow stands in a word whose decision is open. -/
def inWord (s : State) (d k op : Nat) : Bool :=
  match (getFlow s d (flowIx (getDom s d).payload k)).waits with
  | .word o _ => o = op
  | _ => false

/-- A word that emits and then acts (R46): at once where it emits nothing, and otherwise with a second command. `act` is
told whether it acts late. -/
def emitThen (s : State) (d : Fin 16) (k : Fin 256) (i : Instr) (op base : Nat) (e : Emit)
    (act : Bool → State → Nat → Flow → State) : State :=
  if inWord s d k op then finish s d k i op (act true)
  else word s d k i base (fun s fi f =>
    if e.ecount = 0 then act false s fi f
    else setFlow s d fi { emit s d fi f e with waits := .word op f.nextV })

/-- Close the innermost `n` levels: their marks are released (R52), and bytes of a mark released in the present ECLK are
free from the next one on (R113). -/
def closeLevels (f : Flow) (n : Nat) (late : Bool) : Flow :=
  { f with
    loops := f.loops.drop n
    freed := if late then f.freed else f.freed ++ (f.loops.take n).map Loop.marks }

/-! ### Emission words (R50) -/

/-- NOP. -/
def execNop (d : Fin 16) (k : Fin 256) (s : State) : Host.Outcome State Fault Refusal :=
  .next (word s d k (.nop d k) 1 (fun s fi f => setFlow s d fi f))

/-- VEC. -/
def execVec (d : Fin 16) (k : Fin 256) (e : Emit) (s : State) : Host.Outcome State Fault Refusal :=
  .next (word s d k (.vec d k e) 1 (fun s fi f => setFlow s d fi (emit s d fi f e)))

/-- RPT: the block plays `reps` times (R45, R50). -/
def execRpt (d : Fin 16) (k : Fin 256) (e : Emit) (reps : Nat) (s : State) : Host.Outcome State Fault Refusal :=
  .next (word s d k (.rpt d k e reps) 1 (fun s fi f =>
    setFlow s d fi (push s d fi f e.src e.sym.toNat (e.ecount.toNat * reps) e.ecount.toNat 0 0)))

/-! ### Loops, calls and jumps (R51 to R54) -/

/-- Levels that belong to the callers of the current frame. -/
def frameBase (f : Flow) : Nat :=
  match f.stack with
  | (_, n) :: _ => n
  | [] => 0

/-- The program error a word meets as it acts, where it meets one (R73): `LOOP` with eight levels open, `ENDL` with none in the
current call frame, `CALL` with 16 entries, `RET` with none or at another loop depth, and a branch that closes more levels than
are open. -/
def loopKind (f : Flow) : Option Nat := if 8 ≤ f.loops.length then some 0x20 else none
def endlKind (f : Flow) : Option Nat := if f.loops.length ≤ frameBase f then some 0x21 else none
def callKind (f : Flow) : Option Nat := if 16 ≤ f.stack.length then some 0x23 else none
def retKind (f : Flow) : Option Nat :=
  match f.stack with
  | [] => some 0x24
  | (_, n) :: _ => if f.loops.length ≠ n then some 0x25 else none
def popKind (f : Flow) (lpop : Nat) : Option Nat := if f.loops.length < lpop then some 0x22 else none

/-- Raise the error a word meets as it acts, or let it act. -/
def orError (s : State) (d k fi : Nat) (f : Flow) (late : Bool) (kind : Option Nat) (act : State) : State :=
  match kind with
  | some n => progErrorL (setFlow s d fi f) d k n f.sa late
  | none => act

/-- Continue at `target` after closing the innermost `lpop` levels (R52); kind 0x22 where fewer are open. -/
def branch (s : State) (d k fi : Nat) (f : Flow) (target lpop : Nat) (late : Bool) : State :=
  orError s d k fi f late (popKind f lpop) (setFlow s d fi { closeLevels f lpop late with nsa := target })

/-- LOOP: open a level with `count` iterations and set the rewind marks; kind 0x20 with eight open (R51). -/
def execLoop (d : Fin 16) (k : Fin 256) (e : Emit) (count : Nat) (s : State) : Host.Outcome State Fault Refusal :=
  .next (emitThen s d k (.loop d k e count) 0x04 1 e (fun late s fi f =>
    orError s d k fi f late (loopKind f)
      (setFlow s d fi { f with loops := { count := count, addr := f.sa + 1, marks := f.pos } :: f.loops })))

/-- The stream positions a rewind restores on the pins of a flow. -/
def rewindTo (pins : List Nat) (marks pos : Tbl Nat) : Tbl Nat :=
  pins.foldl (fun t ch => tset 0 t ch (tget 0 marks ch)) pos

/-- A decoder is rewound to symbol `i`: its next start is that of the block that holds it (R111). The rest of a block it was
reading is dropped and counts against no later ECLK: the manual does not say (DESIGN CHOICE). -/
def rewindRing (r : PinRing) (i : Nat) : PinRing := { r with at_ := i, started := i, ready := i, left := 0 }

/-- The decoders of the pins of a flow are rewound to the marks of a level (R111). -/
def rewindRings (s : State) (pins : List Nat) (marks : Tbl Nat) : State :=
  pins.foldl (fun s ch => setRing s ch (rewindRing (getRing s ch) (tget 0 marks ch))) s

/-- ENDL: the next iteration with every stream rewound to the mark, or the level closes; kind 0x21 with no level
open in the current call frame (R51). -/
def execEndl (d : Fin 16) (k : Fin 256) (e : Emit) (s : State) : Host.Outcome State Fault Refusal :=
  .next (emitThen s d k (.endl d k e) 0x05 1 e (fun late s fi f =>
    orError s d k fi f late (endlKind f) (match f.loops with
    | [] => s
    | l :: r =>
      let pins := flowPins (getDom s d).payload fi
      if l.count ≤ 1 then setFlow s d fi (closeLevels f 1 late)
      else setFlow (rewindRings s pins l.marks) d fi { f with
        loops := { l with count := l.count - 1 } :: r, nsa := l.addr, pos := rewindTo pins l.marks f.pos })))

/-- CALL: push the return address with the loop depth; kind 0x23 with 16 entries (R53). -/
def execCall (d : Fin 16) (k : Fin 256) (e : Emit) (target : Nat) (s : State) : Host.Outcome State Fault Refusal :=
  .next (emitThen s d k (.call d k e target) 0x08 2 e (fun late s fi f =>
    orError s d k fi f late (callKind f)
      (setFlow s d fi { f with stack := (f.sa + 1, f.loops.length) :: f.stack, nsa := target })))

/-- RET: continue at the return address; kinds 0x24 and 0x25 (R53, R73). -/
def execRet (d : Fin 16) (k : Fin 256) (e : Emit) (s : State) : Host.Outcome State Fault Refusal :=
  .next (emitThen s d k (.ret d k e) 0x09 2 e (fun late s fi f =>
    orError s d k fi f late (retKind f) (match f.stack with
    | [] => s
    | (a, _) :: r => setFlow s d fi { f with stack := r, nsa := a })))

/-- JMP (R54). -/
def execJmp (d : Fin 16) (k : Fin 256) (e : Emit) (target lpop : Nat) (s : State) : Host.Outcome State Fault Refusal :=
  .next (emitThen s d k (.jmp d k e target lpop) 0x0A 1 e (fun late s fi f => branch s d k fi f target lpop late))

/-! ### Conditional branches (R56 to R59) -/

/-- Whether the interlock of a `JSC` that began at `v` is complete (R56): every vector before it judged, and every
commit issued before it performed, in the sites it looks at. -/
def interlocked (s : State) (d v : Nat) (ks : List Nat) : Bool :=
  v ≤ judgedTo (getDom s d) && ks.all (fun k => (getSite s d k).commits.all (fun c => v < c.v))

/-- The sites a reduction looks at. -/
def reduceSites (s : State) (d k : Nat) : Reduce → List Nat
  | .own => [k]
  | _ => activeSites s d

/-- JSC: plays its emission and branches where the reduced condition equals sense (R56, R57). With a site
condition it plays its block ⌈R ÷ ecount⌉ times and decides once the interlock is complete; with another it evaluates once its
emission is pushed. Kind 0x2B is raised as the word is dispatched, before it emits, and so is kind 0x2C of a `JEV` or a `WAIT`: the
manual names no moment for either (DESIGN CHOICE). -/
def execJsc (d : Fin 16) (k : Fin 256) (e : Emit) (target lpop : Nat) (cond : BitVec 7) (sense : Bool)
    (reduce : Reduce) (s : State) : Host.Outcome State Fault Refusal :=
  let c := cond.toNat
  let i : Instr := .jsc d k e target lpop cond sense reduce
  let decide1 (late : Bool) (s : State) (fi : Nat) (f : Flow) : State :=
    if reduced s d k c reduce = sense then branch s d k fi f target lpop late else setFlow s d fi f
  if inWord s d k 0x0B then
    .next (if c < 0x60 then
        reword s d k i 0x0B (fun s fi f v =>
          if interlocked s d v (reduceSites s d k reduce) then decide1 false s fi { f with waits := .none } else s)
      else finish s d k i 0x0B (decide1 true))
  else .next (word s d k i 1 (fun s fi f =>
    if ¬ jobFree (getDom s d).payload ∧ reduce = .own ∧ (c < 0x60 ∨ c = 0x62) then
      progError (setFlow s d fi f) d k 0x2B f.sa
    else if c < 0x60 then
      let n := ceilDiv (getDom s d).ret e.ecount.toNat * e.ecount.toNat
      let v := f.nextV
      setFlow s d fi { push s d fi f e.src e.sym.toNat n e.ecount.toNat 0 0 with waits := .word 0x0B v }
    else if e.ecount = 0 then decide1 false (setFlow s d fi f) fi f
    else setFlow s d fi { emit s d fi f e with waits := .word 0x0B f.nextV }))

/-- The program error that the word of a flow meets as it acts on the last push of its emission, which is complete (R46, R73). -/
def lateKind (s : State) (d k : Nat) (f : Flow) : Option Nat :=
  let w := progWord (seqImage s (getDom s d).payload) f.sa
  match f.waits with
  | .word op _ =>
    if f.pushed ≠ f.nextV ∨ f.costs ≠ [] then none
    else if op = 0x04 then loopKind f
    else if op = 0x05 then endlKind f
    else if op = 0x08 then callKind f
    else if op = 0x09 then retKind f
    else if op = 0x0A then popKind f (bits w 19 16)
    else if op = 0x0B ∧ 0x60 ≤ bits w 30 24 ∧
        reduced s d k (bits w 30 24) (if bits w 33 32 = 0 then .own else if bits w 33 32 = 1 then .any else .every) = bit w 31 then
      popKind f (bits w 19 16)
    else none
  | _ => none

/-- The program errors of words that act in ECLK `c`, once their emission is pushed (R46, R73, R92). Of a site-locked domain the
lowest site in the program is recorded (DESIGN CHOICE). -/
def lateErrors (s : State) (d c : Nat) : State :=
  (flowList (getDom s d)).foldl (fun s fi =>
    match flowActive s d fi with
    | [] => s
    | k :: _ =>
      match lateKind s d k (getFlow s d fi) with
      | some kind => if runningAt (getDom s d) c then progErrorAt s d c k kind (getFlow s d fi).sa (getDom s d).next else s
      | none => s) s

/-- Whether an event number names a Squall bank that the job does not claim (R58, R73). -/
def eventUnclaimed (p : Bytes) (n : Nat) : Bool := 16 ≤ n && !bit (jobSquBanks p) (n - 16)

/-- Clear latch `n` in every site of a flow. -/
def clearLatches (s : State) (d fi n : Nat) : State :=
  (flowActive s d fi).foldl (fun s j => setSite s d j (clearLatch (getSite s d j) (clock (getDom s d)) n)) s

/-- JEV: once its emission is pushed, samples the site's latch and branches where it is set (R59). A word with an
emission takes a second command of the same word, which samples. -/
def execJev (d : Fin 16) (k : Fin 256) (e : Emit) (target lpop : Nat) (event : Fin 24) (keep : Bool) (s : State) :
    Host.Outcome State Fault Refusal :=
  let i : Instr := .jev d k e target lpop event keep
  let sample (s : State) (fi : Nat) (f : Flow) : State :=
    if latchSet (getDom s d) (getSite s d k) event then
      branch (if keep then s else clearLatches s d fi event) d k fi f target lpop false
    else setFlow s d fi f
  if inWord s d k 0x0C then
    .next (reword s d k i 0x0C (fun s fi f _ => if f.pushed = f.nextV then sample s fi { f with waits := .none } else s))
  else .next (word s d k i 1 (fun s fi f =>
    if eventUnclaimed (getDom s d).payload event then progError (setFlow s d fi f) d k 0x2C f.sa
    else if e.ecount = 0 then sample s fi f
    else setFlow s d fi { emit s d fi f e with waits := .word 0x0C f.nextV }))

/-! ### MATCH (R60, R61) -/

/-- The passes a site of a `MATCH` plays: m + L where that stays within the limit. -/
def matchEnd (y : Site) (l passes : Nat) : Option Nat :=
  y.mFirst.bind (fun m => if m + l ≤ passes then some (m + l) else none)

/-- Whether a site's `MATCH` is settled: it exits, or no pass that could still satisfy it is left to judge. -/
def matchKnown (x : Dom) (y : Site) (l passes : Nat) : Bool :=
  y.mFirst.isSome || y.mStart + (passes - l) * y.mBlock ≤ judgedTo x

/-- The single fail of a `MATCH` timeout is placed at the last vector of the last pass (R60); it counts when that
vector is judged. -/
def matchTimeout (s : State) (d k v item : Nat) : State :=
  let s := setSite s d k { getSite s d k with matchTo := true, mFail := some (v, item) }
  if v < judgedTo (getDom s d) then timeoutFail s d k v item else s

/-- Begin a `MATCH` in every site of a flow. -/
def matchBegin (s : State) (d fi v block cond : Nat) : State :=
  (flowActive s d fi).foldl (fun s j => setSite s d j { getSite s d j with
    mStart := v, mBlock := block, mCond := cond, mBad := false, mClean := false, mFirst := none }) s

/-- MATCH: passes of a block until the condition holds, plus L passes; or the pass limit, with one fail on each
site that timed out and a branch to the timeout target (R60, R61, R471). -/
def execWordMatch (d : Fin 16) (k : Fin 256) (e : Emit) (target lpop : Nat) (cond : BitVec 7) (passes : Nat)
    (s : State) : Host.Outcome State Fault Refusal :=
  let ec := e.ecount.toNat
  let i : Instr := .wordMatch d k e target lpop cond passes
  if inWord s d k 0x10 then
    .next (reword s d k i 0x10 (fun s fi f v =>
      let x := getDom s d
      let l := ceilDiv x.ret ec
      let ks := flowActive s d fi
      if ks.all (fun j => matchKnown x (getSite s d j) l passes) then
        let out := ks.filter (fun j => matchEnd (getSite s d j) l passes = none)
        let n := ks.foldl (fun m j => max m ((matchEnd (getSite s d j) l passes).getD passes)) 0
        let exit := max (v + n * ec) (vecAhead s d 1)
        let f := cutRun s d fi f exit
        let s := ks.foldl (fun s j => setSite s d j { getSite s d j with matchTo := false }) s
        let s := out.foldl (fun s j => matchTimeout s d j (v + passes * ec - 1) f.item) s
        if out = [] then setFlow s d fi f else branch s d k fi f target lpop false
      else s))
  else .next (word s d k i 1 (fun s fi f =>
    let v := f.nextV
    let s := matchBegin s d fi v ec cond.toNat
    setFlow s d fi { push s d fi f e.src e.sym.toNat (passes * ec) ec 1 0 with waits := .word 0x10 v }))

/-! ### WAIT (R62) -/

/-- The first block boundary at or after Ve + d, at least one block in (R62). A latch that reads set from ECLK
count `l` on set in the ECLK before it. -/
def waitExit (period v ec l dv : Nat) : Nat :=
  let ve : Int := clockTime (l - 1) / (period : Int)
  let n : Int := ve + dv - v
  v + max 1 (ceilDiv n.toNat ec) * ec

/-- The ECLK count from which a latch of a `WAIT` reads set at the latest: it set by the end of the ECLK in which the last vector
of the passes-th block starts (R62). -/
def waitLimit (period v ec passes : Nat) : Nat := (v + passes * ec - 1) * period / 8192 + 6

/-- WAIT: replays its block until the latch sets or the pass limit passes at the pins (R62, R471). -/
def execWait (d : Fin 16) (k : Fin 256) (e : Emit) (target lpop : Nat) (event : Fin 24) (passes : Nat) (s : State) :
    Host.Outcome State Fault Refusal :=
  let ec := e.ecount.toNat
  let i : Instr := .wait d k e target lpop event passes
  if inWord s d k 0x11 then
    .next (reword s d k i 0x11 (fun s fi f v =>
      let x := getDom s d
      let p := jobPeriod s x.payload
      let y := getSite s d k
      let lim := waitLimit p v ec passes
      let ks := flowActive s d fi
      if latchSet x y event ∧ latchFirst y event ≤ lim then
        let f := cutRun s d fi f (max (waitExit p v ec (latchFirst y event) (dVec s d)) (vecAhead s d 1))
        let s := clearLatches s d fi event
        let s := ks.foldl (fun s j => setSite s d j { getSite s d j with waitTo := false }) s
        setFlow s d fi f
      else if lim ≤ clock x then
        let f := cutRun s d fi f (max (v + passes * ec) (vecAhead s d 1))
        let s := ks.foldl (fun s j => setSite s d j { getSite s d j with waitTo := true }) s
        branch s d k fi f target lpop false
      else s))
  else .next (word s d k i 1 (fun s fi f =>
    let x := getDom s d
    if eventUnclaimed x.payload event then progError (setFlow s d fi f) d k 0x2C f.sa
    else if latchSet x (getSite s d k) event then
      let s := clearLatches s d fi event
      let s := (flowActive s d fi).foldl (fun s j => setSite s d j { getSite s d j with waitTo := false }) s
      setFlow s d fi (push s d fi f e.src e.sym.toNat ec ec 0 0)
    else
      let v := f.nextV
      setFlow s d fi { push s d fi f e.src e.sym.toNat openRun ec 0 0 with waits := .word 0x11 v }))

/-! ### Barriers and retirement -/

/-- BARR: in a site-locked domain the block plays max(ecount, d) vectors; in a site-free one the site waits at
the barrier (R63). -/
def execBarr (d : Fin 16) (k : Fin 256) (e : Emit) (s : State) : Host.Outcome State Fault Refusal :=
  let ec := e.ecount.toNat
  .next (word s d k (.barr d k e) 1 (fun s fi f =>
    if jobFree (getDom s d).payload then
      let v := f.nextV
      let f := push s d fi f e.src e.sym.toNat openRun ec 0 0
      barriers (setFlow s d fi { f with waits := .barr f.sa v ec }) d
    else setFlow s d fi (push s d fi f e.src e.sym.toNat (max ec (dVec s d)) ec 0 0)))

/-- APG: hands pins to Cumulus for `vcount` vectors; in a site-free domain after the barrier of R70, at which a site that owns
no pin of the banks does not wait (R69). The vectors a site repeats at the barrier are judged and counted as any other: the
manual names no compare handling for them (DESIGN CHOICE). -/
def execApg (d : Fin 16) (k : Fin 256) (e : Emit) (banks : BitVec 8) (entry vcount : Nat) (s : State) :
    Host.Outcome State Fault Refusal :=
  .next (word s d k (.apg d k e banks entry vcount) 1 (fun s fi f =>
    let p := (getDom s d).payload
    let m := banks.toNat
    let f := { f with costs := f.costs ++ [(f.nextV, 1)] }
    if m &&& jobCumBanks p ≠ m then progError (setFlow s d fi f) d k 0x2C f.sa
    else if jobFree p ∧ ¬ ownsPin s d m k then playApg s d fi f e 0 vcount
    else if jobFree p then
      let v := f.nextV
      let f := push s d fi f .again 0 openRun 0 0 0
      let s := (banksOf m).foldl (fun s b => setCum s b { getCum s b with barrier := true }) s
      barriers (setFlow s d fi { f with waits := .apg f.sa v m entry vcount e }) d
    else if cumInstrs (cumImage s p) ≤ entry then progError (setFlow s d fi f) d k 0x29 f.sa
    else
      let s := playApg s d fi f e m vcount
      (banksOf m).foldl (fun s b => startCum s d b entry f.nextV vcount) s))

/-- Retire every site of a flow: its pins park from vector `f.nextV`, and its final commit is issued (R71, R177). -/
def retireFlow (s : State) (d fi : Nat) (f : Flow) : State :=
  let s := (flowActive s d fi).foldl (fun s j =>
    let y := getSite s d j
    setSite s d j { y with retired := some f.nextV, commits := y.commits ++ [{ v := f.nextV, item := f.item }] })
    (setFlow s d fi f)
  settle (barriers (refreshCums s d) d) d

/-- HALT: once its emission is pushed, retires every site of the flow (R71). A word with an emission takes a second
command of the same word, which retires. -/
def execHalt (d : Fin 16) (k : Fin 256) (e : Emit) (s : State) : Host.Outcome State Fault Refusal :=
  .next (emitThen s d k (.halt d k e) 0x3F 1 e (fun _ s fi f => retireFlow s d fi f))

/-! ### Setting words (R64 to R68) -/

/-- TSET: kind 0x27 where the timing image does not define the set (R64). -/
def execTset (d : Fin 16) (k : Fin 256) (e : Emit) (set : BitVec 8) (s : State) : Host.Outcome State Fault Refusal :=
  .next (word s d k (.tset d k e set) 1 (fun s fi f =>
    if timSetIx (timImage s (getDom s d).payload) set.toNat = none then progError (setFlow s d fi f) d k 0x27 f.sa
    else setFlow s d fi (emit s d fi { f with tset := set.toNat } e)))

/-- FMASK: the mask in force is entry + 1, 0 while every pin is unmasked (R65). -/
def execFmask (d : Fin 16) (k : Fin 256) (e : Emit) (entry : BitVec 8) (s : State) : Host.Outcome State Fault Refusal :=
  .next (word s d k (.fmask d k e entry) 1 (fun s fi f => setFlow s d fi (emit s d fi { f with mask := entry.toNat + 1 } e)))

/-- Issue a commit in every site of a flow, covering the vectors before the word's first (R66). -/
def issueCommit (s : State) (d fi v item : Nat) : State :=
  (flowActive s d fi).foldl (fun s j =>
    let y := getSite s d j
    setSite s d j { y with commits := y.commits ++ [{ v := v, item := item }] }) s

/-- Select an item; kind 0x28 where it is out of range (R66). -/
def selectItem (s : State) (d k fi : Nat) (f : Flow) (e : Emit) (item : Nat) : State :=
  if 2 ^ jobItemBits (getDom s d).payload ≤ item then progError (setFlow s d fi f) d k 0x28 f.sa
  else setFlow s d fi (emit s d fi { f with item := item } e)

/-- The last commit of a list without the one of effect vector `v`. -/
def dropCommit (l : List Commit) (v : Nat) : List Commit :=
  match l.getLast? with
  | some c => if c.v = v then l.dropLast else l
  | none => l

/-- Of two `LEDG` words of ecount 0 with no vector between them the later wins (R46): what the earlier did is taken back. -/
def ledgBack (s : State) (d fi : Nat) (f : Flow) (e : Emit) : State × Flow :=
  match f.ledg with
  | some (v, item, committed) =>
    if e.ecount = 0 ∧ v = f.nextV then
      (if committed then (flowActive s d fi).foldl (fun s j =>
          setSite s d j { getSite s d j with commits := dropCommit (getSite s d j).commits v }) s
        else s, { f with item := item })
    else (s, f)
  | none => (s, f)

/-- A `LEDG` of slot `d`: commits where `commit`, selects where an item is given (R66). -/
def ledg (s : State) (d k fi : Nat) (f : Flow) (e : Emit) (commit : Bool) (select : Option (Bool × Nat)) : State :=
  let b := ledgBack s d fi f e
  let s := if commit then issueCommit b.1 d fi f.nextV b.2.item else b.1
  let f := { b.2 with ledg := if e.ecount = 0 then some (f.nextV, b.2.item, commit) else none }
  match select with
  | some (inc, item) => selectItem s d k fi f e (if inc then f.item + 1 else item)
  | none => setFlow s d fi (emit s d fi f e)

/-- LEDG_SELECT. -/
def execLedgSelect (d : Fin 16) (k : Fin 256) (e : Emit) (inc : Bool) (item : BitVec 16) (s : State) :
    Host.Outcome State Fault Refusal :=
  .next (word s d k (.ledgSelect d k e inc item) 1 (fun s fi f => ledg s d k fi f e false (some (inc, item.toNat))))

/-- LEDG_COMMIT. -/
def execLedgCommit (d : Fin 16) (k : Fin 256) (e : Emit) (s : State) : Host.Outcome State Fault Refusal :=
  .next (word s d k (.ledgCommit d k e) 1 (fun s fi f => ledg s d k fi f e true none))

/-- LEDG_COMMIT_SELECT. -/
def execLedgCommitSelect (d : Fin 16) (k : Fin 256) (e : Emit) (inc : Bool) (item : BitVec 16) (s : State) :
    Host.Outcome State Fault Refusal :=
  .next (word s d k (.ledgCommitSelect d k e inc item) 1 (fun s fi f => ledg s d k fi f e true (some (inc, item.toNat))))

/-- Whether an action belongs to a `MARK`, and whether it came from a word of ecount 0 at vector `v`. -/
def zeroMark (v : Nat) : Act → Bool
  | .mark w z _ _ _ _ _ => z && w = v
  | .capt .. => false
def zeroCapt (v : Nat) : Act → Bool
  | .capt w z _ _ => z && w = v
  | .mark .. => false

/-- MARK: a marker attached to its effect vector; of two words of ecount 0 with no vector between them the later
wins (R46, R67). -/
def execMark (d : Fin 16) (k : Fin 256) (e : Emit) (aurora markOut squall : BitVec 8) (ring : Option (Fin 8))
    (code : BitVec 8) (s : State) : Host.Outcome State Fault Refusal :=
  .next (word s d k (.mark d k e aurora markOut squall ring code) 1 (fun s fi f =>
    let p := (getDom s d).payload
    if aurora.toNat &&& jobAurs p ≠ aurora.toNat ∨ markOut.toNat &&& jobMarks p ≠ markOut.toNat ∨
        squall.toNat &&& jobSquBanks p ≠ squall.toNat then progError (setFlow s d fi f) d k 0x2C f.sa
    else
      let z := e.ecount = 0
      let old := if z then f.acts.filter (fun a => !zeroMark f.nextV a) else f.acts
      let a := Act.mark f.nextV z aurora.toNat markOut.toNat squall.toNat (ring.map Fin.val) code
      setFlow s d fi (emit s d fi { f with acts := old ++ [a] } e)))

/-- CAPT: an action attached to its effect vector (R46, R68). -/
def execCapt (d : Fin 16) (k : Fin 256) (e : Emit) (banks : BitVec 8) (action : CaptAction) (s : State) :
    Host.Outcome State Fault Refusal :=
  .next (word s d k (.capt d k e banks action) 1 (fun s fi f =>
    let p := (getDom s d).payload
    if banks.toNat &&& jobSquBanks p ≠ banks.toNat then progError (setFlow s d fi f) d k 0x2C f.sa
    else
      let z := e.ecount = 0
      let old := if z then f.acts.filter (fun a => !zeroCapt f.nextV a) else f.acts
      setFlow s d fi (emit s d fi { f with acts := old ++ [.capt f.nextV z banks.toNat action] } e)))

end Sys2Proof.Machine
end

