-- ==== Sys2Proof/Machine/Stratus.lean ====
section
/-! DEFINITION. Stratus (chapter 04): the decoder and the slot queue of each pin, refill of the rings, and
keep-alive. -/

namespace Sys2Proof.Machine

/-! ### The decoder (R103) -/

/-- The end of the block that holds symbol `i`: its last byte + 1 and its last symbol + 1. -/
def blockEnd (str : Bytes) (ch i : Nat) : Option (Nat × Nat) :=
  (strBlock str ch i).map (fun p =>
    let z := blockSize ((strData str ch).drop p.1)
    (p.1 + z.1, i - p.2 + z.2))

/-- The ends of the blocks the decoder must start to deliver the symbols from `st` up to `goal`; the fuel is the
most blocks a request of 16 symbols can meet. -/
def blocksFor (str : Bytes) (ch goal : Nat) : Nat → Nat → List (Nat × Nat)
  | 0, _ => []
  | fuel + 1, st =>
    if goal ≤ st then []
    else match blockEnd str ch st with
      | none => []
      | some e => e :: blocksFor str ch goal fuel e.2

/-- The bytes a decoder reads in an ECLK (R103). -/
def decoderBytes : Nat := 64

/-- A decoder in ECLK `c` before it starts a block: it first reads the rest of the block it last started, whose bytes
count against the ECLK after that start (R103). The ring, and the bytes that remain. -/
def readRest (r : PinRing) (c : Nat) : PinRing × Nat :=
  if r.left = 0 then (r, decoderBytes)
  else ({ r with left := 0, ready := r.started }, if c = r.leftAt + 1 then decoderBytes - r.left else decoderBytes)

/-- Start the block that holds symbol `r.started` in ECLK `c` with `n` bytes remaining: every byte of it must be in the
ring, and at least 2 bytes must remain (R103). -/
def startBlock (str : Bytes) (ch c : Nat) (r : PinRing) (n : Nat) : PinRing × Nat :=
  match blockEnd str ch r.started with
  | none => (r, n)
  | some e =>
    let blk := (strData str ch).drop (strStart str ch r.started)
    let size := (blockSize blk).1
    let got := min size n
    if r.write < e.1 ∨ n < 2 then (r, n)
    else
      ({ r with
        started := e.2, ready := max r.started (e.2 - (blockSize blk).2 + blockReadable blk got)
        left := size - got, leftAt := c }, n - got)

/-- A decoder in ECLK `c` asked for the symbols up to `goal`: at most two block starts (R103). -/
def decode1 (str : Bytes) (ch c goal : Nat) (r : PinRing) : PinRing :=
  let a := readRest r c
  if goal ≤ a.1.started then a.1
  else
    let b := startBlock str ch c a.1 a.2
    if goal ≤ b.1.started ∨ b.1.started = a.1.started then b.1 else (startBlock str ch c b.1 b.2).1

/-- The end of the symbols that need no byte still to land: of a list of blocks from symbol `st` on, those that stand
whole in the ring. -/
def landedEnd (write st : Nat) : List (Nat × Nat) → Nat
  | [] => st
  | e :: r => if write < e.1 then st else landedEnd write e.2 r

/-! ### Rings (R104 to R107, R111, R112) -/

/-- The marks open on a pin: those of the open levels, and those released in the present ECLK, whose bytes are free from the
next one on (R113). -/
def openMarks (f : Flow) (ch : Nat) : List Nat := (f.loops.map Loop.marks ++ f.freed).map (fun m => tget 0 m ch)

/-- The read pointer: the first byte the decoder has not started (R106). -/
def readPtr (str : Bytes) (r : PinRing) (ch : Nat) : Nat := strStart str ch r.started

/-- The pinned start: the first byte of the block that holds the oldest open mark, or the read pointer (R106). -/
def pinnedStart (str : Bytes) (f : Flow) (r : PinRing) (ch : Nat) : Nat :=
  ((openMarks f ch).map (strStart str ch)).foldl min (readPtr str r ch)

/-- The free space of a ring for new requests (R106). -/
def ringFree (str : Bytes) (f : Flow) (r : PinRing) (ch : Nat) : Nat :=
  r.size - (r.issued - pinnedStart str f r ch)

/-- Whether a ring is eligible for refill, and the bytes its next request fetches (R107). -/
def eligible (str : Bytes) (f : Flow) (r : PinRing) (ch : Nat) : Bool :=
  64 ≤ ringFree str f r ch && r.issued < strBytes str ch
def requestSize (str : Bytes) (f : Flow) (r : PinRing) (ch : Nat) : Nat :=
  min (min 256 (ringFree str f r ch / 64 * 64)) (strBytes str ch - r.issued)

/-- Whether a ring is not eligible because a mark holds its free space (R112). -/
def heldByMark (str : Bytes) (f : Flow) (r : PinRing) (ch : Nat) : Bool :=
  ringFree str f r ch < 64 && r.issued < strBytes str ch && pinnedStart str f r ch < readPtr str r ch

/-- Why a decoder cannot deliver the symbols from `a` up to `goal` in this ECLK (R118), as it stands after its starts: 0x42,
0x41, 0x40 or 0x43; 0 where it can. -/
def shortage (str : Bytes) (f : Flow) (r : PinRing) (ch a goal : Nat) : Nat :=
  if goal ≤ r.ready then 0
  else if strSymbols str ch ≤ a then 0x42
  else if landedEnd r.write r.started (blocksFor str ch goal 17 r.started) < goal then
    (if heldByMark str f r ch then 0x41 else 0x40)
  else 0x43

/-! ### Pushing blocks (R47) -/

/-- The run that holds vector `v`. -/
def runAt (f : Flow) (v : Nat) : Option Run := f.queue.find? (fun r => r.v ≤ v ∧ v < r.v + r.count)

/-- The symbols a pin must deliver for `n` vectors of a run from vector `v` on: the first index and their number;
none past the first pass of a replayed block (R45). -/
def symbolsFor (r : Run) (ch v n : Nat) : Nat × Nat :=
  let off := v - r.v
  if r.src ≠ .stream then (0, 0)
  else if r.block = 0 then (tget 0 r.base ch + off, n)
  else (tget 0 r.base ch + off, min n (r.block - off))

/-- What a pin answers to the request for `n` vectors of a run at the vector pushed next: the ring after its starts, the
first symbol asked for, how many are asked for, how many of them lie in blocks that have landed whole, and how many the decoder
delivers in this ECLK (R103, R114). -/
structure Answer where
  ch    : Nat
  ring  : PinRing
  first : Nat
  asked : Nat
  have_ : Nat
  now   : Nat
  deriving DecidableEq, Repr

/-- Ask a pin (R103, R114). -/
def askPin (s : State) (str cumImg : Bytes) (f : Flow) (r : Run) (c ch n : Nat) : Answer :=
  let x := getRing s ch
  let q := symbolsFor r ch f.pushed n
  if handed cumImg r.cum ch ∨ q.2 = 0 then { ch := ch, ring := x, first := x.at_, asked := 0, have_ := 0, now := 0 }
  else
    let goal := q.1 + q.2
    let x := if x.at_ ≤ q.1 ∧ q.1 ≤ x.started then { x with at_ := q.1 } else rewindRing x q.1
    let x := decode1 str ch c goal x
    let whole := min goal (landedEnd x.write x.started (blocksFor str ch goal 17 x.started))
    { ch := ch, ring := x, first := q.1, asked := q.2, have_ := whole - q.1, now := min goal x.ready - q.1 }

/-- The vectors of a block of `n` that the pins can supply: all of them, or those before the first symbol of a block that has
not landed (R114); none while the decoder of a pin is too slow for these. -/
def supply (n : Nat) (l : List Answer) : Nat :=
  let m := l.foldl (fun m a => if a.asked ≤ a.have_ then m else min m a.have_) n
  if l.all (fun a => min m a.asked ≤ a.now) then m else 0

/-- The ring of a pin of a flow once `n` vectors of the block are pushed, with the shortage of what is left of it (R118). -/
def takeAnswer (str : Bytes) (f : Flow) (n : Nat) (a : Answer) : PinRing :=
  if a.asked = 0 then a.ring
  else
    let got := min n a.asked
    { a.ring with
      at_ := a.first + got, why := if a.asked ≤ n then 0 else shortage str f a.ring a.ch (a.first + got) (a.first + a.asked) }

/-- Put the answers of the pins of a flow of slot `d` into their rings, `n` vectors of the block being pushed. -/
def takeAnswers (s : State) (d : Nat) (f : Flow) (n : Nat) (l : List Answer) : State :=
  l.foldl (fun s a => setRing s a.ch (takeAnswer (strImage s (getDom s d).payload) f n a)) s

/-- Whether the Cumulus of every bank a run hands has delivered `n` vectors from `v` on (R135). -/
def cumReady (s : State) (r : Run) (v n : Nat) : Bool :=
  (banksOf r.cum).all (fun b => v + n ≤ (getCum s b).start + (getCum s b).made)

/-- The vectors of the next block of a flow: at most 16, of one word, that the 64 slots can take whole (R47). `n0` is the first
vector that the queue held at the start of the ECLK: Halo's pops of the present ECLK make no room. -/
def nextBlock (n0 : Nat) (f : Flow) : Option (Run × Nat) :=
  match runAt f f.pushed with
  | none => none
  | some r =>
    let n := min 16 (r.v + r.count - f.pushed)
    if f.pushed + n ≤ n0 + 64 then some (r, n) else none

/-- Note whether a mark holds the free space of a ring, and count a ring that becomes ineligible so (R112, R121). -/
def noteStall (s : State) (d ch : Nat) : State :=
  let p := (getDom s d).payload
  let r := getRing s ch
  let held := r.size ≠ 0 && heldByMark (strImage s p) (getFlow s d (flowIx p (jobSiteOf p ch))) r ch
  if held = r.stalled then s
  else
    let s := setRing s ch { r with stalled := held }
    if held then regBump s (Reg.strBank (ch / 32)) 16 16 1 else s

/-- Push the next block of a flow, as far as its pins can supply it, or hold it (R47, R77, R114). -/
def pushRun (s : State) (d fi n0 : Nat) : State :=
  let p := (getDom s d).payload
  let f := getFlow s d fi
  match nextBlock n0 f with
  | none => s
  | some (r, n) =>
    let l := (flowPins p fi).map (fun ch => askPin s (strImage s p) (cumImage s p) f r (clock (getDom s d)) ch n)
    let m := if cumReady s r f.pushed n then supply n l else 0
    (flowPins p fi).foldl (fun s ch => noteStall s d ch) (setFlow (takeAnswers s d f m l) d fi { f with pushed := f.pushed + m })

/-- Whether the engines of a flow read a word that yields while they push or wait (R88). -/
def polls (f : Flow) : Bool :=
  f.pushed ≠ f.nextV || (match f.waits with
    | .none => false
    | .word op _ => op = 0x0B || op = 0x10 || op = 0x11
    | _ => true)

/-- One ECLK of a flow's engines: a microword's slots land, a word's cost is paid, or an event is taken at the yield of a
word that pushes or waits; else the next block is pushed (R47, R77, R88, R114). -/
def pushBlock (s : State) (d fi n0 : Nat) : State :=
  let f := getFlow s d fi
  let go (s : State) : State :=
    let s := if polls f then takeEvents s d fi else s
    if flowActive s d fi = [] then settle (barriers s d) d else pushRun s d fi n0
  if f.micro.landing then setFlow s d fi { f with pushed := f.nextV, micro := { f.micro with landing := false } }
  else match f.costs with
    | (v, n) :: r =>
      if v ≤ f.pushed then setFlow s d fi { f with costs := if n ≤ 1 then r else (v, n - 1) :: r } else go s
    | [] => go s

/-- One ECLK of every flow of a domain; `n0` is the first vector not popped at its start. -/
def pushAll (s : State) (d n0 : Nat) : State :=
  (flowList (getDom s d)).foldl (fun s fi =>
    if running (getDom s d) ∧ flowActive s d fi ≠ [] then pushBlock s d fi n0 else s) s

/-! ### Keep-alive (R115, R118, R119) -/

/-- Whether a site has left the program at or before vector `v`. -/
def leftBy (y : Site) (v : Nat) : Bool :=
  (match y.event with
    | some w => w ≤ v
    | none => false) || (match y.retired with
    | some w => w ≤ v
    | none => false)

/-- The channels whose queues are empty at vector `v`, in ascending order, each with the shortage of its held
word when its pins were last asked (R118). -/
def dryPins (s : State) (d v : Nat) : List (Nat × Nat) :=
  let p := (getDom s d).payload
  (jobPins p).filterMap (fun ch =>
    let k := jobSiteOf p ch
    let f := getFlow s d (flowIx p k)
    if leftBy (getSite s d k) v ∨ v < f.pushed then none
    else some (ch, if (runAt f f.pushed).isSome then (getRing s ch).why else 0))

/-- The channel that ran dry and the reason (R118). -/
def starveCause (l : List (Nat × Nat)) : Nat × Nat :=
  match l.find? (fun a => a.2 ≠ 0) with
  | some a => a
  | none => ((l.head?.map Prod.fst).getD 0, 0x44)

/-- A site enters keep-alive at `v`: unless it retired or took an event at or before `v`, its final commit is issued
there (R115, R119, R177). An event taken in the same ECLK is dropped (R92). -/
def keepSite (s : State) (d k v : Nat) : State :=
  let x := getDom s d
  let y := getSite s d k
  if leftBy y v then s
  else setSite s d k { finalCommit y v (itemAt (getFlow s d (flowIx x.payload k)) v) with
    retired := none, event := none, stopped := false, routine := none, mFail := y.mFail.filter (fun m => m.1 < v)
    cancelDue := none, stopDue := none }

/-- Drop the actions of a flow that take effect after `v`, and its queue (R115). -/
def keepFlow (f : Flow) (v : Nat) : Flow :=
  { f with queue := [], waits := .none, costs := [], acts := f.acts.filter (fun a => actVec a ≤ v) }

/-- The domain of slot `d` enters keep-alive at vector `v` (R115): the job ends STARVED. -/
def enterKeep (s : State) (d v : Nat) : State :=
  let x := getDom s d
  let c := starveCause (dryPins s d v)
  let k := jobSiteOf x.payload c.1
  let s := unrecord s d (clock x)
  let s := recordEnd s d 0x01 k (getFlow s d (flowIx x.payload k)).sa
  let s0 := s
  let s := noteUndo s0 (regWrap (regPut (regPut s (Reg.strDry d) 0 8 c.1) (Reg.strDry d) 8 8 c.2) (Reg.strDry d) 16 16) d [Reg.strDry d]
  let s := (List.range x.sites).foldl (fun s k => keepSite s d k v) s
  let s := { s with flows := tmap Flow.init (fun i f => if i / 256 = d then keepFlow f v else f) s.flows }
  let s := { s with squalls := tmap Squall.init (fun _ q => if q.dom = some d then { q with halted := true } else q) s.squalls }
  let s := { s with cums := tmap Cum.init (fun _ q => if q.dom = some d then { q with barrier := false } else q) s.cums }
  let s := endJob s d { status := 3, reason := c.2, endVector := v, starveCh := c.1, reports := true, logs := false }
  setDom s d { getDom s d with keep := some v }

/-! ### Refill (R107 to R109) -/

/-- The rings of bank `b` that are eligible, in ascending channel order, each with its slot. -/
def eligibleRings (s : State) (b : Nat) : List (Nat × Nat) :=
  (List.range 32).filterMap (fun i =>
    let ch := 32 * b + i
    match (getPin s ch).dom with
    | none => none
    | some d =>
      let x := getDom s d
      let p := x.payload
      if x.phase = .free ∨ x.ended ≠ none ∨ (getRing s ch).size = 0 then none
      else if eligible (strImage s p) (getFlow s d (flowIx p (jobSiteOf p ch))) (getRing s ch) ch then some (ch, d)
      else none)

/-- Bytes of the next request of a ring, and the bytes between its read and write pointers. -/
def sizeOf1 (s : State) (a : Nat × Nat) : Nat :=
  let p := (getDom s a.2).payload
  requestSize (strImage s p) (getFlow s a.2 (flowIx p (jobSiteOf p a.1))) (getRing s a.1) a.1
def bytesAhead (s : State) (a : Nat × Nat) : Nat :=
  (getRing s a.1).issued - readPtr (strImage s (getDom s a.2).payload) (getRing s a.1) a.1

/-- The ring with the fewest bytes ahead, the lowest channel on a tie. -/
def leastAhead (s : State) (l : List (Nat × Nat)) : Option (Nat × Nat) :=
  l.foldl (fun m a => match m with
    | none => some a
    | some b => if bytesAhead s a < bytesAhead s b then some a else some b) none

/-- The claimed-tier choice of a bank port (R108). -/
def claimedRing (s : State) (b : Nat) : Option (Nat × Nat) :=
  leastAhead s ((eligibleRings s b).filter (fun a =>
    let u := jobVecClaim (getDom s a.2).payload b
    u ≠ 0 && 8 * sizeOf1 s a ≤ bucketLevel s (claimKey a.2 b) u))

/-- The borrow-tier choice: the next slot in turn that has an eligible ring (R108). -/
def borrowRing (s : State) (b : Nat) : Option (Nat × Nat) :=
  let l := eligibleRings s b
  let t := tget 0 s.turns b
  ((List.range 16).map (fun i => (t + i) % 16)).findSome? (fun d => leastAhead s (l.filter (fun a => a.2 = d)))

/-- Requests of a bank's port in flight (R108). -/
def inFlight (s : State) (b : Nat) : Nat := ((List.range 32).map (fun i => (getRing s (32 * b + i)).flight.length)).sum

/-- Issue the next request of a ring of slot `a.2` (R107). -/
def issueRequest (s : State) (a : Nat × Nat) : State :=
  let n := sizeOf1 s a
  let r := getRing s a.1
  noteStall (setRing s a.1 { r with issued := r.issued + n, flight := r.flight ++ [n] }) a.2 a.1

/-- Bank `b`'s port presents one request to the arbiter, of the claimed tier where one is possible (R108, R325). It goes in class
2 while the port's own bucket holds its size; a claimed-tier request beyond that, and every request of the borrow tier, goes in
class 3, which the arbiter serves where it offers unclaimed bandwidth (`borrow`). -/
def refillNow (s : State) (b : Nat) (borrow : Bool) : State :=
  let plan := regField s (Reg.drmPlan b) 0 16
  match claimedRing s b with
  | some a =>
    let n := sizeOf1 s a
    if borrow ∨ 8 * n ≤ bucketLevel s (portKey b) plan then
      issueRequest (debit (debit s (claimKey a.2 b) (jobVecClaim (getDom s a.2).payload b) n) (portKey b) plan n) a
    else s
  | none =>
    match borrowRing s b with
    | some a =>
      if borrow then
        let s := regBump (debit s (portKey b) plan (sizeOf1 s a)) (Reg.strBorrow b) 0 32 1
        issueRequest { s with turns := tset 0 s.turns b (a.2 + 1) } a
      else s
    | none => s

/-- Whether a bank's request goes in class 2 of R325. -/
def refillClaimed (s : State) (b : Nat) : Bool := match claimedRing s b with
  | some a => decide (8 * sizeOf1 s a ≤ bucketLevel s (portKey b) (regField s (Reg.drmPlan b) 0 16))
  | none => false

/-- Whether a bank's port has a request to present. -/
def refillWanted (s : State) (b : Nat) (borrow : Bool) : Bool :=
  (claimedRing s b).isSome || (borrow && (borrowRing s b).isSome)

/-- REFILL_REQUEST: bank `b`'s port presents a request, which waits while the DRAM is not in service and is chosen as it is
served (R108, R333, R335). A frozen or untrained DRAM takes none (R329). -/
def execRefillRequest (b : Fin 8) (borrow : Bool) (s : State) : Host.Outcome State Fault Refusal :=
  if 32 ≤ inFlight s b then .next s
  else if dramServing s then .next (refillNow (touchDram s) b borrow)
  else if s.dram.state = .frozen ∨ s.dram.state = .training ∨ ¬ refillWanted s b borrow ∨
      s.dram.waiting.any (fun r => match r with | .refill i _ => i = b.val | _ => false) then .next s
  else .next (askDram s (.refill b borrow))

/-- REFILL_LANDING: the oldest request of a ring lands (R109); the decoder can use its bytes from the next ECLK on. A frozen DRAM
serves no pending request (R329). -/
def execRefillLanding (ch : Fin 256) (s : State) : Host.Outcome State Fault Refusal :=
  let r := getRing s ch
  match r.flight with
  | [] => .next s
  | n :: l => .next (if s.dram.state = .frozen then s else setRing s ch { r with fresh := r.fresh + n, flight := l })

end Sys2Proof.Machine
end

