-- ==== Sys2Proof/Machine/Virga.lean ====
section
/-! DEFINITION. Virga (chapter 08): stamps, dead time, interpolator calibration, statistics and the statistics
record. -/

namespace Sys2Proof.Machine

/-- The channel record in force, and its two deskew sums (R158, R379). -/
def chanRec (s : State) (ch : Nat) : ChanRec := tget ChanRec.init s.horizon.chans ch
def driveSkew (s : State) (ch : Nat) : Int := (chanRec s ch).driveDie + (chanRec s ch).driveBoard
def compareSkew (s : State) (ch : Nat) : Int := (chanRec s ch).compareDie + (chanRec s ch).compareBoard

/-! ### The measurement entry (R193) -/

def virEdges (e : Bytes) : Nat := fld e 4 1
def virQuantity (e : Bytes) : Nat := fld e 5 1
def virInput (e : Bytes) : Bool := bit (fld e 6 1) 0
def virFalling (e : Bytes) : Bool := bit (fld e 6 1) 1
def virRef (e : Bytes) : Nat := fld e 2 2
def virCount (e : Bytes) : Nat := fld e 8 4 + 1

/-- The bit of a kind in the edges field, its input and its direction. -/
def edgeBit : EdgeKind → Nat
  | .hRise => 0 | .hFall => 1 | .lRise => 2 | .lFall => 3
def edgeInput (k : EdgeKind) : Bool := 2 ≤ edgeBit k
def edgeFalling (k : EdgeKind) : Bool := edgeBit k % 2 = 1

/-- Whether a kind is the selected transition of quantities 2 and 5. -/
def selected (e : Bytes) (k : EdgeKind) : Bool := edgeInput k = virInput e && edgeFalling k = virFalling e

/-! ### Stamps (R188, R189) -/

/-- The entry of a linearity table for a raw code: codes below 512 and above 1,024 use those two (R379). -/
def linOf (t : Tbl Int) (r : Nat) : Int := tget 0 t (max 512 (min r 1024))

/-- The time base, in ftu, of a transition with raw code `r` before TCLK count `c` (R189): S before it wraps, negative before
the start of the time base. -/
def stampTime (s : State) (ch c r : Nat) : Int :=
  let g := regField s (Reg.virCal ch) 0 16
  let o := signed 16 (regField s (Reg.virCal ch) 16 16)
  let tau := roundDiv ((g * r : Nat) + o * 1024 + linOf (chanRec s ch).lin r * 16384) 16384
  (1024 * c : Nat) - tau - compareSkew s ch

/-- S wraps modulo 2^64 (R188). -/
def stampOf (t : Nat) : Nat := t % 2 ^ 64

/-- The vector at which a channel's stamping stops: its site starves or parks, or the domain enters keep-alive (R157, R202). -/
def stopVector (s : State) (d ch : Nat) : Option Nat :=
  let x := getDom s d
  let y := getSite s d (jobSiteOf x.payload ch)
  (y.event.toList ++ y.retired.toList ++ x.keep.toList).min?

/-- The S from which the channel of a site that has left or starved is not stamped (R202). -/
def stampEnd (s : State) (d ch : Nat) : Option Nat := (stopVector s d ch).map (vectorS (jobPeriod s (getDom s d).payload))

/-- Whether a run has ended (R202): it is complete, its channel has stopped stamping, or its job has ended. -/
def runOver (s : State) (v : Virga) (ch : Nat) : Bool :=
  v.ended || (getDom s v.dom).ended.any (fun e => decide (e.endVector ≤ (getDom s v.dom).next)) ||
    (stopVector s v.dom ch).any (fun w => decide (w < (getDom s v.dom).next))

/-- The ECLK in which a transition of a time is stamped (R211). -/
def stampEclk (t : Nat) : Int := ((t : Int) - 32768) / 8192

/-- Whether the time base of a domain runs and has come to a transition, at most 24 ECLK ago (R197, R211). -/
def timely (x : Dom) (t : Nat) : Bool :=
  x.engines && x.lead = 5 && decide (0 < x.eclk) && decide (stampEclk t ≤ nowEclk x) && decide ((nowEclk x : Int) ≤ stampEclk t + 24)

/-- Whether S falls into the 75 ns that a gap calibration takes at the start of a re-arm gap (R198). -/
def inGapCal (q : Squall) (d st : Nat) : Bool :=
  q.dom = some d && q.gapEnd ≠ 0 && eclkS (q.gapEnd - 511) ≤ st && st < eclkS (q.gapEnd - 511) + 614400

/-! ### Statistics (R199 to R201) -/

/-- A sample x of a run; `clean` tells that no transition it depends on was lost (R200, R201). -/
def addSample (v : Virga) (x : Int) (clean : Bool) : Virga :=
  if ¬ clean ∨ 2 ^ 40 ≤ x.natAbs then { v with discarded := satAdd 32 v.discarded 1 }
  else
    let n := v.n + 1
    { v with
      n := n, sum := v.sum + x, sumsq := v.sumsq + x.natAbs ^ 2
      min := if v.n = 0 then x else min v.min x
      max := if v.n = 0 then x else max v.max x
      ended := v.ended || n = virCount v.entry }

/-- The last stamp of a kind. -/
def prevOf (v : Virga) (k : EdgeKind) : Option Nat := (v.prev.find? (fun p => p.1 = k)).map Prod.snd

/-- A stamp feeds a run of quantity 1 to 4 (R199). -/
def ownSample (v : Virga) (k : EdgeKind) (st : Nat) : Virga :=
  let e := v.entry
  let clean := v.lostSince = 0
  let q := virQuantity e
  if q = 1 then match v.lastStamp with
    | some p => addSample v ((st : Int) - p) clean
    | none => v
  else if q = 2 then
    if selected e k then match prevOf v k with
      | some p => addSample v ((st : Int) - p) clean
      | none => v
    else v
  else if q = 3 ∨ q = 4 then
    if edgeInput k ≠ virInput e then v
    else if edgeFalling k = decide (q = 4) then { v with open_ := some st }
    else match v.open_ with
      | some p => addSample { v with open_ := none } ((st : Int) - p) clean
      | none => v
  else v

/-- A stamp of the selected kind on either channel of a skew run: the k-th stamps pair (R199). Once a transition was lost, a
sample that stood open is discarded as its second stamp comes, and no further one is taken (R200). -/
def skewSample (v : Virga) (own : Bool) (st : Nat) : Virga :=
  match v.skews with
  | (o, p) :: r =>
    if o = own then (if v.pairLost then v else { v with skews := v.skews ++ [(own, st)] })
    else addSample { v with skews := r } (if own then (st : Int) - p else (p : Int) - st) (!v.pairLost)
  | [] => if v.pairLost then v else { v with skews := [(own, st)] }

/-- Whether the run `v` of channel `own` takes a transition of channel `ch` at S = `st` as one of its reference: from the S at
which its own stamping begins, the first stamp being its s_1, to the end of the run (R197, R199, R202). -/
def refersTo (s : State) (own : Nat) (v : Virga) (ch st : Nat) : Bool :=
  v.active && !v.ended && v.stamping && virQuantity v.entry = 5 && virRef v.entry = ch && decide (v.from_.getD 0 ≤ st) &&
    (stampEnd s v.dom own).all (fun e => decide (st < e))

/-- `n` transitions of channel `ch` lost at S = `st` (R191): they count, and they break the pairing of the skew runs of both
channels (R200). -/
def loseTransitions (s : State) (ch st n : Nat) : State :=
  if n = 0 then s
  else
    let s := regBump s (Reg.virLost ch) 0 16 n
    let v := getVirga s ch
    let s := setVirga s ch { v with
      lost := satAdd 32 v.lost n, lostSince := satAdd 16 v.lostSince n, pairLost := v.pairLost || virQuantity v.entry = 5 }
    { s with virgas := tmap Virga.init (fun i w => if refersTo s i w ch st then { w with pairLost := true } else w) s.virgas }

/-- A stamped transition (R187 to R192, R199). Its event word reaches the Squall of the bank 24 ECLK after the ECLK in which it
was stamped (R211). -/
def stampTransition (s : State) (ch : Nat) (kind : EdgeKind) (st : Nat) : State :=
  let v := getVirga s ch
  let w : EventWord := { stamp := stampOf st, channel := Fin.ofNat 256 ch, input := edgeInput kind, falling := edgeFalling kind,
                         merged := v.lostSince ≠ 0, stale := v.stale, lost := v.lostSince }
  let q := getSquall s (ch / 32)
  let s := if q.dom = some v.dom then
      setSquall s (ch / 32) { q with incoming := q.incoming ++ [((stampEclk st + 24).toNat, w)] }
    else s
  let v1 := ownSample v kind st
  let v1 := if virQuantity v.entry = 5 ∧ selected v.entry kind then skewSample v1 true st else v1
  let s := setVirga s ch { v1 with
    lastStamp := some st, lostSince := 0, first := if v.lastStamp = none then stampOf st else v.first
    prev := (kind, st) :: v1.prev.filter (fun p => p.1 ≠ kind) }
  { s with virgas := tmap Virga.init (fun i x =>
      if refersTo s i x ch st ∧ selected x.entry kind then skewSample x false st else x) s.virgas }

/-- The enabled kinds of transition of one ftu in the order in which one is stamped (R192). -/
def kindsOf (e : Bytes) (kinds : BitVec 4) : List EdgeKind :=
  [EdgeKind.hRise, .hFall, .lRise, .lFall].filter (fun k => kinds.getLsbD (edgeBit k) && bit (virEdges e) (edgeBit k))

/-- VIRGA_STAMP: the transitions of one ftu at a channel, `kinds` as in the edges field of R193: of those enabled the first is
stamped, or all are lost (R187 to R192); `c` is the TCLK count of the second edge after them and `r` the raw code. A skew sample
that this stamp closes is accepted, and the transitions lost in the same ftu count after it: R200 discards on a loss up to the
later stamp, and does not say whether one of that very ftu lies within (DESIGN CHOICE). -/
def execVirgaStamp (ch : Fin 256) (kinds : BitVec 4) (c r : Nat) (s : State) : Host.Outcome State Fault Refusal :=
  let v := getVirga s ch
  let t := stampTime s ch c r
  let st := t.toNat
  if ¬ v.active ∨ ¬ v.stamping ∨ v.ended ∨ t < 0 ∨ st < v.from_.getD 0 ∨ ¬ timely (getDom s v.dom) st then .next s
  else if (stampEnd s v.dom ch).any (fun e => decide (e ≤ st)) then .next s
  else match kindsOf v.entry kinds with
    | [] => .next s
    | k :: more =>
      let dead : Bool := v.lastStamp.any (fun p => decide (st < p + 4096))
      if dead ∨ inGapCal (getSquall s (ch.val / 32)) v.dom st then .next (loseTransitions s ch st (more.length + 1))
      else .next (loseTransitions (stampTransition s ch k st) ch st more.length)

/-! ### Calibration (R196, R198) -/

/-- Judge the means n1 ÷ den and n2 ÷ den: the gain and offset, where they are accepted (R196). -/
def calResult (n1 n2 den : Nat) : Option (Nat × Int) :=
  if n2 ≤ n1 ∨ den = 0 then none
  else
    let g := (roundDiv ((16777216 * den : Nat) : Int) (n2 - n1)).toNat
    let o := roundDiv (16384 * ((n2 : Int) - 2 * n1)) (n2 - n1)
    if 28672 ≤ g ∧ g ≤ 36864 ∧ -1024 ≤ o ∧ o ≤ 1024 then some (g, o) else none

/-- A calibration of a channel is written to VIR_CAL_n, or rejected (R196). -/
def judgeCal (s : State) (ch n1 n2 den : Nat) : State :=
  match calResult n1 n2 den with
  | some (g, o) => regSet s (Reg.virCal ch) (BitVec.ofNat 32 (g + unsigned 16 o * 65536))
  | none => raiseEvent (regPut (regBump s Reg.virStat 0 16 1) Reg.virStat 16 8 ch) 0x0601 (le 2 ch ++ le 2 0)

/-- Accept or reject a calibration of a run (R196). A gap calibration accepted later in the run takes cal_stale back: R196 sets
the flag at a rejection and does not say how long it stands (DESIGN CHOICE). -/
def applyCal (s : State) (ch n1 n2 den : Nat) : State :=
  judgeCal (setVirga s ch { getVirga s ch with n1 := n1, n2 := n2, den := den, stale := (calResult n1 n2 den).isNone }) ch n1 n2 den

/-- Horizon counts the run calibrations of a channel rejected in succession; the third makes its linearity due (R373). -/
def noteReject (s : State) (ch : Nat) (accepted : Bool) : State :=
  let n := if accepted then 0 else tget 0 s.horizon.rejects ch + 1
  let s := { s with horizon := { s.horizon with rejects := tset 0 s.horizon.rejects ch (n % 3) } }
  if n = 3 then makeDue s (.linearity (Fin.ofNat 256 ch)) 2 else s

/-- VIRGA_RUN_CALIBRATION: the calibration of a run completes and its stamping begins (R196, R197). The operands
are the sums of the raw codes of the 64 shots of each set. -/
def execVirgaRunCalibration (ch : Fin 256) (sum1 sum2 : Nat) (s : State) : Host.Outcome State Fault Refusal :=
  let v := getVirga s ch
  if v.active ∧ ¬ v.stamping ∧ v.from_.isSome ∧ ¬ runOver s v ch then
    let s := noteReject (applyCal s ch sum1 sum2 64) ch (calResult sum1 sum2 64).isSome
    .next (setVirga s ch { getVirga s ch with stamping := true })
  else .next s

/-- VIRGA_GAP_CALIBRATION: 8 shots of each interval update the run's means in a re-arm gap (R198). -/
def execVirgaGapCalibration (ch : Fin 256) (sum1 sum2 : Nat) (s : State) : Host.Outcome State Fault Refusal :=
  let v := getVirga s ch
  let q := getSquall s (ch.val / 32)
  if v.active ∧ v.stamping ∧ ¬ runOver s v ch ∧ q.dom = some v.dom ∧ q.gap then
    let s := applyCal s ch (56 * v.n1 + sum1 * v.den) (56 * v.n2 + sum2 * v.den) (64 * v.den)
    .next (setVirga s ch { getVirga s ch with gapCal := true })
  else .next s

/-! ### The record (R203, R204) -/

/-- The largest number of at most `n` bits more than those of `r` whose square does not exceed `x`. -/
def isqrtFrom (x : Nat) : Nat → Nat → Nat
  | 0, r => r
  | n + 1, r => if (r + 2 ^ n) ^ 2 ≤ x then isqrtFrom x n (r + 2 ^ n) else isqrtFrom x n r

/-- Whether stamping began in a run (R197, R204): the S at which it begins lies before the end of the run. -/
def stampedRun (s : State) (ch : Nat) : Bool :=
  let v := getVirga s ch
  let x := getDom s v.dom
  let ends := (stopVector s v.dom ch).toList ++ (x.ended.map Ending.endVector).toList
  v.stamping && (v.ended || ends.all (fun w => decide (v.from_.getD 0 < vectorS (jobPeriod s x.payload) w)))

/-- The 96-byte record of a run (R203, R204). -/
def virgaRecord (s : State) (ch : Nat) : Bytes :=
  let v := getVirga s ch
  let q := virQuantity v.entry
  let mean := if v.n = 0 then 0 else roundDiv (65536 * v.sum) v.n
  let var := v.n * v.sumsq - v.sum.natAbs ^ 2
  let sd := if v.n ≤ 1 then 0 else isqrtFrom (2 ^ 32 * var / (v.n * (v.n - 1))) 64 0
  let flags := b2n (q ≠ 0 ∧ v.n = virCount v.entry) + 2 * b2n v.stale + 4 * b2n v.pairLost + 8 * b2n (stampedRun s ch) +
    16 * b2n v.gapCal
  le 1 3 ++ le 1 q ++ le 2 ch ++ le 2 flags ++ le 2 (if q = 5 then virRef v.entry else 0xFFFF) ++ le 8 v.n ++
    le 12 (unsigned 96 v.sum) ++ le 4 v.discarded ++ le 16 v.sumsq ++ le 8 (unsigned 64 v.min) ++
    le 8 (unsigned 64 v.max) ++ le 8 (unsigned 64 mean) ++ le 8 sd ++ le 4 v.lost ++
    le 2 (regField s (Reg.virCal ch) 0 16) ++ le 2 (regField s (Reg.virCal ch) 16 16) ++ le 8 v.first

/-- The channels whose runs belong to slot `d`, in ascending order. -/
def virgaChannels (s : State) (d : Nat) : List Nat :=
  (s.virgas.filter (fun v => v.2.active ∧ v.2.dom = d)).map Prod.fst

end Sys2Proof.Machine
end

