-- ==== Sys2Proof/Machine/Symbols.lean ====
section
/-! DEFINITION. The symbols of Jetstream (R258 to R261): the 8b/10b code groups with their running disparity, the control
symbols, the columns of frames, markers and blocks. The code tables are those of IEEE 802.3 Clause 36, which R258 names
(PRESUMED: the manual does not print them). -/

namespace Sys2Proof.Machine

/-! ### Code groups (R258) -/

/-- Ones among the low `n` bits. -/
def ones (n x : Nat) : Nat := ((List.range n).filter (x.testBit ·)).length

/-- The six bits abcdei of data value x at negative disparity, a the most significant. -/
def sixNeg (x : Nat) : Nat :=
  [0b100111, 0b011101, 0b101101, 0b110001, 0b110101, 0b101001, 0b011001, 0b111000,
   0b111001, 0b100101, 0b010101, 0b110100, 0b001101, 0b101100, 0b011100, 0b010111,
   0b011011, 0b100011, 0b010011, 0b110010, 0b001011, 0b101010, 0b011010, 0b111010,
   0b110011, 0b100110, 0b010110, 0b110110, 0b001110, 0b101110, 0b011110, 0b101011].getD x 0

/-- The six bits of a data value at a disparity (`pos`: positive): the value of the other column where the two differ. -/
def sixOf (pos : Bool) (x : Nat) : Nat :=
  let g := sixNeg x
  if pos ∧ (ones 6 g ≠ 3 ∨ x = 7) then 63 - g else g

/-- The four bits fghj of a data group's upper bits at negative disparity. -/
def fourNeg (y : Nat) : Nat := [0b1011, 0b1001, 0b0101, 0b1100, 0b1101, 0b1010, 0b0110, 0b1110].getD y 0

/-- The four bits fghj of D.x.y at a disparity. Where D.x.7 would give a run of five, it takes its alternate form. -/
def fourOf (pos : Bool) (x y : Nat) : Nat :=
  if y = 7 then
    let alt : Bool := if pos then x = 11 ∨ x = 13 ∨ x = 14 else x = 17 ∨ x = 18 ∨ x = 20
    let g := if alt then 0b0111 else 0b1110
    if pos then 15 - g else g
  else
    let g := fourNeg y
    if pos ∧ (ones 4 g ≠ 2 ∨ y = 3) then 15 - g else g

/-- The four bits of K28.y at negative disparity; at positive disparity they are complemented. -/
def fourK28 (y : Nat) : Nat := [0b1011, 0b0110, 0b1010, 0b1100, 0b1101, 0b0101, 0b1001, 0b0111].getD y 0

/-- The disparity after a sub-block of `n` bits. -/
def rdAfter (n : Nat) (pos : Bool) (g : Nat) : Bool :=
  let k := 2 * ones n g
  if n < k then true else if k < n then false
  else if n = 6 ∧ g = 0b000111 ∨ n = 4 ∧ g = 0b0011 then true
  else if n = 6 ∧ g = 0b111000 ∨ n = 4 ∧ g = 0b1100 then false
  else pos

/-- The disparity after a received code group, right or wrong. -/
def rdGroup (pos : Bool) (g : BitVec 10) : Bool := rdAfter 4 (rdAfter 6 pos (g.toNat / 16)) (g.toNat % 16)

/-- A symbol: a data byte, or a control symbol K.x.y. -/
inductive Sym where
  | data (b : Byte)
  | ctl (b : Byte)
  deriving DecidableEq, Repr

/-- The control symbols of R259: K.x.y is the byte y·32 + x. -/
def Sym.idle : Sym := .ctl 0xBC
def Sym.sof : Sym := .ctl 0xFB
def Sym.eof : Sym := .ctl 0xFD
def Sym.abort : Sym := .ctl 0xFE
def Sym.marker : Sym := .ctl 0x7C
def Sym.stamp : Sym := .ctl 0x3C
def Sym.credit : Sym := .ctl 0xF7

/-- The control symbols Jetstream uses, and no others (R259). -/
def controls : List Sym := [.idle, .sof, .eof, .abort, .marker, .stamp, .credit]

/-- The code group of a symbol at a disparity, abcdei fghj with bit a, which is sent first, the most significant. -/
def encodeSym (pos : Bool) : Sym → BitVec 10
  | .data b =>
    let x := b.toNat % 32
    let six := sixOf pos x
    BitVec.ofNat 10 (six * 16 + fourOf (rdAfter 6 pos six) x (b.toNat / 32))
  | .ctl b =>
    let x := b.toNat % 32
    let y := b.toNat / 32
    if x = 28 then
      let g := 0b001111 * 16 + (15 - fourK28 y)
      BitVec.ofNat 10 (if pos then 1023 - g else g)
    else
      let g := sixNeg x * 16 + 0b1000
      BitVec.ofNat 10 (if pos then 1023 - g else g)

/-- The symbol whose code group at a disparity is `g`. A control symbol outside R259 is none. -/
def decodeAt (pos : Bool) (g : BitVec 10) : Option Sym :=
  match controls.find? (fun c => encodeSym pos c = g) with
  | some c => some c
  | none => ((List.range 32).find? (fun x => sixOf pos x = g.toNat / 16)).bind (fun x =>
      ((List.range 8).map (fun y => Sym.data (BitVec.ofNat 8 (y * 32 + x)))).find? (fun c => encodeSym pos c = g))

/-- The bits of a code group in the order they are sent: bit a first (R258). -/
def lineBits (g : BitVec 10) : List Bool := (List.range 10).map (fun i => g.getLsbD (9 - i))

/-- Receive one code group. The result is its symbol, the running disparity after it, and whether it counts as a code
violation or a disparity error. A receiver that has met no group since its CDR locked takes either disparity. -/
def receiveGroup (rd : Option Bool) (g : BitVec 10) : Option Sym × Bool × Bool :=
  match rd with
  | some pos => (decodeAt pos g, rdGroup pos g, (decodeAt pos g).isNone)
  | none =>
    match decodeAt false g with
    | some c => (some c, rdGroup false g, false)
    | none => (decodeAt true g, rdGroup true g, (decodeAt true g).isNone)

/-- Receive the code groups of a lane in order: their symbols, the disparity after them, and the errors among them. -/
def receiveGroups (rd : Option Bool) : List (BitVec 10) → List (Option Sym) × Option Bool × Nat
  | [] => ([], rd, 0)
  | g :: gs =>
    let x := receiveGroup rd g
    let r := receiveGroups (some x.2.1) gs
    (x.1 :: r.1, r.2.1, r.2.2 + (if x.2.2 then 1 else 0))

/-- Send symbols on a lane: their code groups and the disparity after them. -/
def sendSyms (pos : Bool) : List Sym → List (BitVec 10) × Bool
  | [] => ([], pos)
  | c :: cs =>
    let g := encodeSym pos c
    let r := sendSyms (rdGroup pos g) cs
    (g :: r.1, r.2)

/-! ### Columns (R260, R261) -/

/-- Bytes `0` to `w − 1` of a data column; a position past the last byte carries D0.0 (R260). -/
def dataColumn (w : Nat) (b : Bytes) : List Sym := (List.range w).map (fun k => Sym.data (b.getD k 0))

/-- The columns of a frame that are still to go out: those of timestamp and SOF, the data columns, and EOF or abort. `n`
bounds how many are sent now. The second part is what remains; none once the last column is sent. -/
def frameColumns : Nat → Nat → TxFrame → List (List Sym) × Option TxFrame
  | 0, _, t => ([], some t)
  | n + 1, w, t =>
    let col (c : List Sym) (t' : TxFrame) : List (List Sym) × Option TxFrame :=
      let r := frameColumns n w t'
      (c :: r.1, r.2)
    if t.abort then ([List.replicate w .abort], none)
    else if t.stamp then col (List.replicate w .stamp) { t with stamp := false }
    else if t.sof then col (List.replicate w .sof) { t with sof := false }
    else if t.rest = [] then ([List.replicate w .eof], none)
    else col (dataColumn w t.rest) { t with rest := t.rest.drop w, sent := t.sent + min w t.rest.length }

/-- The four columns of a credit block: every lane of the set carries the same symbols (R261). -/
def creditColumns (w q count : Nat) : List (List Sym) :=
  [Sym.credit, .data (BitVec.ofNat 8 q), .data (BitVec.ofNat 8 count), .data (BitVec.ofNat 8 (count / 256))].map
    (fun c => List.replicate w c)

/-- The five symbols of an alignment marker (R261). -/
def markerSyms (id live ctrl : Nat) : List Sym :=
  [.marker, .data (BitVec.ofNat 8 id), .data (BitVec.ofNat 8 live), .data (BitVec.ofNat 8 ctrl), .idle]

/-- The ID, LIVE and CTRL bytes of a marker that ends a run of received symbols (R261). -/
def readMarkerSyms (cs : List (Option Sym)) : Option (Byte × Byte × Byte) :=
  match cs.drop (cs.length - 5) with
  | [some m, some (.data i), some (.data l), some (.data c), some e] =>
    if m = .marker ∧ e = .idle then some (i, l, c) else none
  | _ => none

end Sys2Proof.Machine
end

