-- ==== Sys2Proof/Machine/Jetstream.lean ====
section
/-! DEFINITION. Jetstream (chapter 11): markers and live lanes, bring-up, transmit sets, deep link idle, frames
leaving, timestamp and credit blocks. -/

namespace Sys2Proof.Machine

/-! ### Lanes and sets -/

/-- The positions of the lanes of a port (R257). -/
def portLanes (p : Port) : List Nat := List.range (portWidth p)

/-- The lane that position `j` receives: itself, or lane w_p − 1 − j of a reversed port (R266). -/
def laneAt (p : Port) (x : PortSt) (j : Nat) : Nat := if x.reversed then portWidth p - 1 - j else j

/-- The LIVE byte this side sends, one bit a lane (R261, R266). -/
def liveByte (s : State) (p : Port) : Nat :=
  ((portLanes p).map (fun j => if (getLane s (portFirst p + j)).live then 2 ^ laneAt p (getPort s p) j else 0)).sum

/-- Whether every lane of group `g` of width `w` is set in a LIVE byte (R267). -/
def groupLive (live : BitVec 8) (w g : Nat) : Bool := (List.range w).all (fun i => live.getLsbD (g * w + i))

/-- The transmit set a LIVE byte allows (R267): the widest width, and within it the lowest group. Width 0 is
no set. -/
def chooseSet (p : Port) (live : BitVec 8) : Nat × Nat :=
  let try1 (w : Nat) : Option (Nat × Nat) :=
    if portWidth p < w then none
    else ((List.range (portWidth p / w)).find? (fun g => groupLive live w g)).map (fun g => (w, g))
  match try1 8, try1 4, try1 2, try1 1 with
  | some x, _, _, _ => x
  | none, some x, _, _ => x
  | none, none, some x, _ => x
  | none, none, none, some x => x
  | none, none, none, none => (0, 0)

/-- A port whose set in either direction is narrower than its full width is narrowed (R267). -/
def narrowed (p : Port) (x : PortSt) : Bool := x.state = .up && (x.width < portWidth p || x.rxWidth < portWidth p)

/-- Judge the sets of a port that is Up: each narrowing or widening raises event 0x0901 (R267, R392). The first set in use in a
direction after a bring-up is judged against the full width, and after deep link idle against the set used before it; the time
until the port has a set is no narrowing. -/
def noteWidths (s : State) (p : Port) : State :=
  let x := getPort s p
  if x.state = .up then
    let tx : Bool := x.hadTx || x.width ≠ 0
    let rx : Bool := x.hadRx || x.rxWidth ≠ 0
    let s := setPort s p { x with
      hadTx := tx, hadRx := rx, refTx := if tx then x.width else x.refTx, refRx := if rx then x.rxWidth else x.refRx }
    if (tx ∧ x.width ≠ x.refTx) ∨ (rx ∧ x.rxWidth ≠ x.refRx) then
      raiseEvent s 0x0901 (le 1 (portIx p) ++ le 1 x.width ++ le 1 x.rxWidth ++ le 1 0)
    else s
  else s

/-- Change the sets of a port. -/
def setWidths (s : State) (p : Port) (w g rx rg : Nat) : State :=
  noteWidths (setPort s p { getPort s p with width := w, group := g, rxWidth := rx, rxGroup := rg }) p

/-- The inbound and outbound queues of a port (R277, R281). -/
def portQueues : Port → List Nat × List Nat
  | .host => ([0, 1, 2, 3], (List.range 27).map (· + 16))
  | .east => ([8], [48])
  | .west => ([9], [49])
  | .pair => ([10], [50])

/-- Grants and uses restart at the initial grant (R287, R288). -/
def restartCredits (s : State) (p : Port) : State :=
  let inn := (portQueues p).1.foldl (fun s q =>
    let x := getQueue s q
    setQueue s q { x with grant := (x.lines + 65535) % 65536, used := 0 }) s
  (portQueues p).2.foldl (fun s q => setQueue s q { getQueue s q with grant := 0, used := 0 }) inn

/-- Change every lane of a port. -/
def eachLane (s : State) (p : Port) (k : Lane → Lane) : State :=
  (portLanes p).foldl (fun s j => setLane s (portFirst p + j) (k (getLane s (portFirst p + j)))) s

/-- The frame a port was sending is lost with the rest of its packet (R288). -/
def loseFrame (s : State) (p : Port) : State :=
  let x := getPort s p
  match x.tx with
  | none => s
  | some t =>
    let q := getQueue s t.queue
    let s := setPort s p { x with tx := none }
    if q.packets.head?.map Packet.order = some t.order then setQueue s t.queue { q with packets := q.packets.drop 1 } else s

/-- A port begins its main path (R265), or Fallback where a failed step 10 precedes the start. Corrections are
dropped (R266), and credits restart (R288). -/
def startPath (s : State) (p : Port) (st : PortState) : State :=
  let s := eachLane (loseFrame s p) p (fun l =>
    { l with live := false, inverted := false, good := 0, held := 0, bad := 0, died := false, late := 0, rxRd := none })
  let x := getPort s p
  let s := setPort s p { x with
    state := st, since := s.now, reversed := false, fallbackUsed := x.fallbackUsed || st = .fallback, width := 0,
    group := 0, rxWidth := 0, rxGroup := 0, refTx := portWidth p, refRx := portWidth p, hadTx := false, hadRx := false, partnerLive := 0, sleep := false, sleepSent := 0,
    sleepRcvd := 0, seenIds := [], firstDue := [] }
  restartCredits s p

/-- The transmitter of a port is turned on: every lane starts with negative disparity, and a marker period begins (R258). -/
def txOn (s : State) (p : Port) : State :=
  let s := eachLane s p (fun l => { l with txRd := false })
  setPort s p { getPort s p with col := 0, wire := [] }

/-- A fresh bring-up (R265): on leaving Off, at boot step 10, and on a restart under R271. A port declared unused stays off
(R257). -/
def bringUp (s : State) (p : Port) (fallback : Bool) : State :=
  if portUnused s p then s
  else
    let s := if (getPort s p).state = .off then txOn s p else s
    let s := setPort s p { getPort s p with fallbackUsed := false }
    startPath s p (if fallback then .fallback else .mainPath)

/-- The port is Up (R265). Its granting queues owe a first credit block before any frame (R288). The exit from deep link idle is
no frame, so that a port woken for TELEMETRY alone may idle again (R355). -/
def portUp (s : State) (p : Port) : State :=
  let x := getPort s p
  let s := setPort s p { x with
    state := .up, since := s.now, lastUse := if x.state = .exiting then x.lastUse else s.now
    hadTx := false, hadRx := false, firstDue := (portQueues p).1 }
  noteWidths (setUnit s (16 + portIx p) { getUnit s (16 + portIx p) with state := .active, since := s.now, wakes := none }) p

/-- Whether every lane of a port is live (R265). -/
def allLive (s : State) (p : Port) : Bool := (portLanes p).all (fun j => (getLane s (portFirst p + j)).live)

/-- Jobs run on without comparison while port P has no live lane (R443). -/
def unshadow (s : State) : State :=
  let run := (List.range 16).filter (fun d =>
    let x := getDom s d
    (x.phase = .running ∨ x.phase = .admitted) ∧ x.ended = none ∧ ¬ x.pair.alone)
  let s := run.foldl (fun s d =>
    let x := getDom s d
    setDom s d { x with pair := { x.pair with alone := true } }) s
  regBump s Reg.paiUnshadowed 0 16 run.length

/-- A live lane dies (R269). A port that loses its last live lane raises event 0x0902; on port P of a pair
member the jobs go on without comparison and event 0x1104 is raised (R443). -/
def killLane (s : State) (lane : Nat) : State :=
  let l := getLane s lane
  let p := lanePort lane
  if l.live then
    let s := setLane s lane { l with live := false, held := 0, bad := 0, died := true }
    let s := regBump s (Reg.jetLane lane) 24 8 1
    if portHasLive s p then s
    else
      let s := raiseEvent s 0x0902 (le 1 (portIx p) ++ le 3 0)
      if p = .pair ∧ pairEnable s then raiseEvent (unshadow s) 0x1104 (le 4 0) else s
  else setLane s lane { l with held := 0 }

/-! ### Sending columns (R258 to R262) -/

/-- The running disparity after `n` K28.5: each one turns it over. -/
def idleRd (pos : Bool) (n : Nat) : Bool := if n % 2 = 1 then !pos else pos

/-- The columns from one marker to the next (R262). -/
def markerPeriod : Nat := 2048

/-- Columns in which no block or frame stands: K28.5 on every lane. -/
def sendIdle (s : State) (p : Port) (n : Nat) : State :=
  let s := eachLane s p (fun l => { l with txRd := idleRd l.txRd n })
  setPort s p { getPort s p with col := (getPort s p).col + n }

/-- Send symbols on every lane of a port, `syms` for lane j. -/
def sendLanes (s : State) (p : Port) (n : Nat) (syms : Nat → List Sym) : State :=
  let sent := (portLanes p).map (fun j => sendSyms (getLane s (portFirst p + j)).txRd (syms j))
  let s := (portLanes p).foldl (fun s j =>
    setLane s (portFirst p + j) { getLane s (portFirst p + j) with txRd := (sent.getD j ([], false)).2 }) s
  setPort s p { getPort s p with col := (getPort s p).col + n, wire := sent.map Prod.fst }

/-- Send columns on the transmit set; the lanes outside it carry K28.5 (R260). -/
def sendColumns (s : State) (p : Port) (cols : List (List Sym)) : State :=
  let x := getPort s p
  let first := x.group * x.width
  sendLanes s p cols.length (fun j => cols.map (fun c =>
    if first ≤ j ∧ j < first + x.width then c.getD (j - first) .idle else .idle))

/-- Lines popped once `sent` bytes of a frame of `n` bytes with its trailer have left: a line is popped as its first byte is
needed (R281). The packet has the length slot in place of the trailer. -/
def linesSent (n sent : Nat) : Nat := (4 + min sent (n - 4) + 31) / 32

/-- Whether the source of a frame in progress has withdrawn it (R268, R400): a part of its packet is still needed and is no
longer at the head of the queue, or the JTAG reader has become the consumer. -/
def withdrawn (s : State) (t : TxFrame) : Bool :=
  let q := getQueue s t.queue
  let n := t.sent + t.rest.length
  decide (linesSent n t.sent < (n + 31) / 32) && (q.jtag || q.packets.head?.map Packet.order ≠ some t.order)

/-- Go on with the frame in progress for at most `n` columns, up to the next marker (R260, R262, R267): its bytes go to the
set in use, its lines are popped as they leave, and it counts as sent with its EOF. A withdrawn frame ends with an abort
column. The port's unit is in use (R354). -/
def goOnFrame (s : State) (p : Port) (n : Nat) : State :=
  let x := getPort s p
  match x.tx with
  | none => s
  | some t =>
    if x.width = 0 then s
    else
      let t := { t with abort := t.abort || withdrawn s t }
      let r := frameColumns (min n (markerPeriod - x.col)) x.width t
      let s := sendColumns s p r.1
      let len := t.sent + t.rest.length
      let sent := match r.2 with
        | some u => u.sent
        | none => if t.abort then t.sent else len
      let s := popLines (linesSent len sent - linesSent len t.sent) s t.queue
      let s := useUnit (setPort s p { getPort s p with tx := r.2 }) (16 + portIx p)
      if r.2.isNone then
        (if t.abort then loseFrame (setPort s p { getPort s p with tx := some t }) p
         else regBump s (Reg.jetPortTxf (portIx p)) 0 32 1)
      else s

/-- The width code of CTRL (R261). -/
def widthCode (w : Nat) : Nat := if w = 8 then 3 else if w = 4 then 2 else if w = 2 then 1 else 0

/-- The ID byte of a lane's markers, and the CTRL byte that announces a set (R261). -/
def idByte (p : Port) (j : Nat) : Nat := j + 16 * portIx p
def ctrlByte (sleep : Bool) (w g : Nat) : Nat :=
  b2n sleep + (if w = 0 then 0 else 2 * widthCode w + 8 * g + 64)
/-! ### Markers -/

/-- In Fallback the receiver notes the lane numbers it meets; the port is reversed when every lane that has a
marker shows w_p − 1 − j at position j (R266). -/
def noteId (p : Port) (x : PortSt) (j id : Nat) : PortSt :=
  let seen := tset 0 x.seenIds j (id + 1)
  { x with seenIds := seen, reversed := seen.all (fun e => e.2 = portWidth p - 1 - e.1 + 1) }

/-- What a marker that meets R264 tells: the partner's LIVE byte, its transmit set, and its sleep bit (R261,
R270). Seeing sleep in two successive markers, the side finishes any frame in progress and sets sleep too; sleep that the
partner clears ends the entry. Only the lowest live lane's marker is read. -/
def readMarker (s : State) (p : Port) (live ctrl : Byte) : State :=
  let x := getPort s p
  let rx := if ctrl.getLsbD 6 then 2 ^ (ctrl.toNat / 2 % 4) else 0
  let rg := if ctrl.getLsbD 6 then ctrl.toNat / 8 % 8 else 0
  let slp := ctrl.getLsbD 0
  let rcvd := if slp then min (x.sleepRcvd + 1) 4 else 0
  let sleep := if slp then x.sleep || (2 ≤ rcvd && x.tx.isNone) else x.sleep && x.sleepRcvd = 0
  let s := setPort s p { x with
    partnerLive := live, sleepRcvd := rcvd, sleep := sleep, sleepSent := if sleep then x.sleepSent else 0 }
  setWidths s p x.width x.group rx rg

/-- The lowest live position of a port. -/
def firstLive (s : State) (p : Port) : Option Nat :=
  (portLanes p).find? (fun j => (getLane s (portFirst p + j)).live)

/-- Leave main path, Fallback or deep idle exit once R265 and R271 hold. -/
def tryUp (s : State) (p : Port) : State :=
  match (getPort s p).state with
  | .mainPath => if allLive s p then portUp s p else s
  | .fallback => if allLive s p then portUp s p else s
  | .exiting =>
    if portHasLive s p ∧ (portLanes p).all (fun j =>
        let l := getLane s (portFirst p + j)
        ¬ l.live ∨ (l.cdr ∧ l.good = 2)) then portUp s p else s
  | _ => s

/-- Whether R264 holds for a lane as a marker period ends with a right marker or not: its CDR is locked, its last two markers
were right, and at most 15 errors occurred. -/
def laneHolds (l : Lane) (right : Bool) (errors : Nat) : Bool := l.cdr && right && decide (1 ≤ l.good) && decide (errors ≤ 15)

/-- A marker period ends on a lane (R264, R269). A lane becomes live once R264 holds, and one that has died after 1,024
successive periods in which it holds; two successive markers that are missing or wrong, or 16 errors in a period, kill a live
lane. -/
def countMarker (s : State) (lane : Nat) (right : Bool) (errors late : Nat) : State :=
  let l := getLane s lane
  let holds := laneHolds l right errors
  let held := if holds then min (l.held + 1) 1024 else 0
  let good := if right then min (l.good + 1) 2 else 0
  if 16 ≤ errors ∨ (¬ right ∧ 1 ≤ l.bad) then killLane (setLane s lane { l with good := good, bad := if right then 0 else 1 }) lane
  else setLane s lane { l with
    good := good, held := held, bad := if right then 0 else 1
    live := l.live || (holds && (!l.died || held = 1024)), late := if right then late else l.late }

/-- MARKER_RECEIVE: a marker period ends on a lane. `groups` are the code groups received since the marker before, the last
five those of a marker where one came; `inverted` tells that they decode without error only after complement, so that without
that correction every one of them errs (R266); `skew` is the marker's columns after the earliest live lane's marker (R258,
R259, R264, R266, R269). -/
def execMarkerReceive (lane : Fin 20) (groups : List (BitVec 10)) (inverted : Bool) (skew : Nat) (s : State) :
    Host.Outcome State Fault Refusal :=
  let p := lanePort lane
  let j := lane.val - portFirst p
  let x := getPort s p
  if x.state = .off ∨ x.state = .deepIdle then .next s
  else
    let s := if x.state = .fallback then setLane s lane { getLane s lane with inverted := inverted } else s
    let l := getLane s lane
    let r := receiveGroups l.rxRd groups
    let sees : Bool := l.inverted = inverted
    let errors := if sees then r.2.2 else groups.length
    let m := if sees then readMarkerSyms r.1 else none
    let s := regBump (setLane s lane { l with rxRd := r.2.1 }) (Reg.jetLane lane) 0 12 errors
    match m with
    | none => .next (tryUp (countMarker s lane false errors skew) p)
    | some (id, live, ctrl) =>
      let s := if x.state = .fallback then setPort s p (noteId p x j (id.toNat % 16)) else s
      let right : Bool := (groups.length = markerPeriod ∨ l.good = 0) ∧ id.toNat = idByte p (laneAt p (getPort s p) j) ∧
        ctrl.getLsbD 7 = false ∧ skew ≤ 32
      let s := countMarker s lane right errors skew
      .next (tryUp (if right ∧ firstLive s p = some j then readMarker s p live ctrl else s) p)

/-- CDR_LOCK: a lane's CDR locks, with a signal present, and its code groups align on commas (R263, R264). -/
def execCdrLock (lane : Fin 20) (s : State) : Host.Outcome State Fault Refusal :=
  let st := (getPort s (lanePort lane)).state
  if st = .off ∨ st = .deepIdle then .next s
  else .next (setLane s lane { getLane s lane with cdr := true, signal := true, rxRd := none })

/-- CDR_LOCK_LOSS: a lane's CDR loses lock and the lane becomes dead (R269). `signal` tells whether signal detect stays
asserted (R272). -/
def execCdrLockLoss (lane : Fin 20) (signal : Bool) (s : State) : Host.Outcome State Fault Refusal :=
  .next (killLane (setLane s lane { getLane s lane with cdr := false, signal := signal, good := 0 }) lane)

/-! ### Bring-up and deep link idle -/

/-- MAIN_PATH_TIMEOUT: Fallback 1 ms after main path began (R265). -/
def execMainPathTimeout (p : Port) (s : State) : Host.Outcome State Fault Refusal :=
  let x := getPort s p
  if x.state = .mainPath ∧ x.since + ms 1 ≤ s.now then
    .next (setPort s p { x with state := .fallback, since := s.now, fallbackUsed := true, seenIds := [] })
  else .next s

/-- FALLBACK_TIMEOUT: Up with the live lanes, or main path again (R265). -/
def execFallbackTimeout (p : Port) (s : State) : Host.Outcome State Fault Refusal :=
  let x := getPort s p
  if x.state = .fallback ∧ x.since + ms 1 ≤ s.now then
    .next (if portHasLive s p then portUp s p else startPath s p .mainPath)
  else .next s

/-- Whether a port may begin deep link idle entry (R355): not the Zenith parent port, no hold, and for port H
units 0 to 15 in Doze or Off. -/
def mayLinkIdle (s : State) (p : Port) : Bool :=
  s.zenith.parent ≠ portIx p + 1 ∧ (getUnit s (16 + portIx p)).hold = none ∧
    (p ≠ .host ∨ (List.range 16).all (fun u => (getUnit s u).state = .doze ∨ (getUnit s u).state = .off))

/-- LINK_IDLE_EXPIRY: a port idle for link_idle_ms sets sleep in its markers, unless a frame is in progress (R270, R355). -/
def execLinkIdleExpiry (p : Port) (s : State) : Host.Outcome State Fault Refusal :=
  let x := getPort s p
  if x.state = .up ∧ ¬ x.sleep ∧ x.tx.isNone ∧ s.power.linkIdleMs ≠ 0 ∧ x.lastUse + ms s.power.linkIdleMs ≤ s.now ∧ mayLinkIdle s p then
    .next (setPort s p { x with sleep := true, sleepSent := 0 })
  else .next s

/-- A port stands in deep link idle: transmitters and CDR loops are off, no signal arrives, and the corrections and the LIVE
bytes are kept (R270). -/
def quietPort (s : State) (p : Port) : State :=
  let s := eachLane s p (fun l => { l with cdr := false, signal := false, good := 0, held := 0, bad := 0, rxRd := none })
  setPort s p { getPort s p with state := .deepIdle, since := s.now, sleep := false, sleepSent := 0, sleepRcvd := 0 }

/-- Begin the exit from deep link idle: the transmitter is turned on (R271). -/
def startExit (s : State) (p : Port) : State :=
  if (getPort s p).state = .deepIdle then
    let s := txOn s p
    setPort s p { getPort s p with state := .exiting, since := s.now }
  else s

/-- DEEP_IDLE_EXIT: a side exits, or the partner's signal wakes it (`woken`, R271). -/
def execDeepIdleExit (p : Port) (woken : Bool) (s : State) : Host.Outcome State Fault Refusal :=
  let s := if woken ∧ (getPort s p).state = .deepIdle then eachLane s p (fun l => { l with signal := true }) else s
  .next (startExit s p)

/-- DEEP_IDLE_EXIT_TIMEOUT: a port not Up 200 µs after the exit began restarts at main path (R271). -/
def execDeepIdleExitTimeout (p : Port) (s : State) : Host.Outcome State Fault Refusal :=
  let x := getPort s p
  if x.state = .exiting ∧ x.since + us 200 ≤ s.now then .next (bringUp s p false) else .next s

/-! ### Frames, stamps and credits -/

/-- The queue whose head packet the transmitter of a port sends next: for port H the packet committed first
over queues 16 to 42 (R289). A queue whose consumer is JTAG is not read (R281). -/
def nextQueue (s : State) (p : Port) : Option (Nat × Packet) :=
  (portQueues p).2.foldl (fun best q =>
    let x := getQueue s q
    match x.packets with
    | [] => best
    | k :: _ =>
      if x.jtag then best
      else match best with
        | none => some (q, k)
        | some b => if k.order < b.2.order then some (q, k) else best) none

/-- The launch time of a timed GLOBAL_EVENT, in 2^−32 ns (R313): that of its launch, whose fraction the frame does not carry. -/
def launchTime (s : State) (k : Packet) : Option Nat :=
  if k.flags.getLsbD 1 then
    some (match s.zenith.launches.find? (fun l => l.id = fld k.payload 4 2) with
      | some l => zUnits l.time
      | none => (fld k.payload 8 8 * 1000000000 + fld k.payload 16 4) * 4294967296)
  else none

/-- Whether a packet is a timed GLOBAL_EVENT whose launch time lies more than `ns` after an instant (R313). -/
def heldByTime (s : State) (k : Packet) (at_ : ZTime) (ns : Nat) : Bool :=
  match launchTime s k with
  | some t => zUnits at_ + ns * 4294967296 < t
  | none => false

/-- Whether `n` columns that begin at an instant would still run at the launch time of a held frame of the port: a column lasts
16/45 ns (R258, R313). -/
def meetsLaunch (s : State) (p : Port) (at_ : ZTime) (n : Nat) : Bool :=
  match nextQueue s p with
  | some (_, k) => match launchTime s k with
    | some t => zUnits at_ < t && decide (45 * t < 45 * zUnits at_ + 16 * n * 4294967296)
    | none => false
  | none => false

/-- Whether the frame that leaves is the first of its launch on this device (R433): the entry of the device's
own origin, which R434 never uses for a received frame, holds the last launch whose latches are set, plus 1. -/
def firstOfLaunch (s : State) (id : Nat) : Bool :=
  let last := tget 0 s.originIds (deviceId s)
  last = 0 ∨ (0 < (id + 65536 - (last - 1)) % 65536 ∧ (id + 65536 - (last - 1)) % 65536 < 32768)

/-- The latches of a launch set as the SOF of its first frame leaves (R433). -/
def launchLatches (s : State) (k : Packet) : State :=
  if k.ty = 0x81 ∧ fld k.payload 2 1 = deviceId s ∧ firstOfLaunch s (fld k.payload 4 2) then
    setEvent { s with originIds := tset 0 s.originIds (deviceId s) (fld k.payload 4 2 + 1) } (8 + fld k.payload 0 1) 0
  else s

/-- The payload of a packet as it leaves: a SYNC frame carries the stamp of the timestamp block before it (R308). -/
def sentPayload (k : Packet) (at_ : ZTime) : Bytes :=
  if k.ty = 0x80 then k.payload.take 0x10 ++ stamp16 at_ ++ k.payload.drop 0x20 else k.payload

/-- The bytes of a frame on the link: header with its number, payload, and the CRC-32 over both (R274 to R276). -/
def frameOut (q seq : Nat) (k : Packet) (pay : Bytes) : Bytes :=
  let b := le 1 k.ty ++ le 1 q ++ le 2 k.flags.toNat ++ le 4 pay.length ++ le 4 seq ++ le 4 k.tag.toNat ++ pay
  b ++ le 4 (crc32 b).toNat

/-- The transmitter starts the head packet of a queue: its number is assigned, its first line is popped, its credits are used,
and a SYNC frame is preceded by a timestamp block (R260, R276, R281, R287, R308). A SYNC request so records t1 (R309). Sending
anything clears sleep (R270). -/
def startFrame (s : State) (p : Port) (q : Nat) (k : Packet) (at_ : ZTime) : State :=
  let x := getQueue s q
  let s := popLine (setQueue s q { x with used := (x.used + frameLines k.payload.length) % 65536 }) q
  let y := getPort s p
  let sync : Bool := k.ty = 0x80
  let s := setPort s p { y with
    seqOut := (y.seqOut + 1) % 2 ^ 32, sleep := false, sleepSent := 0, sleepRcvd := 0,
    lastUse := if k.ty = 0x45 then y.lastUse else s.now
    tx := some { queue := q, order := k.order, rest := frameOut q y.seqOut k (sentPayload k at_), sent := 0, stamp := sync,
                 sof := true, abort := false } }
  let s := if sync ∧ fld k.payload 0 1 = 1 ∧ s.zenith.t1.isSome ∧ fld k.payload 2 2 = s.zenith.xid then
      { s with zenith := { s.zenith with t1 := some (at_, s.now), asked := true } } else s
  launchLatches (useUnit s (16 + portIx p)) k

/-- FRAME_TRANSMIT: the transmitter of a port goes on with its frame, or starts the next one, for at most `columns` columns
and up to the next marker (R260, R262). A frame waits for the first credit blocks (R288), for credits (R287), for a transmit
set (R267) and for the launch time of a timed frame (R313). A frame that is ready in deep link idle begins the exit (R270), and
one held for its launch 200 µs before it (R313). `elapsed` is the time in ftu since the last NCLK tick. -/
def execFrameTransmit (p : Port) (columns elapsed : Nat) (s : State) : Host.Outcome State Fault Refusal :=
  let x := getPort s p
  let at_ := stampNow s elapsed
  if x.state = .up ∧ x.tx.isSome then .next (goOnFrame s p columns)
  else match nextQueue s p with
    | none => .next s
    | some (q, k) =>
      if x.state = .deepIdle then .next (if heldByTime s k at_ (us 200) then s else startExit s p)
      else if x.state ≠ .up ∨ x.width = 0 ∨ x.firstDue ≠ [] ∨ columns = 0 ∨ markerPeriod ≤ x.col ∨ heldByTime s k at_ 0 ∨
          creditsHeld (getQueue s q) < frameLines k.payload.length then .next s
      else .next (goOnFrame (startFrame s p q k at_) p columns)

/-- TIMESTAMP_BLOCK_RECEIVE: the port stamps the timestamp point it received (R308). -/
def execTimestampBlockReceive (p : Port) (elapsed : Nat) (s : State) : Host.Outcome State Fault Refusal :=
  let x := getPort s p
  if x.state = .up then .next (setPort s p { x with stamp := some (stampNow s elapsed) }) else .next s

/-- The outbound queue a received credit block grants (R287): the block names the queue of the side that grants
it, which is the partner's receiving queue on the ring and pair ports. -/
def creditTarget (p : Port) (q : Nat) : Option Nat :=
  match p with
  | .host => if 16 ≤ q ∧ q ≤ 42 then some q else none
  | .east => if q = 9 then some 48 else none
  | .west => if q = 8 then some 49 else none
  | .pair => if q = 10 then some 50 else none

/-- CREDIT_BLOCK_RECEIVE: the cumulative grant of a queue, or a rejected block (R261, R268, R287). -/
def execCreditBlockReceive (p : Port) (q : Fin 64) (count : BitVec 16) (bad : Bool) (s : State) :
    Host.Outcome State Fault Refusal :=
  if (getPort s p).state ≠ .up then .next s
  else if bad then .next (regBump s (Reg.jetPortErr (portIx p)) 24 8 1)
  else match creditTarget p q with
    | some t => .next (useUnit (setQueue s t { getQueue s t with grant := count.toNat }) (16 + portIx p))
    | none => .next s

/-- Send a credit block for a granting queue on every lane of the set (R261). The port's unit is in use (R354). -/
def sendCredit (s : State) (p : Port) (q : Nat) : State :=
  let s := sendColumns s p (creditColumns (getPort s p).width q (getQueue s q).grant)
  useUnit (setPort s p { getPort s p with firstDue := (getPort s p).firstDue.filter (· ≠ q) }) (16 + portIx p)

/-- CREDIT_BLOCK_SEND: a side sends a credit block for a queue it grants, where the block ends before the next marker and before the
launch time of a held frame (R261, R262, R288, R313). -/
def execCreditBlockSend (p : Port) (q : Fin 64) (elapsed : Nat) (s : State) : Host.Outcome State Fault Refusal :=
  let x := getPort s p
  if x.state ≠ .up ∨ ¬ grants p q ∨ x.width = 0 ∨ markerPeriod < x.col + 4 ∨ meetsLaunch s p (stampNow s elapsed) 4 then .next s
  else .next (sendCredit s p q)

/-- Whether a frame of a port is ready: none held for its launch time is (R270, R313). -/
def frameReady (s : State) (p : Port) : Bool :=
  (nextQueue s p).any (fun e => !heldByTime s e.2 s.zenith.time 0)

/-- DEEP_IDLE_ENTRY: after 4 sleep markers each way the side turns off its transmitter and its CDR loops; the
corrections and the LIVE bytes are kept. A frame in progress, or one that has become ready, ends the entry instead (R270). -/
def execDeepIdleEntry (p : Port) (s : State) : Host.Outcome State Fault Refusal :=
  let x := getPort s p
  if x.state = .up ∧ x.sleep ∧ x.sleepSent = 4 ∧ x.sleepRcvd = 4 then
    if x.tx.isSome ∨ frameReady s p then .next (setPort s p { x with sleep := false, sleepSent := 0, sleepRcvd := 0 })
    else
      let s := quietPort s p
      .next (setUnit s (16 + portIx p) { getUnit s (16 + portIx p) with state := .doze, since := s.now })
  else .next s

/-! ### The columns before a marker -/

/-- Whether the head frame of a port may start without its stamp or launch time: the transmitter starts a SYNC frame and a timed
one only at FRAME_TRANSMIT, which gives the instant. -/
def plainFrame (s : State) (k : Packet) : Bool := k.ty ≠ 0x80 && (launchTime s k).isNone

/-- Fill the columns up to the marker with what is ready, in the order of R262: a first credit block still owed (R288), the frame
in progress, and the frames that may start. Other credit blocks are commands of their own. `n` bounds the steps. -/
def fillColumns : Nat → State → Port → State
  | 0, s, _ => s
  | n + 1, s, p =>
    let x := getPort s p
    if x.width = 0 ∨ markerPeriod ≤ x.col then s
    else if x.tx.isSome then fillColumns n (goOnFrame s p markerPeriod) p
    else match nextQueue s p, x.firstDue with
      | some (q, k), [] =>
        if plainFrame s k ∧ frameLines k.payload.length ≤ creditsHeld (getQueue s q) then
          fillColumns n (startFrame s p q k s.zenith.time) p
        else s
      | next, q :: _ =>
        if markerPeriod < x.col + 4 ∨ next.any (fun e => (launchTime s e.2).isSome) then s
        else fillColumns n (sendCredit s p q) p
      | none, [] => s

/-- MARKER_SEND: every 2,048 columns each powered lane sends a marker that announces LIVE, the transmit set and
sleep; a set that the partner's LIVE byte changed takes effect after it (R262, R267, R270). What is ready fills the
columns before it, and K28.5 the others. A side that has seen sleep in two successive markers sets it once no frame is in
progress. -/
def execMarkerSend (p : Port) (s : State) : Host.Outcome State Fault Refusal :=
  if (getPort s p).state = .off ∨ (getPort s p).state = .deepIdle then .next s
  else
    let up : Bool := (getPort s p).state = .up
    let s := if up then fillColumns markerPeriod s p else s
    let s := sendIdle s p (markerPeriod - (getPort s p).col)
    let x := getPort s p
    let sleep : Bool := x.sleep || (up && decide (2 ≤ x.sleepRcvd) && x.tx.isNone)
    let wg := if up then chooseSet p x.partnerLive else (0, 0)
    let live := liveByte s p
    let s := setPort s p { x with col := 0, sleep := sleep }
    let s := sendLanes s p 5 (fun j => markerSyms (idByte p j) live (ctrlByte (up && sleep) wg.1 wg.2))
    if up then
      let s := setWidths s p wg.1 wg.2 x.rxWidth x.rxGroup
      .next (setPort s p { getPort s p with sleepSent := if sleep then min (x.sleepSent + 1) 4 else 0 })
    else .next s

end Sys2Proof.Machine
end

