-- ==== Sys2Proof/Machine/Zenith.lean ====
section
/-! DEFINITION. Zenith time (chapter 13): the counter and its ticks, TIME_SET, SYNC exchanges, quality, the
REFCLK grid and timed launches. -/

namespace Sys2Proof.Machine

/-! ### Quality (R310) -/

/-- The exchange interval in nanoseconds: units of 125 µs (R305). -/
def intervalNs (s : State) : Nat := us 125 * s.zenith.interval

/-- The quality of the device in ps, rounded up; none while it is invalid (R310). -/
def quality (s : State) : Option Nat :=
  let z := s.zenith
  if ¬ s.refPresent ∨ ¬ haloLocked s then none
  else if z.parent = 0 then (if z.rootSet then some 0 else none)
  else match z.lastAccept with
    | none => none
    | some t =>
      if t + 4 * intervalNs s < s.now ∨ 31 < z.hops then none
      else some (ceilDiv ((2 * z.qParent + 25 + z.asym) * 4294967296 + 2000 * z.c.natAbs) (2 * 4294967296))

/-- The device is synced while q ≤ 2,000 ps and no grid fault stands (R310). -/
def synced (s : State) : Bool :=
  match quality s with
  | some q => q ≤ 2000 && !s.zenith.gridFault
  | none => false

/-! ### Steps and ticks -/

/-- A job refused its timed start (R27, R306): UNSYNCED, no vector played, claims released. -/
def endUnsynced (s : State) (d reason : Nat) : State := endUnplayed s d 6 reason

/-- A step (R306): ZEN_STAT.stepped, and every admitted job whose timed start has not been reached ends
UNSYNCED, reason 0x20. -/
def stepClock (s : State) : State :=
  let s := { s with zenith := { s.zenith with stepped := true } }
  (List.range 16).foldl (fun s d =>
    let x := getDom s d
    if x.phase = .admitted ∧ x.ended = none ∧ jobTimed x.payload then endUnsynced s d 0x20 else s) s

/-- The correction applied at one tick: c clamped to ±2^23 units of 2^−32 ns (R309). -/
def slew (c : Int) : Int := if 8388608 < c then 8388608 else if c < -8388608 then -8388608 else c

/-- A tick as the domains see it: their ECLK are counted from it (R303). Of a slot whose engines have not started, whose ECLK the
sender need not count, at least 48 have passed since the tick before. -/
def tickDoms (s : State) : State :=
  { s with doms := tmap Dom.init (fun _ x =>
      if x.engines then { x with tickAt := clock x, tickOff := 0 }
      else if x.phase = .admitted then { x with idle := max x.idle (x.tickAt + 48), tickAt := max x.idle (x.tickAt + 48), tickOff := 0 }
      else x) s.doms }

/-- A tick as the DRAM sees it: time in service runs (R328), and the idle time of R334 does not while a claim or an Aurora play
stands. -/
def tickDram (s : State) : State :=
  let s := if dramServing s then { s with dram := { s.dram with served := s.dram.served + Config.nclkNs } } else s
  if noClaims s then s else touchDram s

/-- NCLK_TICK: the counter adds its addend, 50 ns and the slew; a jump or a pending set takes effect (R301,
R305, R309). Of several sets for one tick the last one handled stands, and each has its reply. A set ends a jump it overtakes,
whose correction falls away. A launch that has been made is over (R313). -/
def execNclkTick (s : State) : Host.Outcome State Fault Refusal :=
  let s := tickDram (tickDoms { s with now := s.now + Config.nclkNs })
  let z := { s.zenith with launches := s.zenith.launches.filter (fun l => !l.made) }
  match z.pendingSet.getLast? with
  | some (t, _) =>
    let s := { s with zenith := { z with
      time := t, pendingSet := [], jump := none, c := if z.jump.isSome then 0 else z.c, rootSet := z.rootSet || z.parent = 0 } }
    let s := if z.parent = 0 then s else stepClock s
    .next (z.pendingSet.foldl (fun s w => reply s w.2 0 0 (stamp16 t)) s)
  | none =>
    let base : Int := zUnits z.time + 50 * 4294967296
    match z.jump with
    | some th => .next (stepClock { s with zenith := { z with time := zTime (base + th).toNat, jump := none, c := 0 } })
    | none => .next { s with zenith := { z with time := zTime (base + slew z.c).toNat, c := z.c - slew z.c } }

/-- ZEN_TIME_SNAPSHOT: a read of ZEN_TIME_SEC_LO takes a snapshot of the counter (R314). -/
def execZenTimeSnapshot (s : State) : Host.Outcome State Fault Refusal :=
  .next { s with zenith := { s.zenith with snap := s.zenith.time } }

/-- GRID_OFFSET_MEASUREMENT: the offset o of a REFCLK edge from the nearest grid point, in 2^−16 ns, and the
grid fault while |o| > 4.5 ns (R311). `elapsed` is the edge's distance from the last tick. -/
def execGridOffsetMeasurement (elapsed : Nat) (s : State) : Host.Outcome State Fault Refusal :=
  if s.refPresent then
    let r := zUnits (stampNow s elapsed) / 65536 % 655360
    let o : Int := if r < 327680 then r else (r : Int) - 655360
    .next { s with zenith := { s.zenith with grid := o, gridFault := 294912 < o.natAbs } }
  else .next s

/-! ### TIME_SET (R305) -/

/-- The time field of a TIME_SET or SYNC payload (R302). -/
def stampAt (b : Bytes) (off : Nat) : ZTime := { s := fld b off 8, ns := fld b (off + 8) 4, frac := fld b (off + 12) 2 * 65536 }

/-- A time field that holds a time: nanoseconds below 10^9, reserved bytes zero (R302). -/
def timeChecks (b : Bytes) (off : Nat) : List Check :=
  [(off + 8, decide (fld b (off + 8) 4 < 1000000000)), rsv b (off + 14) 2]

/-- A set is refused on a root unless it lies on the grid (R305). -/
def gridTime (s : State) (t : ZTime) : Bool := s.zenith.parent ≠ 0 || (t.ns % 10 = 0 && t.frac = 0)

/-- The checks of the three ops of TIME_SET (R305). -/
def timeSetChecks (b : Bytes) : List Check :=
  [lenIs b 32, (0, fld b 0 1 = 1), rsv b 1 3, rsv b 4 1, rsv b 5 1, rsv b 6 2, rsv b 8 2, rsv b 10 6] ++ timeChecks b 16
def timeConfigChecks (b : Bytes) : List Check :=
  [lenIs b 32, (0, fld b 0 1 = 2), rsv b 1 3, (4, decide (fld b 4 1 ≤ 3)), rsv b 5 1,
    (6, decide (1 ≤ fld b 6 2 ∧ fld b 6 2 ≤ 800)), (8, decide (fld b 8 2 ≤ 475)), rsv b 10 6, rsv b 16 16]
def timeLaunchChecks (b : Bytes) : List Check :=
  [lenIs b 32, (0, fld b 0 1 = 3), rsv b 1 3, rsv b 4 1, (5, decide (fld b 5 1 ≤ 7)), rsv b 6 2, rsv b 8 2,
    rsv b 10 6] ++ timeChecks b 16

/-- Handle TIME_SET_SET: the counter is written at the next NCLK tick, and the reply follows it (R305). -/
def doTimeSetSet (f : Frame) (s : State) : State :=
  let b := f.payload
  request s f false (timeSetChecks b)
    (fun s =>
      if gridTime s (stampAt b 16) then { owe s f with zenith := { s.zenith with pendingSet := s.zenith.pendingSet ++ [(stampAt b 16, f)] } }
      else reply s f 1 0x18 [])

/-- TIME_SET_SET: the frame arrives, and Nimbus handles it. -/
def execTimeSetSet (f : Frame) (s : State) : Host.Outcome State Fault Refusal :=
  .next (onOp s f 0x08 [2, 3] (doTimeSetSet f))

/-- Handle TIME_SET_CONFIGURE: parent, interval and asymmetry at once; a new parent leaves the quality invalid until an
exchange with it is accepted (R305). -/
def doTimeSetConfigure (f : Frame) (s : State) : State :=
  let b := f.payload
  request s f false (timeConfigChecks b)
    (fun s =>
      let z := s.zenith
      let z := { z with interval := fld b 6 2, asym := fld b 8 2 }
      let z := if z.parent = fld b 4 1 then z else { z with parent := fld b 4 1, lastAccept := none, t1 := none, asked := false }
      reply { s with zenith := z } f 0 0 [])

/-- TIME_SET_CONFIGURE: the frame arrives, and Nimbus handles it. -/
def execTimeSetConfigure (f : Frame) (s : State) : Host.Outcome State Fault Refusal :=
  .next (onOp s f 0x08 [1, 3] (doTimeSetConfigure f))

/-! ### Launches (R313, R432, R433) -/

/-- The payload of a GLOBAL_EVENT launched here (R432). -/
def eventFrame (s : State) (ev hops id : Nat) (t : ZTime) : Bytes :=
  le 1 ev ++ le 1 hops ++ le 1 (deviceId s) ++ le 1 0 ++ le 2 id ++ le 2 0 ++ time12 t ++ le 4 0

/-- Place the frames of a launch on queues 48 and 49 and take the next id (R433). -/
def placeLaunch (s : State) (ev : Nat) (timed : Bool) (t : ZTime) : State :=
  let id := s.launchId
  let fl : BitVec 16 := if timed then 2 else 0
  let s := { s with launchId := (id + 1) % 65536 }
  let s := if hopsE s = 0 then s else commitFrame s 48 0x81 fl 0 (eventFrame s ev (hopsE s) id t)
  if hopsW s = 0 then s else commitFrame s 49 0x81 fl 0 (eventFrame s ev (hopsW s) id t)

/-- Whether a launch sends no frame (R433): it has no hops, or its frames were dropped, so that none has left and none waits. -/
def noFrames (s : State) (id : Nat) : Bool :=
  let its (k : Packet) : Bool := k.ty = 0x81 && fld k.payload 2 1 = deviceId s && fld k.payload 4 2 = id
  firstOfLaunch s id && !((getQueue s 48).packets ++ (getQueue s 49).packets).any its

/-- A launch made now by a `MARK`: its frames are placed and its latches set as the first leaves, or at once
where it sends none (R433). -/
def launchNow (s : State) (ev : Nat) : State :=
  let id := s.launchId
  let s := regBump (placeLaunch s ev false s.zenith.time) Reg.ringCount 0 16 1
  if noFrames s id then setEvent s (8 + ev) 1 else s

/-- Whether a direction of a launch cannot send at its launch time: port not Up, or credits lacking (R313). -/
def lateDir (s : State) (p : Port) (q hops : Nat) : Bool :=
  hops ≠ 0 && ((getPort s p).state ≠ .up || creditsHeld (getQueue s q) < frameLines 24)

/-- The ECLK of a domain from which the latches of a launch made at time `t` read set: those set in the ECLK in which `t` falls,
or now where it has passed (R58, R313). -/
def launchEclk (s : State) (t : ZTime) (x : Dom) : Nat :=
  max (clock x) (x.tickAt + ((zUnits t : Int) - zUnits s.zenith.time - x.tickOff * 524288) / 4294967296 + 1).toNat

/-- A launch is made at its launch time (R313): counted, late if a direction cannot send, its latches set where
it sends no frame. -/
def makeLaunch (s : State) (l : Launch) (late : Bool) : State :=
  let s := regBump s Reg.ringCount 0 16 1
  let late := late || lateDir s .east 48 (hopsE s) || lateDir s .west 49 (hopsW s)
  let s := if late then regBump s Reg.zenLate 0 16 1 else s
  if noFrames s l.id then setEventAt s (8 + l.event) (launchEclk s l.time) else s

/-- Handle TIME_SET_LAUNCH: queue a timed GLOBAL_EVENT (R305, R313). A launch time that has passed makes it at once. -/
def doTimeSetLaunch (f : Frame) (s : State) : State :=
  let b := f.payload
  request s f false (timeLaunchChecks b)
    (fun s =>
      let l : Launch := { event := fld b 5 1, time := stampAt b 16, id := s.launchId, made := false }
      let s := placeLaunch s l.event true l.time
      let s := if zUnits l.time < zUnits s.zenith.time then makeLaunch s l true
        else { s with zenith := { s.zenith with launches := s.zenith.launches ++ [l] } }
      reply s f 0 0 [])

/-- TIME_SET_LAUNCH: the frame arrives, and Nimbus handles it. -/
def execTimeSetLaunch (f : Frame) (s : State) : Host.Outcome State Fault Refusal :=
  .next (onOp s f 0x08 [1, 2] (doTimeSetLaunch f))

/-- Whether the launch time of a launch not made yet lies before the next tick. -/
def launchDue (s : State) (l : Launch) : Bool :=
  !l.made && decide (zUnits l.time < zUnits s.zenith.time + Config.nclkNs * 4294967296)

/-- TIMED_LAUNCH: the launches whose time comes before the next tick are made; their held frames are released at that time
(R313). -/
def execTimedLaunch (s : State) : Host.Outcome State Fault Refusal :=
  let due := s.zenith.launches.filter (launchDue s)
  let s := { s with zenith := { s.zenith with
    launches := s.zenith.launches.map (fun l => if launchDue s l then { l with made := true } else l) } }
  .next (due.foldl (fun s l => makeLaunch s l false) s)

/-! ### SYNC (R308, R309) -/

/-- A SYNC payload (R308). -/
def syncPayload (msg hops xid q : Nat) (tx rx : ZTime) : Bytes :=
  le 1 msg ++ le 1 hops ++ le 2 xid ++ le 4 q ++ le 8 0 ++ stamp16 tx ++ stamp16 rx

/-- The queue a port's SYNC frames leave on (R308). -/
def syncQueue : Port → Nat
  | .host => 16 | .east => 48 | .west => 49 | .pair => 50

/-- Handle SYNC_REQUEST, whose timestamp block arrived at `rx`: answered with a response that carries that stamp; the transmitter writes the departure stamp
(R307, R308). -/
def doSyncRequest (f : Frame) (rx : ZTime) (s : State) : State :=
  let s := freeLines s f
  if s.boot.state ≠ 1 then s
  else
    let q := quality s
    let hops := if q = none then 0xFF else if s.zenith.parent = 0 then 0 else s.zenith.hops
    commitFrame s (syncQueue f.port) 0x80 0 0
      (syncPayload 2 hops (fld f.payload 2 2) (q.getD 0xFFFFFFFF) .zero rx)

/-- SYNC_REQUEST: the frame arrives, and Nimbus handles it. -/
def execSyncRequest (f : Frame) (s : State) : Host.Outcome State Fault Refusal :=
  if fld f.payload 0 1 = 2 then .next s
  else .next (onFrame s f 0x80 (doSyncRequest f (rxStamp s f)))

/-- The port of the Zenith parent (R305). -/
def parentPort (n : Nat) : Option Port :=
  if n = 1 then some .host else if n = 2 then some .east else if n = 3 then some .west else none

/-- Twice θ and twice δ of an exchange, in 2^−16 ns (R309). -/
def theta2 (t1 t2 t3 t4 : ZTime) : Int :=
  ((zUnits t2 / 65536 : Nat) - (zUnits t1 / 65536 : Nat) : Int) - ((zUnits t4 / 65536 : Nat) - (zUnits t3 / 65536 : Nat))
def delta2 (t1 t2 t3 t4 : ZTime) : Int :=
  ((zUnits t4 / 65536 : Nat) - (zUnits t1 / 65536 : Nat) : Int) - ((zUnits t3 / 65536 : Nat) - (zUnits t2 / 65536 : Nat))

/-- A rejected exchange is counted and nothing else changes (R309). -/
def rejectExchange (s : State) : State :=
  regBump { s with zenith := { s.zenith with t1 := none, asked := false } } Reg.zenXchg 16 16 1

/-- An accepted θ, in 2^−32 ns, replaces the whole remaining correction: a jump at the next tick, which leaves none, if
|θ| ≥ 1 µs, a slew otherwise (R309). -/
def acceptExchange (s : State) (q hops : Nat) (theta : Int) : State :=
  let z := { s.zenith with
    t1 := none, asked := false, qParent := q, hops := hops + 1, lastAccept := some s.now, c := theta
    jump := if 4294967296000 ≤ theta.natAbs then some theta else none }
  regBump { s with zenith := z } Reg.zenXchg 0 16 1

/-- Handle SYNC_RESPONSE, which arrived at `at_` behind a timestamp block of stamp `t4`: it completes the exchange in flight, once
its request has left (R309). -/
def doSyncResponse (f : Frame) (t4 : ZTime) (at_ : Nat) (s : State) : State :=
  let s := freeLines s f
  match s.zenith.t1 with
  | none => s
  | some (t1, at0) =>
    if parentPort s.zenith.parent ≠ some f.port ∨ ¬ s.zenith.asked then s
    else
      let t2 := stampAt f.payload 0x20
      let t3 := stampAt f.payload 0x10
      let d2 := delta2 t1 t2 t3 t4
      if at_ ≤ at0 + us 100 ∧ fld f.payload 2 2 = s.zenith.xid ∧ fld f.payload 4 4 ≠ 0xFFFFFFFF ∧
          0 ≤ d2 ∧ d2 ≤ 2 * 10000 * 65536 then
        acceptExchange s (fld f.payload 4 4) (fld f.payload 1 1) (theta2 t1 t2 t3 t4 * 32768)
      else rejectExchange s

/-- SYNC_RESPONSE: the frame arrives, and Nimbus handles it. -/
def execSyncResponse (f : Frame) (s : State) : Host.Outcome State Fault Refusal :=
  if fld f.payload 0 1 = 1 then .next s
  else .next (onFrame s f 0x80 (doSyncResponse f (rxStamp s f) s.now))

/-- SYNC_EXCHANGE_START: once every interval a device with a parent sends a request, whose departure is t1: the
transmitter records it as the request's timestamp block leaves (R308, R309). -/
def execSyncExchangeStart (s : State) : Host.Outcome State Fault Refusal :=
  match parentPort s.zenith.parent with
  | none => .next s
  | some p =>
    if s.boot.state ≠ 1 ∨ s.now < s.zenith.lastReq + intervalNs s then .next s
    else
      let s := if s.zenith.t1.isSome then rejectExchange s else s
      let xid := (s.zenith.xid + 1) % 65536
      let s := { s with zenith := { s.zenith with xid := xid, t1 := some (s.zenith.time, s.now), asked := false, lastReq := s.now } }
      .next (commitFrame s (syncQueue p) 0x80 0 0 (syncPayload 1 0 xid 0 .zero .zero))

/-- Whether a response to the exchange in flight, departed at `t0`, has arrived in time and waits for Nimbus (R281). -/
def responseWaits (s : State) (t0 : Nat) : Bool :=
  s.inbox.any (fun e => e.frame.ty = 0x80 && fld e.frame.payload 0 1 = 2 && fld e.frame.payload 2 2 = s.zenith.xid &&
    parentPort s.zenith.parent = some e.frame.port && decide (e.at_ ≤ t0 + us 100))

/-- SYNC_EXCHANGE_TIMEOUT: no response within 100 µs of the departure of the request (R309). -/
def execSyncExchangeTimeout (s : State) : Host.Outcome State Fault Refusal :=
  match s.zenith.t1 with
  | some (_, t0) => if s.zenith.asked ∧ t0 + us 100 < s.now ∧ ¬ responseWaits s t0 then .next (rejectExchange s) else .next s
  | none => .next s

/-- SYNC_QUALITY_EXPIRY: the last accepted exchange is older than 4 intervals (R310). -/
def execSyncQualityExpiry (s : State) : Host.Outcome State Fault Refusal :=
  match s.zenith.lastAccept with
  | some t =>
    if t + 4 * intervalNs s < s.now then .next { s with zenith := { s.zenith with lastAccept := none } } else .next s
  | none => .next s

end Sys2Proof.Machine
end

