-- ==== Sys2Proof/Machine/Halo.lean ====
section
/-! DEFINITION. Halo (chapter 06): one ECLK of a domain. Vectors are popped, their symbols select waveforms, edges are
checked and placed, pins starve or park, and the actions attached to a vector take effect. -/

namespace Sys2Proof.Machine

/-! ### What a site does at a vector -/

/-- What the pins of a site do at a vector: play their queues, play their starve waveform begun at a vector, or stand
parked. -/
inductive Role where
  | play
  | starve (from_ : Nat)
  | park
  deriving DecidableEq, Repr

/-- Whether the domain ended by a job error (R73, R91, R154). -/
def discarded (x : Dom) : Bool := x.ended.map Ending.status = some 7

/-- The first vector from which a job's pins park by a job error. -/
def endVec (x : Dom) : Nat := (x.ended.map Ending.endVector).getD 0

/-- The starve waveform begun at `w` lasts `keep` vectors (R117). -/
def starveRole (keep w v : Nat) : Role := if w + keep ≤ v then .park else .starve w

/-- The role of site `k` of slot `d` at vector `v`, as decided so far (R71, R87, R115, R117, R154). -/
def roleAt (s : State) (d k v : Nat) : Role :=
  let x := getDom s d
  let y := getSite s d k
  let keep := timKeep (timImage s x.payload)
  if y.parked ∨ (discarded x ∧ endVec x ≤ v) then .park
  else match y.event, y.retired, x.keep with
    | some w, _, _ => if w ≤ v then starveRole keep w v else .play
    | none, some w, _ => if w ≤ v then .park else .play
    | none, none, some w => if w ≤ v then starveRole keep w v else .play
    | none, none, none => .play

/-- Whether a site must find a slot of vector `v` in its queue and finds none (R49). -/
def emptyAt (s : State) (d k v : Nat) : Bool :=
  roleAt s d k v = .play && (getFlow s d (flowIx (getDom s d).payload k)).pushed ≤ v

/-! ### Edges (R150 to R153) -/

/-- The edges a pin's waveform places when vector `v` plays symbol `sym` of set `set`. -/
def edgesOf (tim : Bytes) (ch set sym v : Nat) : List Edge :=
  match waveAt tim ch set sym with
  | none => []
  | some o => (waveEdges tim o).map (fun e =>
      { name := e, time := ((v * timPeriod tim + waveTime tim o e : Nat) : Int), value := waveValue tim o e
        den := if timFast tim ∧ e = .d0 then some (waveValue tim o .e0) else none, owner := v })

/-- The time at which an edge is placed: with the deskew of its kind (R151, R158). -/
def placedAt (s : State) (ch : Nat) (e : Edge) : Int :=
  e.time + (if edgeKind e.name = 2 then compareSkew s ch else driveSkew s ch)

/-- Two edges that break the separation rule (R152). -/
def tooClose (a b : Edge) : Bool := edgeKind a.name = edgeKind b.name && (a.time - b.time).natAbs < 512

/-- The first conflict of new edges with those scheduled before them on the pin: the edge and the one it meets. -/
def conflict (old : List Edge) : List Edge → Option (EdgeName × EdgeName)
  | [] => none
  | e :: r =>
    match old.find? (tooClose e) with
    | some o => some (e.name, o.name)
    | none => conflict (old ++ [e]) r

/-- The latest edge of a list in placed time. -/
def latest (s : State) (ch : Nat) (es : List Edge) : Option Edge :=
  es.foldl (fun m e => match m with
    | none => some e
    | some x => if placedAt s ch x < placedAt s ch e then some e else some x) none

/-- The value a D edge gives DRV, and an E edge, or a D edge in Fast mode, gives DEN. -/
def denValue (e : Edge) : Bool := e.den.getD e.value

/-- Deliver the edges of a pin placed before `t` ftu (R150, R151, R153). -/
def deliver (s : State) (ch : Nat) (t : Int) (p : Pin) : Pin :=
  let due := p.edges.filter (fun e => placedAt s ch e < t)
  let drv := latest s ch (due.filter (fun e => edgeKind e.name = 0))
  let den := latest s ch (due.filter (fun e => edgeKind e.name = 1 ∨ e.den.isSome))
  { p with drv := (drv.map Edge.value).getD p.drv, den := (den.map denValue).getD p.den }

/-- Park a pin at `t` ftu: edges placed from there on are cancelled, DEN and DRV go to 0 (R157, R161). -/
def parkAt (s : State) (ch : Nat) (t : Int) (p : Pin) : Pin := parkPin (deliver s ch t p)

/-- Begin a starve waveform at `t` ftu: edges placed from there on are cancelled; kind 0 parks the pin (R157). -/
def starveAt (s : State) (tim : Bytes) (ch : Nat) (t : Int) (p : Pin) : Pin :=
  let p := { deliver s ch t p with edges := [] }
  if timStarve tim ch % 4 = 0 then parkPin p else p

/-! ### Symbols -/

/-- The op of bank `b` that holds vector `v`, if the Cumulus has delivered it (R138). -/
def opAt (s : State) (b v : Nat) : Option CumOp := (getCum s b).ops.find? (fun o => o.v ≤ v ∧ v < o.v + o.len)

/-- The packed address of an op (R126). -/
def pa64 (o : CumOp) : Nat := o.x % 16777216 + o.y % 16777216 * 2 ^ 24 + o.z % 65536 * 2 ^ 48

/-- The logical address L of an op, X lowest (R128). -/
def opAddr (o : CumOp) : Nat := o.x + o.y * 2 ^ 32 + o.z * 2 ^ 64

/-- The cell of vector `j` and lane `i` of a template (R129). -/
def cellOf (cum : Bytes) (t j i : Nat) : Nat := fld cum (cumTmpl cum t + 136 + 2 * (64 * j + i)) 2

/-- The symbol that lane `i` plays in vector `j` of an op (R129). -/
def cellSym (cum : Bytes) (o : CumOp) (j i : Nat) : Nat :=
  let c := cellOf cum o.tmpl j i
  let lane := fld cum (cumTmpl cum o.tmpl + 8 + 2 * i) 2
  let n := bits c 8 2
  if c % 4 = 0 then bits c 15 12
  else if c % 4 = 1 then (if bit (opAddr o) n then bits lane 7 4 else bits lane 3 0)
  else if c % 4 = 2 then (if bit o.data n then bits lane 7 4 else bits lane 3 0)
  else if bit o.data n then bits lane 15 12 else bits lane 11 8

/-- The lane a channel names (R122). -/
def laneOf (cum : Bytes) (ch : Nat) : Nat := bits (cumMap cum ch) 6 1

/-- The symbol a channel of slot `d` plays at vector `v` of a run (R43, R45, R130). -/
def symAt (s : State) (d ch v : Nat) (r : Run) : Nat :=
  let p := (getDom s d).payload
  if handed (cumImage s p) r.cum ch then
    match opAt s (ch / 32) v with
    | some o => cellSym (cumImage s p) o (v - o.v) (laneOf (cumImage s p) ch)
    | none => 0
  else runSym (strImage s p) r ch v

/-! ### Playing a vector -/

/-- Whether the queue of a channel lacks vector `v` because its engine met a machine check (R90). -/
def lacks (x : Dom) (ch v : Nat) : Bool := x.missing.any (fun m => m.1 = ch ∧ m.2 ≤ v)

/-- One pin of vector `v`: what it plays. A pin whose queue is empty after a machine check plays its starve waveform
(R90). -/
def pinAt (s : State) (d v ch : Nat) : PlayedPin :=
  let x := getDom s d
  let p := x.payload
  let k := jobSiteOf p ch
  let quiet : PlayedPin := { ch := ch, site := k, sym := 0, tset := (getPin s ch).tset, cmp := 2, masked := false,
                             starve := false, parked := false }
  let e := timStarve (timImage s p) ch
  let starved := if e % 4 = 2 then { quiet with starve := true, sym := bits e 7 4, tset := bits e 15 8 }
    else { quiet with starve := true }
  match roleAt s d k v with
  | .park => { quiet with parked := true }
  | .starve _ => starved
  | .play =>
    match runAt (getFlow s d (flowIx p k)) v with
    | some r => if r.starve ∨ lacks x ch v ∨ (getFlow s d (flowIx p k)).pushed ≤ v then starved else { quiet with
        sym := symAt s d ch v r, tset := r.tset, cmp := r.cmp
        masked := r.mask ≠ 0 && bit (progMask (seqImage s p) (r.mask - 1)) ch }
    | none => starved

/-- The edges a pin of vector `v` asks for: none where it is parked or holds (R157). -/
def askEdges (s : State) (d v : Nat) (q : PlayedPin) : List Edge :=
  let tim := timImage s (getDom s d).payload
  if q.parked ∨ (q.starve ∧ timStarve tim q.ch % 4 ≠ 2) then [] else edgesOf tim q.ch q.tset q.sym v

/-- Bring a pin to vector `v` before its edges are checked: a pin that parks, or begins its starve waveform, loses the
edges placed from T_v on; edges that no later edge can meet are forgotten (R154, R157). -/
def enterVector (s : State) (d v : Nat) (q : PlayedPin) : State :=
  let tim := timImage s (getDom s d).payload
  let t : Int := ((v * timPeriod tim : Nat) : Int)
  let p := getPin s q.ch
  if q.parked then setPin s q.ch (parkAt s q.ch t p)
  else
    let p := match roleAt s d q.site v with
      | .starve w => if w = v then starveAt s tim q.ch t p else p
      | .play => if q.starve ∧ ((getFlow s d (flowIx (getDom s d).payload q.site)).pushed = v ∨ (q.ch, v) ∈ (getDom s d).missing)
          then starveAt s tim q.ch t p else p
      | .park => p
    setPin s q.ch p

/-- The lowest channel of a vector whose edges break R152, with the two edges. Where several pins or edges of a vector
conflict, the first conflict found on the lowest channel is the one recorded and counted: the manual names none (DESIGN
CHOICE). -/
def conflictAt (s : State) (d v : Nat) (qs : List PlayedPin) : Option (Nat × EdgeName × EdgeName) :=
  qs.findSome? (fun q => (conflict (getPin s q.ch).edges (askEdges s d v q)).map (fun c => (q.ch, c)))

/-- Record a separation conflict (R162). -/
def recordConflict (s : State) (d w : Nat) (c : Nat × EdgeName × EdgeName) : State :=
  let s0 := s
  let s := regBump s Reg.halSepCount 0 16 1
  let s := if regField s Reg.halSepStat 31 1 = 1 then regPut s Reg.halSepStat 30 1 1
    else
      let word := c.1 % 256 + edgeIx c.2.1 * 256 + edgeIx c.2.2 * 2048 + d * 16384 + 2 ^ 31 +
        regField s Reg.halSepStat 30 1 * 2 ^ 30
      regSet (regSet (regSet s Reg.halSepStat (BitVec.ofNat 32 word)) Reg.halSepVecLo (BitVec.ofNat 32 w))
        Reg.halSepVecHi (BitVec.ofNat 32 (w / 2 ^ 32 % 65536))
  noteUndo s0 s d [Reg.halSepCount, Reg.halSepStat, Reg.halSepVecLo, Reg.halSepVecHi]

/-- A job that has ended by a job error of this ECLK parks from vector `w`, which it cannot play, if not from an earlier one
(R73, R92). -/
def parkFrom (s : State) (d w : Nat) : State :=
  let x := getDom s d
  setDom s d { x with ended := x.ended.map (fun e =>
    if e.status = 7 ∧ x.endClock = clock x + 1 ∧ 2 ≤ x.endRank then { e with endVector := min e.endVector w } else e) }

/-- A separation conflict at vector `w` ends the job and is recorded (R154, R162), unless a program error or a machine check
of the same ECLK governs (R92). -/
def separation (s : State) (d w : Nat) (c : Nat × EdgeName × EdgeName) : State :=
  if mayDiscard s d (clock (getDom s d)) 0x0401 then recordConflict (discardJob s d 0x0401 w) d w c else parkFrom s d w

/-- Place a pin's edges and note its active set (R151, R162): a starve waveform leaves HAL_TSET at the last set of the
program (DESIGN CHOICE). -/
def placePin (s : State) (d v : Nat) (q : PlayedPin) : State :=
  let p := getPin s q.ch
  let played : Bool := !q.parked && !q.starve
  setPin s q.ch { p with edges := p.edges ++ askEdges s d v q, tset := if played then q.tset else p.tset }

/-! ### Actions attached to a vector (R46, R67, R68) -/

/-- Queue a marker on a MARK_OUT output: the first FCLK edge at or after `t` ftu; past 16 it is lost (R464). -/
def queueMark (s : State) (n : Nat) (t : Int) : State :=
  let m := getMark s n
  if 16 ≤ m.pending.length then regBump s Reg.markStat 16 16 1
  else setMark s n { m with pending := m.pending ++ [(t + 4095) / 4096 * 4096] }

/-- An action takes effect at vector `v`: its effect vector, or the one at which its site parks (R46). `late` tells that this
lies after the vector at which its site took an event, so that it does not reach the Aurora channels (R252). -/
def takeAct (s : State) (d v : Nat) (late : Bool) : Act → State
  | .mark w _ aurora markOut squall ring code =>
    let x := getDom s d
    let s := (if late then [] else banksOf aurora).foldl (fun s n => occur s n (.mark code) (w * jobPeriod s x.payload)) s
    let s := (banksOf markOut).foldl (fun s n => queueMark s n (w * jobPeriod s x.payload + 327680)) s
    let s := (banksOf squall).foldl (fun s b =>
      let q := getSquall s b
      if q.armed then setSquall s b { q with arrivals := q.arrivals ++ [.marker v code] } else s) s
    match ring with
    | some ev => launchNow s ev
    | none => s
  | .capt _ _ banks action =>
    (banksOf banks).foldl (fun s b =>
      let q := getSquall s b
      setSquall s b { q with capts := insertCapt (v, action) q.capts }) s

/-- The actions of a flow whose effect vector is `v` or earlier take effect. -/
def takeActs (s : State) (d fi v : Nat) : State :=
  let f := getFlow s d fi
  let due := f.acts.filter (fun a => actVec a ≤ v)
  let late : Bool := flowActive s d fi = [] &&
    (flowSites (getDom s d).payload fi).any (fun k => (getSite s d k).event.any (fun w => decide (w < v)))
  due.foldl (fun s a => takeAct s d v late a) (setFlow s d fi { f with acts := f.acts.filter (fun a => ¬ actVec a ≤ v) })

/-! ### The pair digest (R440) -/

/-- The window a vector falls into. -/
def windowOf (period v : Nat) : Nat := v * period / 8192 / 65536

/-- Extend the sum of a window by bytes and one vector. -/
def extendWindow (l : List (Nat × Nat × Word)) (w : Nat) (b : Bytes) : List (Nat × Nat × Word) :=
  match l.find? (fun e => e.1 = w) with
  | some e => (w, e.2.1 + 1, crcExtend e.2.2 b) :: l.filter (fun e => e.1 ≠ w)
  | none => (w, 1, crc32 b) :: l

/-- The drive bytes of a vector (R440). -/
def driveBytes (qs : List PlayedPin) : Bytes :=
  (qs.map (fun q => le 1 (q.sym + 16 * b2n q.starve + 32 * b2n q.parked) ++ le 1 q.tset)).flatten

/-- A vector joins its window of a pair job, up to the job's end vector. -/
def digestDrive (s : State) (d v : Nat) (qs : List PlayedPin) : State :=
  let x := getDom s d
  if pairEnable s ∧ (x.ended = none ∨ v < endVec x) then
    setDom s d { x with pair := { x.pair with
      drives := extendWindow x.pair.drives (windowOf (jobPeriod s x.payload) v) (driveBytes qs) } }
  else s

/-! ### Parking (R28, R117) -/

/-- The pins of site `k` have parked at vector `v`: the site's end, and the job's t_end so far. -/
def notePark (s : State) (d k v : Nat) : State :=
  let x := getDom s d
  let y := getSite s d k
  if roleAt s d k v = .park ∧ ¬ y.parked then
    let s := setSite s d k { y with parked := true }
    if x.ended.isSome then setDom s d { x with endAt := eclkTime s x (clock x) } else s
  else s

/-- The job's end: its Aurora channels play idle code from there on (R252). -/
def atEnd (s : State) (d : Nat) : State :=
  let x := getDom s d
  if x.ended.isSome ∧ allParked s d ∧ (discarded x ∨ ¬ judging x) then stopAuroras s d else s

/-! ### One ECLK -/

/-- The last symbols of a Cumulus run, once its last vector has been popped: they stand wherever a later word repeats
them (R43). -/
def resolveFlow (f : Flow) (v : Nat) (qs : List PlayedPin) : Flow :=
  let fix (t : Tbl Nat) : Tbl Nat :=
    qs.foldl (fun t q => if tget 0 t q.ch = openSym then tset 0 t q.ch q.sym else t) t
  match runAt f v with
  | some r =>
    if r.cum ≠ 0 ∧ v + 1 = r.v + r.count then
      { f with queue := f.queue.map (fun q => { q with base := if q.src = .again then fix q.base else q.base }), last := fix f.last }
    else f
  | none => f

/-- Pop vector `v` of a domain (R47, R49, R154). Where a vector breaks R152 while an ending that governs stands, a machine check of
this ECLK or the last or a program error of this one, no pin places an edge of that vector, and the end vector of the ending stays
unless R73 moves it: the manual does not say what the pins not yet parked play (DESIGN CHOICE). -/
def popVector (s : State) (d v : Nat) : State :=
  let x := getDom s d
  let empty : Bool := (List.range x.sites).any (fun k => emptyAt s d k v)
  let s := if ¬ empty then s else if governs x (clock x) 4 false then enterKeep s d v else parkFrom s d v
  let qs := (jobPins x.payload).map (pinAt s d v)
  let s := qs.foldl (fun s q => enterVector s d v q) s
  match conflictAt s d v qs with
  | some c =>
    let s := separation s d v c
    let qs := (jobPins x.payload).map (pinAt s d v)
    finish (qs.foldl (fun s q => enterVector s d v q) s) d v qs
  | none => finish (qs.foldl (fun s q => placePin s d v q) s) d v qs
where
  /-- The bookkeeping of a popped vector. Its readings return while a pin stands unparked, and not in keep-alive (R227). -/
  finish (s : State) (d v : Nat) (qs : List PlayedPin) : State :=
    let x := getDom s d
    let s := (flowList x).foldl (fun s fi => takeActs s d fi v) s
    let s := (flowList x).foldl (fun s fi =>
      let mine := qs.filter (fun q => flowIx x.payload q.site = fi ∧ ¬ q.starve ∧ ¬ q.parked)
      setFlow s d fi (resolveFlow (getFlow s d fi) v mine)) s
    let read : Bool := qs.any (fun q => !q.parked) && !x.keep.any (fun w => decide (w ≤ v))
    let items := (List.range x.sites).map (fun k => (k, itemAt (getFlow s d (flowIx x.payload k)) v))
    let s := digestDrive s d v qs
    let s := (List.range x.sites).foldl (fun s k => notePark s d k v) s
    let x := getDom s d
    atEnd (setDom s d { x with next := v + 1, flight := if read then x.flight ++ [{ v := v, pins := qs, items := items }] else x.flight }) d

/-- The end of an ECLK for the pins and the queues: edges placed in it are delivered, and what has been played is forgotten, but for
the run that holds the vector played last. -/
def endEclk (s : State) (d : Nat) : State :=
  let x := getDom s d
  let t : Int := clockTime (clock x + 1)
  let start : Int := ((x.next * jobPeriod s x.payload : Nat) : Int)
  let s := (jobPins x.payload).foldl (fun s ch =>
    let p := deliver s ch t (getPin s ch)
    setPin s ch { p with edges := p.edges.filter (fun e => start - 512 < e.time ∨ t ≤ placedAt s ch e) }) s
  (flowList x).foldl (fun s fi =>
    let f := getFlow s d fi
    setFlow s d fi { f with queue := f.queue.filter (fun r => x.next ≤ r.v + r.count) }) s

/-- A job that parks by a job error loses its queued slots once the engines of that ECLK have acted (R73, R91). -/
def dropDiscarded (s : State) (d : Nat) : State :=
  let x := getDom s d
  if discarded x ∧ endVec x ≤ x.next then withdrawDom s d (endVec x) else s

/-- Whether the run of a Cumulus is over: its last vector has been played, or the domain entered keep-alive in an earlier
ECLK (R115, R142). -/
def cumOver (x : Dom) (c : Cum) : Bool :=
  c.running && (decide (c.start + c.vcount ≤ x.next) || (x.keep.isSome && x.endClock ≠ clock x + 1))

/-- The end of an ECLK for the engines: marks released in it are forgotten (R113), bytes that landed in it can be used
(R109), and a Cumulus whose run is over stops. -/
def endEngines (s : State) (d : Nat) : State :=
  let x := getDom s d
  let s := (flowList x).foldl (fun s fi => setFlow s d fi { getFlow s d fi with freed := [] }) s
  let s := (jobPins x.payload).foldl (fun s ch =>
    let r := getRing s ch
    if r.fresh = 0 then s else setRing s ch { r with write := r.write + r.fresh, fresh := 0 }) s
  { s with cums := tmap Cum.init (fun _ c => if c.dom = some d ∧ cumOver x c then { c with running := false } else c) s.cums }

/-! ### Cumulus blocks (R124, R134, R135) -/

/-- The vector of the block a Cumulus prepares next: the first that the engines of its pins have not pushed, once they have reached
its run (R135). -/
def cumBlock (s : State) (d b : Nat) : Option Nat :=
  let c := getCum s b
  let ks := apgSites s d (2 ^ b)
  let a := (ks.map (fun k => (getFlow s d (flowIx (getDom s d).payload k)).pushed)).foldl max 0
  if c.running ∧ ks ≠ [] ∧ c.start ≤ a ∧ a < c.start + c.vcount then some a else none

/-- The site that answers for bank `b`: the lowest site still in the program that owns a pin of it. -/
def cumSite (s : State) (d b : Nat) : Nat := (apgSites s d (2 ^ b)).headD 0

/-- Whether a Cumulus has made every vector of the block that starts at `a`, at most 16 vectors of its run (R135). -/
def blockMade (c : Cum) (a : Nat) : Bool := decide (min (a + 16) (c.start + c.vcount) ≤ c.start + c.made)

/-- Whether a Cumulus prepares the block in which the count of R134 is not met. -/
def cumWrong (s : State) (d b : Nat) : Bool :=
  match (getCum s b).wrong, cumBlock s d b with
  | some e, some a => (getCum s b).dom = some d && decide ((getCum s b).start + e < a + 16)
  | _, _ => false

/-- The program error 0x29 of ECLK `c` where a Cumulus of the domain meets a wrong count or entry (R124, R134). -/
def cumErrors (s : State) (d c : Nat) : State :=
  (List.range 8).foldl (fun s b =>
    if runningAt (getDom s d) c ∧ cumWrong s d b then
      let k := cumSite s d b
      progErrorAt s d c k 0x29 (getFlow s d (flowIx (getDom s d).payload k)).sa (getDom s d).next
    else s) s

/-- The vectors that start in the present ECLK (R47, R148). -/
def eclkVectors (s : State) (d : Nat) : List Nat :=
  let x := getDom s d
  let n := firstVector (jobPeriod s x.payload) (x.eclk + 1) - x.next
  (List.range n).map (x.next + ·)

/-- A job error before vector 0 from which no vector plays: the queued slots are withdrawn, and the pins, which stand parked,
have parked at vector 0 (R46, R73, R91). -/
def parkUnplayed (s : State) (d : Nat) : State :=
  let x := getDom s d
  if discarded x ∧ endVec x = 0 then
    let s := withdrawDom s d 0
    let s := (flowList x).foldl (fun s fi => takeActs s d fi 0) s
    let s := (List.range x.sites).foldl (fun s k => setSite s d k { getSite s d k with parked := true }) s
    stopAuroras s d
  else s

/-- VECTOR_POP: one ECLK of a domain, after its word commands (R47, R114, R115, R148 to R157): the vectors that start in it are
popped, then the engines push; in the five ECLK before vector 0 they only push (R42). Where the pop meets a parity error in a
stream ring, a dictionary memory or a decoder, the job ends as after a machine check with source 0x0201 (R390). Of a slot whose
engines have not started it counts an ECLK. -/
def execVectorPop (d : Fin 16) (parity : Bool) (s : State) : Host.Outcome State Fault Refusal :=
  let x := getDom s d
  if x.engines ∧ ¬ x.halted ∧ x.lead = 5 ∧ (x.phase = .running ∨ x.phase = .ending) then
    let s := if parity then machineCheck s d 0x0201 else s
    let s := squallEclk s d
    let s := (eclkVectors s d).foldl (fun s v => popVector s d v) s
    let s := lateErrors (cumErrors (pushAll (endEclk s d) d x.next) d (clock x)) d (clock x)
    let s := dropDiscarded (endEngines s d) d
    .next (setDom s d { getDom s d with eclk := (getDom s d).eclk + 1 })
  else if x.engines ∧ ¬ x.halted ∧ x.phase ≠ .free ∧ x.lead < 5 then
    let s := if parity then machineCheck s d 0x0201 else s
    let s := parkUnplayed (endEngines (lateErrors (cumErrors (pushAll s d x.next) d (clock x)) d (clock x)) d) d
    .next (setDom s d { getDom s d with lead := x.lead + 1 })
  else if x.phase = .admitted ∧ ¬ x.engines ∧ ¬ x.halted then .next (setDom s d { x with idle := x.idle + 1 })
  else .next s

/-- The vector at which a site's starve waveform began. -/
def starveFrom (s : State) (d k : Nat) : Option Nat :=
  let y := getSite s d k
  match y.event with
  | some w => some w
  | none => if y.retired.isSome then none else (getDom s d).keep

/-- KEEP_ALIVE_END: keepalive_vectors vectors of the starve waveform have been played, and the site's pins park
(R117). -/
def execKeepAliveEnd (d : Fin 16) (k : Fin 256) (s : State) : Host.Outcome State Fault Refusal :=
  let x := getDom s d
  let tim := timImage s x.payload
  match starveFrom s d k with
  | some w =>
    let v := w + timKeep tim
    if x.phase ≠ .free ∧ ¬ (getSite s d k).parked ∧ v ≤ x.next then
      let s := (sitePins x.payload k).foldl (fun s ch =>
        setPin s ch (parkAt s ch ((v * timPeriod tim : Nat) : Int) (getPin s ch))) s
      .next (atEnd (notePark s d k v) d)
    else .next s
  | none => .next s

end Sys2Proof.Machine
end

