-- ==== Sys2Proof/Machine/Aurora.lean ====
section
/-! DEFINITION. Aurora (chapter 10): starts, steps, tones, jumps, streaming and supervision. -/

namespace Sys2Proof.Machine

/-- The image whose section a channel plays. -/
def aurImage (s : State) (n : Nat) : Bytes := match (getAurora s n).image with
  | some h => (getImage s h.toNat).data
  | none => []

/-- Plays of a step (R233). -/
def aurPlays (b : Bytes) (n st : Nat) : Nat := aurStep b n st 0x0C 4 % 2 ^ 24 + 1

/-- The granule at which the present step of a channel ends. -/
def stepEnd (b : Bytes) (n : Nat) (a : Aurora) : Nat := a.stepG + aurPlays b n a.step * aurGranules b n a.step

/-- One output sample in ftu: 125 ps (R238). -/
def sampleFtu : Nat := 1024

/-! ### Codes (R241, R243) -/

/-- sin of i quarter-turn steps of π ÷ 2,048, for i ≤ 1,024, in units of 2^−64: the Taylor series at fixed point. -/
def sineQuarter (i : Nat) : Nat :=
  let x := 57952155664616982739 * i / 2048
  let term (p : Int × Nat) (k : Nat) : Int × Nat :=
    let t : Nat := p.2 * x * x / (2 ^ 128 * (2 * (k + 1)) * (2 * (k + 1) + 1))
    (if k % 2 = 0 then p.1 - t else p.1 + t, t)
  ((List.range 14).foldl term ((x : Int), x)).1.toNat

/-- T[j] = round(32,767 × sin(2π j ÷ 4,096)) (R243). -/
def sineTable (j : Nat) : Int :=
  let v (i : Nat) : Int := ((32767 * sineQuarter i + 2 ^ 63) / 2 ^ 64 : Nat)
  if j ≤ 1024 then v j else if j ≤ 2048 then v (2048 - j) else if j ≤ 3072 then -v (j - 2048) else -v (4096 - j)

/-- The output s_k of an NCO with phase θ (R243). -/
def ncoOut (theta : Nat) : Int :=
  let i : Nat := theta / 2 ^ 36 % 4096
  let r : Nat := theta / 2 ^ 20 % 65536
  sineTable i + (sineTable ((i + 1) % 4096) - sineTable i) * (r : Int) / 65536

/-- sat() to a 16-bit code. -/
def sat16 (v : Int) : Int := max (-32768) (min 32767 v)

/-- The stored sample `k` of a segment: resident, or streamed from the image (R231, R232). -/
def storedSample (b : Bytes) (n sg k : Nat) : Int :=
  let loc := aurSeg b n sg 0 8
  signed 16 (if bit (aurSeg b n sg 12 1) 0 then fld b (loc + 2 * k) 2
    else fld b (fld b (aurSec b n + 0x20) 8 + 2 * (loc + k)) 2)

/-- Output sample `k` of a play of a segment step (R241). -/
def segmentCode (b : Bytes) (n st k : Nat) : Int :=
  let sg := aurStep b n st 0x10 4
  let m := aurStep b n st 0x14 2 + 1
  let len := aurSeg b n sg 8 4
  let at_ (i : Int) : Int := storedSample b n sg (max 0 (min ((len : Int) - 1) ((k / m : Nat) + i))).toNat
  let a : Int := (k % m : Nat)
  let M : Int := m
  let y := 2 * M ^ 3 * at_ 0 + a * M ^ 2 * (at_ 1 - at_ (-1)) + a ^ 2 * M * (2 * at_ (-1) - 5 * at_ 0 + 4 * at_ 1 - at_ 2) +
    a ^ 3 * (3 * at_ 0 - 3 * at_ 1 + at_ 2 - at_ (-1))
  sat16 (roundDiv (y * (aurStep b n st 0x18 2 : Nat)) (2 * m ^ 3 * 32768))

/-- The trims of a channel (R379, R380): the record in force. -/
def auroraTrim (s : State) (n : Nat) : Int × Int :=
  let r := tget AurRec.init s.horizon.aurs n
  (r.gain, r.offset)

/-- A code as it leaves the ball before conversion, in units of 2^−16 codes: c × (1 + gain_trim ÷ 65,536) + offset_trim (R380). -/
def trimmed (s : State) (n : Nat) (c : Int) : Int := c * (65536 + (auroraTrim s n).1) + (auroraTrim s n).2 * 65536

/-- The code of output sample `k` of the present step of a channel: idle code 0 unless it plays (R239, R241, R243). -/
def auroraCode (s : State) (n k : Nat) : Int :=
  let a := getAurora s n
  let b := aurImage s n
  if ¬ a.playing then 0
  else if aurStep b n a.step 0 1 % 4 = 1 then
    let s0 := ncoOut ((a.theta0 + k * a.freq0) % 2 ^ 48)
    let s1 := ncoOut ((a.theta1 + k * a.freq1) % 2 ^ 48)
    sat16 (roundDiv ((aurStep b n a.step 0x18 2 : Nat) * s0 + (aurStep b n a.step 0x1A 2 : Nat) * s1) 32768)
  else segmentCode b n a.step (k % (64 * aurGranules b n a.step))

/-- Whether a channel's stage carries zero current: it is not enabled, or the device is the shadow of its pair (R254, R438). -/
def carriesNone (s : State) (n : Nat) : Bool := (getAurora s n).zero || shadow s

/-- What a channel converts for output sample `k`, in units of 2^−16 codes: the trimmed code, and nothing from a stage at zero
current (R254, R380). The trim cancels the converter's own errors, so that `auroraCurrent` holds at the ball. -/
def auroraConverts (s : State) (n k : Nat) : Int := if carriesNone s n then 0 else trimmed s n (auroraCode s n k)

/-- The differential current of a channel's output sample after trim, in units of 2^−4 pA: 20 mA × c ÷ 32,768 (R242, R380), and
none from a stage at zero current. -/
def auroraCurrent (s : State) (n k : Nat) : Int := if carriesNone s n then 0 else 9765625 * auroraCode s n k

/-! ### The predicted path (R248) -/

/-- Streamed bytes of all plays of a step. -/
def stepBytes (b : Bytes) (n st : Nat) : Nat :=
  if aurStreamed b n st then 2 * aurSeg b n (aurStep b n st 0x10 4) 8 4 * aurPlays b n st else 0

/-- Streamed bytes of the path from step `st` with a stack, up to `limit`. A path that streams nothing more in a cycle ends
there: `mark` is a position passed since the last streamed step, moved on after `left` steps and each time twice as far. -/
def pathBytes (b : Bytes) (n : Nat) : Nat → Nat × List Nat → Nat → Option (Nat × List Nat) → Nat → Nat → Nat
  | 0, _, _, _, _, _ => 0
  | fuel + 1, pos, limit, mark, left, span =>
    let here := stepBytes b n pos.1
    if limit ≤ here then limit
    else if here = 0 ∧ mark = some pos then 0
    else
      let go (next : Nat × List Nat) : Nat :=
        if here ≠ 0 then here + pathBytes b n fuel next (limit - here) none 0 1
        else if left = 0 then pathBytes b n fuel next limit (some pos) span (2 * span)
        else pathBytes b n fuel next limit mark (left - 1) span
      let m := aurStep b n pos.1 1 1
      if m = 0 then go (aurStep b n pos.1 4 2, pos.2)
      else if m = 1 then go (aurStep b n pos.1 6 2, aurStep b n pos.1 4 2 :: pos.2)
      else if m = 2 then match pos.2 with
        | [] => here
        | r :: t => go (r, t)
      else here

/-- Bytes of a channel's stream ring (R248). -/
def aurRingSize (b : Bytes) (n : Nat) : Nat := 2 * (4194304 - aurResident b n)

/-- Where an output sample lies: the streamed bytes of the path before its step, the step, and the granule at which the step
began. A sample at a step's end counts as that step's. The walk starts at a step with a stack, its granule and bytes. -/
def locateSample (b : Bytes) (n : Nat) : Nat → Nat × List Nat → Nat → Nat → Nat → Nat × Nat × Nat
  | 0, pos, g, acc, _ => (acc, pos.1, g)
  | fuel + 1, pos, g, acc, sample =>
    let e := g + aurPlays b n pos.1 * aurGranules b n pos.1
    let go (next : Nat × List Nat) : Nat × Nat × Nat := locateSample b n fuel next e (acc + stepBytes b n pos.1) sample
    let m := aurStep b n pos.1 1 1
    if sample ≤ 64 * e then (acc, pos.1, g)
    else if m = 0 then go (aurStep b n pos.1 4 2, pos.2)
    else if m = 1 then go (aurStep b n pos.1 6 2, aurStep b n pos.1 4 2 :: pos.2)
    else if m = 2 then match pos.2 with
      | [] => (acc, pos.1, g)
      | r :: t => go (r, t)
    else (acc, pos.1, g)

/-- Where the generator stands at an output sample at most 4,096 ahead of the present step: a taken jump turns it at its
boundary. A step is at least 8 granules long, so that 12 steps hold them. -/
def genPlace (b : Bytes) (n : Nat) (a : Aurora) (sample : Nat) : Nat × Nat × Nat :=
  match a.taken with
  | some g => if sample ≤ 64 * g then (a.used, a.step, a.stepG) else locateSample b n 12 (aurStep b n a.step 8 2, []) g a.pathBase sample
  | none => locateSample b n 12 (a.step, a.stack) a.stepG a.used sample

/-- Streamed bytes of the path that the output samples before `sample` have used for the last time. -/
def bytesUsed (b : Bytes) (n : Nat) (a : Aurora) (sample : Nat) : Nat :=
  let l := genPlace b n a sample
  let st := l.2.1
  let k := sample - 64 * l.2.2
  let play := 64 * aurGranules b n st
  let m := aurStep b n st 0x14 2 + 1
  let i := k % play / m
  if aurStreamed b n st then l.1 + 2 * (k / play * aurSeg b n (aurStep b n st 0x10 4) 8 4 + (if m = 1 then i else i - 1)) else l.1

/-- Streamed bytes of the path that the output samples up to `sample` need. -/
def bytesNeeded (b : Bytes) (n : Nat) (a : Aurora) (sample : Nat) : Nat :=
  let l := genPlace b n a (sample + 1)
  let st := l.2.1
  let k := sample - 64 * l.2.2
  let play := 64 * aurGranules b n st
  let m := aurStep b n st 0x14 2 + 1
  let len := aurSeg b n (aurStep b n st 0x10 4) 8 4
  let i := k % play / m
  if aurStreamed b n st then l.1 + 2 * (k / play * len + (if m = 1 then i + 1 else min (i + 3) len)) else l.1

/-- Bytes of the next request of a channel: 0 where its ring is not eligible or its path holds no more (R248). -/
def aurRequest (b : Bytes) (n : Nat) (a : Aurora) (sample : Nat) : Nat :=
  let free := aurRingSize b n - (a.asked - bytesUsed b n a sample)
  let goal := a.asked + min 256 (free / 64 * 64)
  if free < 256 then 0
  else if goal ≤ a.pathBase then goal - a.asked
  else a.pathBase + pathBytes b n (2 ^ 60) (a.pathStep, []) (goal - a.pathBase) none 0 1 - a.asked

/-- The ring fill in granules of 64 samples, with the generator at `sample` (R256). -/
def ringFill (b : Bytes) (n : Nat) (a : Aurora) (sample : Nat) : Nat := (a.landed - bytesUsed b n a sample) / 128

/-- Note the ring fill (R256). -/
def noteFill (b : Bytes) (n : Nat) (a : Aurora) (sample : Nat) : Aurora :=
  let fill := ringFill b n a sample
  { a with minFill := some (min (a.minFill.getD fill) fill) }

/-- Output samples the converter has taken by the end of the present ECLK: one in every 125 ps from sample 0 on (R247). -/
def converted (s : State) (n : Nat) : Nat :=
  let a := getAurora s n
  match a.dom with
  | some d => if a.playing then ((clockTime (clock (getDom s d)) - a.ball + (sampleFtu : Int) - 1) / (sampleFtu : Int)).toNat else 0
  | none => 0

/-- Whether the generator can have made the output samples before `sample`: the streamed samples they need have landed (R247). -/
def canMake (s : State) (n sample : Nat) : Bool :=
  sample = 0 || decide (bytesNeeded (aurImage s n) n (getAurora s n) (sample - 1) ≤ (getAurora s n).landed)

/-- The output sample the generator has reached: it keeps the queue of 4,096 codes filled ahead of the converter as far as the
streamed samples it needs have landed, and does not go back (R247). The manual gives no rate at which it fills the queue: that
it fills it within the ECLK is a DESIGN CHOICE. -/
def generated (s : State) (n : Nat) : Nat :=
  let a := getAurora s n
  let top := converted s n + 4096
  let low := max a.gen (64 * a.stepG)
  (List.range 48).foldl (fun g i =>
    let g' := g + 2 ^ (47 - i)
    if g' ≤ top ∧ canMake s n g' then g' else g) low

/-- Note the present ring fill (R256). -/
def notePresent (s : State) (n : Nat) : Aurora :=
  let g := generated s n
  { noteFill (aurImage s n) n (getAurora s n) g with gen := g }

/-- The lowest ring fill since the last read of AUR_RING_n: the one noted, or the present one (R256). -/
def lowFill (s : State) (n : Nat) : Nat :=
  if (getAurora s n).dom = none then (getAurora s n).minFill.getD 0 else (notePresent s n).minFill.getD 0

/-- Whether the generator stands at an output sample. -/
def genOk (s : State) (n sample : Nat) : Bool := generated s n = sample

/-- The size of the request channel `n` would make now (R247, R248). -/
def auroraWants (s : State) (n : Nat) : Nat := aurRequest (aurImage s n) n (getAurora s n) (generated s n)

/-- Whether the bucket of a channel's claim holds its request. -/
def auroraClaimed (s : State) (n : Nat) : Bool :=
  decide (8 * auroraWants s n ≤ bucketLevel s (aurKey n) (aurStream (aurImage s n) n))

/-- An eligible ring of a claimed channel issues a request, within its claim or borrowed (R248). -/
def auroraNow (s : State) (n : Nat) (borrow : Bool) : State :=
  let a := getAurora s n
  let b := aurImage s n
  let g := generated s n
  let size := auroraWants s n
  let claimed := auroraClaimed s n
  if a.dom = none ∨ size = 0 ∨ ¬ (claimed ∨ borrow) then s
  else
    let s := debit s aurPortKey (regField s Reg.drmPlanAux 0 16) size
    let s := if claimed then debit s (aurKey n) (aurStream b n) size else s
    setAurora s n { noteFill b n a g with gen := g, asked := a.asked + size, flight := a.flight ++ [size] }

/-- AURORA_REFILL_REQUEST: an eligible ring of a claimed channel issues a request; `sample` is the output sample the
generator has reached, and `borrow` tells that the arbiter offers unclaimed bandwidth (R247, R248, R325). The request waits while
the DRAM is not in service (R333, R335); a frozen or untrained DRAM takes none. -/
def execAuroraRefillRequest (n : Fin 8) (borrow : Bool) (sample : Nat) (s : State) : Host.Outcome State Fault Refusal :=
  if (getAurora s n).dom = none ∨ auroraWants s n = 0 ∨ ¬ (auroraClaimed s n ∨ borrow) ∨ ¬ genOk s n sample then .next s
  else if dramServing s then .next (auroraNow (touchDram s) n borrow)
  else if s.dram.state = .frozen ∨ s.dram.state = .training ∨
      s.dram.waiting.any (fun r => match r with | .aurora i _ => i = n.val | _ => false) then .next s
  else .next (askDram s (.aurora n borrow))

/-- AURORA_REFILL_LANDING: the oldest request of a channel lands (R248); not while the DRAM is frozen, which serves no pending
request (R329). The ring fill is noted before it (R256). -/
def execAuroraRefillLanding (n : Fin 8) (s : State) : Host.Outcome State Fault Refusal :=
  let a := notePresent s n
  match a.flight with
  | size :: r => .next (if s.dram.state = .frozen then s else setAurora s n { a with landed := a.landed + size, flight := r })
  | [] => .next s

/-! ### Steps (R239, R243) -/

/-- The NCO phases after `n` output samples. -/
def turn (theta f n : Nat) : Nat := (theta + n * f) % 2 ^ 48

/-- Leave the present step at granule `g`: the NCOs have turned for its samples. -/
def leaveStep (a : Aurora) (g : Nat) : Aurora :=
  let n := 64 * (g - a.stepG)
  { a with theta0 := turn a.theta0 a.freq0 n, theta1 := turn a.theta1 a.freq1 n }

/-- Enter step `st` at granule `g`: a tone step loads its frequency words and, with phase_reset, its phases (R243). -/
def enterStep (b : Bytes) (n : Nat) (a : Aurora) (st g : Nat) : Aurora :=
  let a := { a with step := st, stepG := g }
  let c := aurStep b n st 0 1
  if c % 4 = 1 then
    let a := { a with freq0 := aurStep b n st 0x20 8 % 2 ^ 47, freq1 := aurStep b n st 0x28 8 % 2 ^ 47 }
    if bit c 3 then { a with theta0 := 0, theta1 := aurStep b n st 0x1C 2 * 2 ^ 32 } else a
  else a

/-- The markers of the step a channel has entered, 24 ns after its first sample (R239, R464). -/
def stepMarks (s : State) (n : Nat) : State :=
  let a := getAurora s n
  (banksOf (aurStep (aurImage s n) n a.step 0x0A 1)).foldl (fun s m =>
    queueMark s m (a.ball + 64 * a.stepG * sampleFtu + 196608)) s

/-- Whether `x` lies within 4 samples of `y`, both in ftu (R237, R244). -/
def near4 (x y : Int) : Bool := (x - y).natAbs ≤ 4 * sampleFtu

/-- AURORA_START: an armed channel starts on its start source; `ball` is the time at which sample 0 leaves the ball,
80 ns and start_delay after T_r within 4 samples (R237). -/
def execAuroraStart (n : Fin 8) (src : AurSource) (ball : Int) (s : State) : Host.Outcome State Fault Refusal :=
  let a := getAurora s n
  let b := aurImage s n
  match a.due with
  | some (src', tr) =>
    if a.armed ∧ src' = src ∧ near4 ball (tr + 655360 + fld b (aurSec b n + 0x10) 4 * sampleFtu) then
      let a := { a with armed := false, playing := true, started := true, ball := ball, stack := [],
                        theta0 := 0, theta1 := 0, freq0 := 0, freq1 := 0 }
      .next (stepMarks (setAurora s n (enterStep b n a (aurEntry b n) 0)) n)
    else .next s
  | none => .next s

/-- Whether a request that has arrived registers before granule `g` begins. -/
def unregistered (a : Aurora) (g : Nat) : Bool := a.arrived.any (fun r => r.1 + 1 < g)

/-- AURORA_STEP_END: the present step has finished its plays and next_mode acts; a jump that acts at that boundary
governs (R239, R246). -/
def execAuroraStepEnd (n : Fin 8) (s : State) : Host.Outcome State Fault Refusal :=
  let a := getAurora s n
  let b := aurImage s n
  let g := stepEnd b n a
  if ¬ a.playing ∨ a.taken.isSome ∨ unregistered a g then .next s
  else
    let st := a.step
    let m := aurStep b n st 1 1
    let a := { leaveStep a g with used := a.used + stepBytes b n st }
    let go (t : Nat) (stack : List Nat) : State :=
      stepMarks (setAurora s n (enterStep b n { a with stack := stack } t g)) n
    let stop : State := setAurora s n { a with playing := false, stepG := g, arrived := [] }
    .next (if m = 0 then go (aurStep b n st 4 2) a.stack
      else if m = 1 then go (aurStep b n st 6 2) (aurStep b n st 4 2 :: a.stack)
      else if m = 2 then (match a.stack with
        | r :: t => go r t
        | [] => stop)
      else stop)

/-! ### Jumps (R244 to R246) -/

/-- Count a field of AUR_REQ. -/
def bumpReq (s : State) (n lo : Nat) : State := regBump s (Reg.aurReq n) lo 8 1

/-- JUMP_REQUEST_ARRIVAL: a request arrives 48 ns after T_r within 4 samples, at output sample `sample` of a playing
channel; before sample 0 or after the stop it is ignored (R244). -/
def execJumpRequestArrival (n : Fin 8) (src : AurSource) (sample : Int) (s : State) : Host.Outcome State Fault Refusal :=
  let a := getAurora s n
  match a.requests.find? (fun r => r.1 = src) with
  | none => .next s
  | some r =>
    if a.playing ∧ ¬ near4 (a.ball + sample * 1024) (r.2 + 393216) then .next s
    else
      let s := setAurora s n { a with requests := a.requests.erase r }
      let g := sample.toNat / 64
      if ¬ a.playing ∨ sample < 0 ∨ g < a.stepG then .next (bumpReq s n 16)
      else .next (setAurora s n { getAurora s n with arrived := a.arrived ++ [(g, src)] })

/-- Whether a request matches the jev_src and jev_arg of a step (R245). -/
def jevMatches (b : Bytes) (n st : Nat) : AurSource → Bool
  | .mark c => aurStep b n st 2 1 = 1 && aurStep b n st 3 1 = c.toNat
  | .event e => aurStep b n st 2 1 = 2 && aurStep b n st 3 1 = e

/-- The requests in flight that still fall before a byte of the path. -/
def trimFlight : List Nat → Nat → List Nat
  | [], _ => []
  | z :: r, room => if room = 0 then [] else min z room :: trimFlight r (room - z)

/-- A jump is taken with its boundary at granule `t`: what the ring holds of the path beyond it is discarded, and refill goes on
from jev_target (R249). -/
def turnPath (b : Bytes) (n : Nat) (a : Aurora) (t gen : Nat) : Aurora :=
  let edge := bytesNeeded b n a (64 * t - 1)
  let a := { a with
    asked := min a.asked edge, landed := min a.landed edge, flight := trimFlight a.flight (edge - a.landed)
    pathBase := edge, pathStep := aurStep b n a.step 8 2, taken := some t }
  noteFill b n a (max gen (64 * a.stepG))

/-- JUMP_REQUEST_REGISTER: the oldest request that has arrived, in granule g, registers at the start of granule g + 1,
where the present step plays that granule: taken, merged or discarded (R245, R246, R249). -/
def execJumpRequestRegister (n : Fin 8) (s : State) : Host.Outcome State Fault Refusal :=
  let a := getAurora s n
  let b := aurImage s n
  match a.arrived with
  | [] => .next s
  | (g, src) :: r =>
    let bound := match a.taken with
      | some t => t
      | none => stepEnd b n a
    if ¬ a.playing ∨ bound ≤ g + 1 then .next s
    else
      let s := setAurora s n { a with arrived := r }
      if ¬ jevMatches b n a.step src then .next (bumpReq s n 0)
      else if a.taken.isSome then .next (bumpReq s n 8)
      else
        let play := aurGranules b n a.step
        let t := if bit (aurStep b n a.step 0 1) 2 then g + 2 else a.stepG + ((g + 1 - a.stepG) / play + 1) * play
        .next (bumpReq (setAurora s n (turnPath b n { a with arrived := r } t (generated s n))) n 24)

/-- AURORA_JUMP: a taken jump acts at its boundary: the channel continues at jev_target with the stack emptied, and what the
generator had made beyond the boundary is made anew (R245, R246). -/
def execAuroraJump (n : Fin 8) (s : State) : Host.Outcome State Fault Refusal :=
  let a := getAurora s n
  let b := aurImage s n
  match a.taken with
  | some g =>
    if ¬ a.playing ∨ unregistered a g then .next s
    else
      let target := aurStep b n a.step 8 2
      let a := { leaveStep a g with taken := none, stack := [], used := a.pathBase, gen := 64 * g }
      .next (stepMarks (setAurora s n (enterStep b n a target g)) n)
  | none => .next s

/-! ### Early stops (R250 to R255) -/

/-- A job's AURORA_UNDERRUN flag (R34, R251). -/
def flagUnderrun (s : State) (a : Aurora) : State := match a.dom with
  | some d => setDom s d { getDom s d with flags := (getDom s d).flags ||| 8 }
  | none => s

/-- A channel stops for the rest of the job, with its cause and the sample from which it plays idle code. -/
def stopEarly (s : State) (n cause sample : Nat) : State :=
  let a := getAurora s n
  flagUnderrun (setAurora s n { a with
    playing := false, armed := false, taken := none, arrived := [], cause := cause, stopAt := sample }) a

/-- AURORA_UNDERRUN: the converter needs output sample `sample`, and the queue is empty: the generator has not reached it, since
the streamed samples it is made of have not landed (R247, R250). -/
def execAuroraUnderrun (n : Fin 8) (sample : Nat) (s : State) : Host.Outcome State Fault Refusal :=
  let a := getAurora s n
  let b := aurImage s n
  if a.playing ∧ aurStreamed b n a.step ∧ 64 * a.stepG ≤ sample ∧ sample < 64 * a.taken.getD (stepEnd b n a) ∧
      generated s n ≤ sample ∧ sample ≤ converted s n ∧ a.landed < bytesNeeded b n a sample then
    .next (stopEarly (setAurora s n (notePresent s n)) n 1 sample)
  else .next s

/-- OPEN_LOAD_CHECK: the load check of a claimed channel's wake completes; `highLeg` tells that a leg lay above
+0.5 V (R253). -/
def execOpenLoadCheck (n : Fin 8) (highLeg : Bool) (s : State) : Host.Outcome State Fault Refusal :=
  let a := getAurora s n
  if a.dom = none ∨ a.enabled ∨ a.started ∨ a.cause ≠ 0 ∨ s.anvil.state ≠ .running then .next s
  else if highLeg then
    .next (raiseEvent (flagUnderrun (setAurora s n { a with cause := 3, zero := true }) a) 0x0802 (le 4 n))
  else .next (setAurora s n { a with enabled := true, armed := true, zero := false })

/-- COMPLIANCE_VIOLATION: a node of an enabled channel lay outside its range for 50 ns: the stage turns off, and the
channel plays idle code from output sample `sample` on (R254). -/
def execComplianceViolation (n : Fin 8) (sample : Nat) (s : State) : Host.Outcome State Fault Refusal :=
  let a := getAurora s n
  if a.enabled then
    let s := stopEarly s n 2 (if a.playing then sample else 0)
    let s := setAurora s n { getAurora s n with enabled := false, zero := true }
    .next (raiseEvent s 0x0801 (le 4 n))
  else .next s

/-- AURORA_PARITY_ERROR: a memory of a playing channel meets a parity error (R255). The job ends as after a machine
check; `testOk` tells whether the channel's memories pass the test that follows. -/
def execAuroraParityError (n : Fin 8) (sample : Nat) (testOk : Bool) (s : State) : Host.Outcome State Fault Refusal :=
  let a := getAurora s n
  match a.dom with
  | some d =>
    if a.playing then
      let s := stopEarly (regPut s (Reg.aurStat n) 23 1 1) n 4 sample
      .next (unitCheck (setAurora s n { getAurora s n with test := some testOk }) d 0x0803)
    else .next s
  | none => .next s

end Sys2Proof.Machine
end

