-- ==== Sys2Proof/Machine/Dram.lean ====
section
/-! DEFINITION. DRAM (chapter 14): the outer code, reads and the locate sequence, write CRC, mode registers, freeze,
refresh, scrub, self-refresh and the bandwidth plan. -/

namespace Sys2Proof.Machine

/-! ### Raw bytes -/

/-- The canonical form of the raw bytes: addresses strictly rising, no byte equal to what an unlisted address reads as. -/
def Memory.wf (m : List Host.Cell) : Bool := twf (0 : Byte) 0 m

/-- Read a raw byte; one that nothing has written reads 0. -/
def Memory.read (m : List Host.Cell) (a : Nat) : Byte := tget (0 : Byte) m a

/-- Write a raw byte. -/
def Memory.write (m : List Host.Cell) (a : Nat) (b : Byte) : List Host.Cell := tset (0 : Byte) m a b

/-- Write a byte string from an address on. -/
def Memory.writes (m : List Host.Cell) (a : Nat) : Bytes → List Host.Cell
  | [] => m
  | b :: r => Memory.writes (Memory.write m a b) (a + 1) r


/-- The place that a burst number selects (R317). -/
structure Place where
  sub       : Nat
  bankGroup : Nat
  bank      : Nat
  column    : Nat
  row       : Nat
  deriving DecidableEq, Repr

/-- The subchannel of a burst (R317). -/
def subOf (burst : Nat) : Nat := burst % 8

/-- Where a burst lies: subchannel, bank group, bank, column address and row (R317). -/
def placeOf (burst : Nat) : Place :=
  { sub := subOf burst, bankGroup := bits burst 5 3, bank := bits burst 7 6, column := bits burst 13 8 * 16, row := burst / 2 ^ 14 }

/-- Rows of a component of a density (R317). -/
def rowCount (density : Nat) : Nat := 4096 * density

/-- Whether a burst lies in the data space: its row exists (R317). -/
def burstOk (s : State) (burst : Nat) : Bool := decide ((placeOf burst).row < rowCount s.dram.density)

/-- Bursts of the data space. -/
def burstCount (s : State) : Nat := capacity s / 64

/-- The bytes of a read that an error pattern changes. -/
def upset (b : Bytes) (e : List (Nat × Byte)) : Bytes :=
  (List.range b.length).map (fun i => (e.filter (fun x => x.1 = i)).foldl (fun v x => v ^^^ x.2) (b.getD i 0))

/-! ### The outer code (R320, R321) -/

/-- Multiply by α in GF(2^8). -/
def gfStep (a : Byte) : Byte := if a.getLsbD 7 then (a <<< 1) ^^^ 0x1D#8 else a <<< 1

/-- α to a power. -/
def gfPow : Nat → Byte
  | 0 => 1
  | k + 1 => gfStep (gfPow k)

/-- The product of two field elements, over the low `n` bits of the second. -/
def gfMulBits : Nat → Byte → Byte → Byte
  | 0, _, _ => 0
  | n + 1, a, b => gfMulBits n (gfStep a) (b >>> 1) ^^^ (if b.getLsbD 0 then a else 0)
def gfMul (a b : Byte) : Byte := gfMulBits 8 a b

/-- The quotient of two field elements: b^254 is the inverse of b. -/
def gfDiv (a b : Byte) : Byte := (List.range 254).foldl (fun p _ => gfMul p b) a

/-- The check symbols c_8 and c_9 of eight data bytes: the remainder of their polynomial by g(x) = x^2 + 0x03·x + 0x02, one byte
after the other (R320). -/
def checkSymbols (d : Bytes) : Byte × Byte :=
  d.foldl (fun r c => let t := r.1 ^^^ c
                      (r.2 ^^^ gfMul 3 t, gfMul 2 t)) (0, 0)

/-- The 80 raw bytes of a burst with the codewords of 64 data bytes (R316, R320). -/
def encodeBurst (d : Bytes) : Bytes :=
  (List.range 8).flatMap (fun j =>
    let w := (d.drop (8 * j)).take 8
    let c := checkSymbols w
    w.take 4 ++ [c.1] ++ w.drop 4 ++ [c.2])

/-- The 64 data bytes of a raw burst. -/
def dataOf (b : Bytes) : Bytes := (List.range 64).map (fun i => b.getD (5 * (i / 4) + i % 4) 0)

/-- The image or staging that holds a page: its bytes, and the place of the page in it. -/
def pageHolder (s : State) (p : Nat) : Option (Bytes × Nat) :=
  match s.images.find? (fun i => i.2.pages.contains p) with
  | some i => some (i.2.data, i.2.pages.idxOf p)
  | none => (s.stagings.find? (fun t => t.2.pages.contains p)).map (fun t => (t.2.data, t.2.pages.idxOf p))

/-- The codewords of what LOAD has placed in a burst: zeros where it has placed nothing. -/
def baseBurst (s : State) (burst : Nat) : Bytes :=
  match pageHolder s (burst / 64) with
  | some (d, i) =>
    let l := (d.drop (4096 * i + 64 * (burst % 64))).take 64
    encodeBurst (l ++ List.replicate (64 - l.length) 0)
  | none => List.replicate 80 0

/-- The 80 raw bytes of a burst (R316, R331). -/
def rawBurst (s : State) (burst : Nat) : Bytes :=
  let b := baseBurst s burst
  (List.range 80).map (fun i => b.getD i 0 ^^^ Memory.read s.dram.cells (80 * burst + i))

/-- Write the 80 raw bytes of a burst. -/
def putBurst (s : State) (burst : Nat) (b : Bytes) : State :=
  let o := baseBurst s burst
  { s with dram := { s.dram with
    cells := Memory.writes s.dram.cells (80 * burst) ((List.range 80).map (fun i => b.getD i 0 ^^^ o.getD i 0)) } }

/-- The place in the burst of symbol `i` of codeword `j`, and its component (R320). -/
def symbolPlace (j i : Nat) : Nat :=
  if i < 4 then 10 * j + i else if i < 8 then 10 * j + 5 + (i - 4) else if i = 8 then 10 * j + 4 else 10 * j + 9
def symbolComp (i : Nat) : Nat := if i < 8 then i % 4 else 4

/-- The syndromes of codeword `j`. -/
def syndrome0 (b : Bytes) (j : Nat) : Byte := (List.range 10).foldl (fun a i => a ^^^ b.getD (symbolPlace j i) 0) 0
def syndrome1 (b : Bytes) (j : Nat) : Byte :=
  (List.range 10).foldl (fun a i => a ^^^ gfMul (gfPow (9 - i)) (b.getD (symbolPlace j i) 0)) 0

/-- What a codeword's syndromes show: nothing, one symbol error, or another shape (R321 rules 1 and 2). -/
inductive Shape where
  | clean
  | single (i : Nat) (v : Byte)
  | other
  deriving DecidableEq, Repr

def shapeOf (s0 s1 : Byte) : Shape :=
  if s0 = 0 ∧ s1 = 0 then .clean
  else if s0 = 0 then .other
  else match (List.range 10).find? (fun k => gfMul s0 (gfPow k) = s1) with
    | some k => .single (9 - k) s0
    | none => .other

/-- The single errors of a burst as (codeword, symbol, value); none if a codeword has another shape. -/
def singles (b : Bytes) : Option (List (Nat × Nat × Byte)) :=
  (List.range 8).foldl (fun m j => match m, shapeOf (syndrome0 b j) (syndrome1 b j) with
    | some l, .clean => some l
    | some l, .single i v => some (l ++ [(j, i, v)])
    | _, _ => none) (some [])

/-- Correct symbols of a burst. -/
def correct (b : Bytes) (l : List (Nat × Nat × Byte)) : Bytes := upset b (l.map (fun e => (symbolPlace e.1 e.2.1, e.2.2)))

/-- Rule 2: the corrected burst and the symbols corrected; none if the burst is uncorrectable at this stage. -/
def decodeTwo (b : Bytes) : Option (Bytes × Nat) :=
  match singles b with
  | some [] => some (b, 0)
  | some (e :: r) =>
    if r.all (fun x => symbolComp x.2.1 = symbolComp e.2.1) then some (correct b (e :: r), r.length + 1) else none
  | none => none

/-- The two symbols of a component. -/
def compSymbols (m : Nat) : Nat × Nat := if m < 4 then (m, m + 4) else (8, 9)

/-- Rule 3: decode with the two symbols of component `m` as erasures; always succeeds. -/
def decodeThree (b : Bytes) (m : Nat) : Bytes × Nat :=
  let a := (compSymbols m).1
  let z := (compSymbols m).2
  let errs := (List.range 8).flatMap (fun j =>
    let s0 := syndrome0 b j
    let ea := gfDiv (syndrome1 b j ^^^ gfMul s0 (gfPow (9 - z))) (gfPow (9 - a) ^^^ gfPow (9 - z))
    [(j, a, ea), (j, z, s0 ^^^ ea)].filter (fun e => e.2.2 ≠ 0))
  (correct b errs, errs.length)

/-- The marked component of a subchannel (R322). -/
def markedComp (s : State) (sub : Nat) : Option Nat :=
  let m := tget 0 s.dram.marked sub
  if m = 0 then none else some (m - 1)

/-- Decode a read burst under R321: the data, the symbols corrected, and whether rule 2 applied. -/
def decodeBurst (s : State) (sub : Nat) (b : Bytes) : Option (Bytes × Nat × Bool) :=
  match markedComp s sub with
  | some m => some ((decodeThree b m).1, (decodeThree b m).2, false)
  | none => (decodeTwo b).map (fun r => (r.1, r.2, true))

/-! ### Freeze (R329, R330) -/

/-- `n` free bytes in steps of eight. -/
def freeBytes : Nat → State → Bytes × State
  | 0, s => ([], s)
  | n + 1, s =>
    let a := drawFree s
    let r := freeBytes n a.2
    (le 8 a.1 ++ r.1, r.2)

/-- Command entries from free words, newest first in `ws` and oldest first in the answer: the age of each counts on from that of
the next, and a command of one cycle has no second (R330). -/
def commandEntries : List Nat → Nat → List Bytes
  | [], _ => []
  | w :: ws, age =>
    let age := min (age + w / 2 ^ 32) 0xFFFFFFFF
    let ca := if w.testBit 28 then w % 2 ^ 28 else w % 2 ^ 14
    commandEntries ws age ++ [le 8 (ca + w % 2 ^ 29 / 2 ^ 28 * 2 ^ 28 + age * 2 ^ 32)]

/-- The last 64 commands of a subchannel, oldest first: the manual gives no row that issues them, so they are free values in the
form of R330. -/
def freeCommands (s : State) : Bytes × State :=
  let r := freeBytes 64 s
  ((commandEntries ((List.range 64).map (fun i => fld r.1 (8 * i) 8)) 0).flatten, r.2)

/-- The changes of operating point that stand are given up, and their requests refused. -/
def refuseChanges (s : State) : State :=
  s.dram.change.foldl (fun s c => match c.2 with
    | some f => reply s f 1 1 []
    | none => s) { s with dram := { s.dram with change := [] } }

/-- Freeze the controller (R329): the snapshot, unless one is kept (R330), and the fault. Changes of operating point are
given up, and the DRAM parts of the queues are lost (R400). -/
def freeze (s : State) (trigger sub comp modeReg address : Nat) (syn raw : Bytes) : State :=
  let c := freeCommands s
  let snap := le 1 trigger ++ le 1 sub ++ le 1 comp ++ le 1 modeReg ++ le 4 0 ++ le 8 address ++ syn ++ raw ++
    time12 s.zenith.time ++ le 4 0 ++ c.1
  let s := if s.dram.snapHeld then s else { c.2 with dram := { c.2.dram with snapshot := snap, snapHeld := true } }
  loseDramParts (refuseChanges
    (latchFault { s with dram := { s.dram with state := .frozen, checks := [] } } (0x0C00 + trigger) sub))

/-! ### Reads (R321, R322, R328) -/

/-- The bucket of a port (R325). -/
def dramKey : DramPort → Nat
  | .bank b => portKey b
  | .aurora => aurPortKey
  | .spill => spillKey
  | .host => hostKey

/-- The data of a corrected burst is returned to the port that asked for it; scrub takes none (R321). -/
def giveBack (s : State) (port : Option DramPort) (raw : Bytes) : State :=
  match port with
  | some p => { s with dram := { s.dram with returned := tset [] s.dram.returned (dramKey p) (dataOf raw) } }
  | none => s

/-- A burst decoded: it is returned corrected, and corrected symbols are counted; scrub writes a burst corrected under rule 2
back. -/
def useBurst (s : State) (burst : Nat) (port : Option DramPort) (r : Bytes × Nat × Bool) : State :=
  let s := regBump (giveBack s port r.1) (Reg.drmCorr (subOf burst)) 0 16 r.2.1
  if port = none ∧ r.2.2 ∧ 0 < r.2.1 then regBump (putBurst s burst r.1) (Reg.drmCorr (subOf burst)) 16 16 1 else s

/-- The locate sequence (R322). -/
def locate (s : State) (burst : Nat) (port : Option DramPort) (fault : BurstFault) : State :=
  let sub := subOf burst
  let s := regBump s (Reg.drmSub sub) 8 8 1
  let kept := upset (rawBurst s burst) fault.second
  match decodeBurst s sub kept with
  | some r => useBurst s burst port r
  | none =>
    match fault.failed.eraseDups with
    | [m] =>
      let s := { s with dram := { s.dram with marked := tset 0 s.dram.marked sub (m.val + 1) } }
      let r := decodeThree kept m.val
      let s := regBump (putBurst (giveBack s port r.1) burst r.1) (Reg.drmCorr sub) 0 16 r.2
      raiseEvent s 0x0C04 (le 1 sub ++ le 1 m.val ++ le 2 0)
    | failed =>
      let mask := (failed.map (fun d => 2 ^ d.val)).sum
      let syn := ((List.range 8).map (fun j => [syndrome0 kept j, syndrome1 kept j])).flatten
      freeze (putBurst s burst (List.replicate 80 0xFF)) 1 sub mask 0 (64 * burst) syn kept

/-- Read a burst for a port, or for scrub (R321): decoded, corrected, or located. -/
def readBurst (s : State) (burst : Nat) (port : Option DramPort) (fault : BurstFault) : State :=
  match decodeBurst s (subOf burst) (upset (rawBurst s burst) fault.first) with
  | some r => useBurst s burst port r
  | none => locate s burst port fault

/-- The share of a port in units of 0.125 GB/s (R324, R325). -/
def dramShare (s : State) : DramPort → Nat
  | .bank b => regField s (Reg.drmPlan b) 0 16
  | .aurora => regField s Reg.drmPlanAux 0 16
  | .spill => regField s Reg.drmPlanAux 16 16
  | .host => hostShare

/-- Serve a burst to a port: its bucket is debited by the 64 data bytes (R316, R325). -/
def serveRead (s : State) (port : DramPort) (burst : Nat) (fault : BurstFault) : State :=
  readBurst (touchDram (debit s (dramKey port) (dramShare s port) 64)) burst (some port) fault

/-- Debit the bucket of patrol scrub, which fills at the rate that completes a pass in DRM_SCRUB.pass_minutes of time in service
(R325, R328). -/
def debitScrub (s : State) : State :=
  let b := getBucket s scrubKey
  let fill := (s.dram.served - b.at_) * (8 * capacity s) / (regField s Reg.drmScrub 0 14 * 60000000000)
  setBucket s scrubKey { level := min 32768 (b.level + fill) - 512, at_ := s.dram.served }

/-- PATROL_SCRUB_READ: the next burst of the scrub, wrapping at the end, where a pass is counted (R328). -/
def execPatrolScrubRead (fault : BurstFault) (s : State) : Host.Outcome State Fault Refusal :=
  let b := s.dram.scrubAt
  if dramServing s ∧ burstOk s b then
    let s := debitScrub s
    let s := if b + 1 = burstCount s then regBump s Reg.drmScrub 16 16 1 else s
    let s := { s with dram := { s.dram with scrubAt := if b + 1 = burstCount s then 0 else b + 1 } }
    .next (readBurst s b none fault)
  else .next s

/-! ### Writes, mode registers, refresh (R323, R327, R329) -/

/-- ALERT_N: DDR_ALERT_N_s asserts (R323). `writes` writes lie in the alert window, and ALERT_n persists after `persist` of
the two re-issues; after the second the subchannel freezes. A trigger that arrives while the controller is frozen merges
under Anvil's rules (R329). The write as sent is open here: its address and bytes are free values. -/
def execAlertN (sub : Fin 8) (writes persist : Nat) (s : State) : Host.Outcome State Fault Refusal :=
  if s.dram.state = .frozen then
    if 2 ≤ persist then .next (latchFault s 0x0C02 sub.val) else .next s
  else if dramServing s then
    let s := regBump s (Reg.drmSub sub) 16 8 (writes * (1 + min persist 1))
    if 2 ≤ persist then
      let a := drawFree s
      let r := freeBytes 8 a.2
      let burst := a.1 % max (burstCount s / 8) 1 * 8 + sub.val
      .next (freeze r.2 2 sub.val 0xFF 0 (64 * burst) (List.replicate 16 0) (encodeBurst r.1))
    else .next s
  else .next s

/-- REFRESH: a same-bank refresh falls due on a subchannel. It is issued in every state, or held back while DDR_PLL is
lost (R327). -/
def execRefresh (sub : Fin 8) (s : State) : Host.Outcome State Fault Refusal :=
  let d := s.dram
  if ddrLost s then .next { s with dram := { d with heldRefr := tset 0 d.heldRefr sub (tget 0 d.heldRefr sub + 1) } }
  else .next { s with dram := { d with refreshes := tset 0 d.refreshes sub (tget 0 d.refreshes sub + 1) } }

/-- The refreshes held back are issued (R327). -/
def issueHeld (s : State) : State :=
  let d := s.dram
  { s with dram := { d with
    refreshes := d.heldRefr.foldl (fun r h => tset 0 r h.1 (tget 0 r h.1 + h.2)) d.refreshes, heldRefr := [] } }

/-! ### Self-refresh (R334, R335) -/

/-- SELF_REFRESH_ENTRY: entry after DRM_IDLE.idle_us (R334); suspended while the device is not Running (R403). -/
def execSelfRefreshEntry (s : State) : Host.Outcome State Fault Refusal :=
  let idle := regField s Reg.drmIdle 0 20
  if dramServing s ∧ s.anvil.state = .running ∧ idle ≠ 0 ∧ noClaims s ∧ s.dram.idleSince + us idle ≤ s.now then
    let s := regBump { s with dram := { s.dram with state := .selfRefresh } } Reg.drmSr 0 16 1
    .next (setUnit s 20 { getUnit s 20 with state := .idle, since := s.now })
  else .next s

/-- SELF_REFRESH_EXIT: a request that arrives in self-refresh waits, and the exit begins; UNIT_WAKE ends it (R335, R351). -/
def execSelfRefreshExit (s : State) : Host.Outcome State Fault Refusal :=
  if s.dram.state = .selfRefresh then .next (wakeUnit (regBump s Reg.drmSr 16 16 1) 20) else .next s

/-- DRAM_READ: a port reads a burst (R321, R322). A request that finds the DRAM in self-refresh waits and begins the exit; one
that comes during a change of operating point or while DDR_PLL relocks waits; one that comes while the controller is frozen
or trains is not served (R329, R333, R335). -/
def execDramRead (port : DramPort) (burst : Nat) (fault : BurstFault) (s : State) : Host.Outcome State Fault Refusal :=
  if ¬ burstOk s burst ∨ s.dram.state = .frozen ∨ s.dram.state = .training then .next s
  else if dramServing s then .next (serveRead s port burst fault)
  else .next (askDram s (.read port burst fault))

/-! ### The bandwidth plan (R324) -/

/-- A bank's share of the plan: `share` scaled so that the plan fits 85 % of the peak at `binA`, 32 bytes × the data rate;
12,500 such parts make one unit. -/
def planShare (binA vec other share : Nat) : Nat :=
  let limit := 32 * (4800 + 400 * binA) * 85
  if (vec + other) * 12500 ≤ limit then share else share * (limit - other * 12500) / (12500 * vec)

/-- Boot step 9 writes the plan. -/
def writePlan (s : State) : State :=
  let share (b : Nat) : Nat := desc s (0x30 + 2 * b) 2
  let aur := desc s 0x40 2
  let spill := desc s 0x42 2
  let vec := ((List.range 8).map share).sum
  let s' := (List.range 8).foldl (fun t b =>
    regSet t (Reg.drmPlan b) (BitVec.ofNat 32 (planShare s.dram.binA vec (aur + spill + hostShare) (share b)))) s
  regSet s' Reg.drmPlanAux (BitVec.ofNat 32 (aur + spill * 65536))

end Sys2Proof.Machine
end

