-- ==== Sys2Proof/Machine/Clocks.lean ====
section
/-! DEFINITION. Clocks and PLLs (chapter 15): lock, loss of lock, failed retunes and the loss of REFCLK. The return of
REFCLK stands in Sys2Proof/Machine/Daybreak.lean, because a start may wait for it. -/

namespace Sys2Proof.Machine

/-! ### Starting and stopping -/

/-- A reference cycle of a PLL in ns (R341): DDR_PLL always uses the doubled reference. -/
def refCycle (n : Nat) (x : Pll) : Nat := if n = 4 ∨ x.pdRef = 0 then 5 else if x.pdRef = 1 then 10 else 20

/-- The VCO of a PLL in kHz (R340): DDR_PLL runs at half the data rate of its operating point (R315, R336). -/
def vcoKHz (s : State) (n : Nat) : Nat :=
  if n = 0 then 4000000
  else if n = 4 then (if s.dram.pointB then 3200 + 400 * s.dram.binB else 4800 + 400 * s.dram.binA) * 500
  else if n ≤ 3 then 8000000
  else 14062500

/-- The feedback divisor N of a PLL in sixteenths (R340): the VCO over the phase-detector reference. -/
def divisor16 (s : State) (n : Nat) : Nat := vcoKHz s n * 16 * refCycle n (getPll s n) / 1000000

/-- F at the last closing before a PLL was found locked, where no closing was commanded: R342 fixes it to within 2 of 1,024
and no nearer, so it is a free value in that range. -/
def lockedCount (s : State) (n : Nat) : State :=
  let v := drawFree s
  setPll v.2 n { getPll v.2 n with count := 1022 + v.1 % 5 }

/-! ### Loss of lock (R347) -/

/-- Source of the fault or event of a PLL's loss. -/
def pllSource (n : Nat) : Nat :=
  if n = 0 then 0x0D02 else if n = 1 then 0x0D03 else if n = 2 then 0x0D04 else if n = 3 then 0x0D05
  else if n = 4 then 0x0D06 else 0x0D08

/-- The fault source of a PLL that fails in a level 1 recovery (R389, R407). -/
def failSource (n : Nat) : Nat := if n = 0 then 0x0D09 else if n = 4 then 0x0D07 else pllSource n

/-- CORE_PLL is lost: an event, every job that has not ended ends as a job error in ascending slot order, admission is
suspended, and the PLL retunes. A job whose engines have started ends as by a machine check; another releases its claims and
plays no vector. -/
def loseCore (s : State) : State :=
  let s := raiseEvent s 0x0D02 (le 1 0 ++ le 3 0)
  let s := (List.range 16).foldl (fun s d =>
    let x := getDom s d
    if x.ended = none ∧ (x.phase = .admitted ∨ x.phase = .running) then
      (if x.engines then unitCheck s d 0x0D02 else discardJob s d 0x0D02 0)
    else s) s
  retune { s with suspended := true } 0

/-- The lanes of a JET_PLL lose their clock (R257, R269). -/
def killLanes (s : State) (n : Nat) : State :=
  (List.range 4).foldl (fun s j => killLane (setLane s (4 * (n - 5) + j) { getLane s (4 * (n - 5) + j) with cdr := false })
    (4 * (n - 5) + j)) s

/-- PLL n loses lock, or has failed a retune: its domain goes to bypass (R347). -/
def losePll (s : State) (n : Nat) : State :=
  let s := regBump s (Reg.clkPllStat n) 16 8 1
  let x := getPll s n
  if n = 0 then loseCore s
  else if n = 4 then
    let s := retune s n
    { s with dram := { s.dram with lostAt := some (s.dram.lostAt.getD s.now), checks := [] } }
  else if 5 ≤ n then latchFault (killLanes (retune s n) n) 0x0D08 n
  else latchFault (setPll s n { x with state := .bypass, good := 0, far := false, lost := true }) (pllSource n) n

/-- A PLL loses lock (R343). One that locked in the present tick has not completed step 4 of R346: its output stays on bypass,
and the wait for lock starts again. -/
def pllLoss (s : State) (n : Nat) : State :=
  let x := getPll s n
  if x.lockedAt = some s.now then
    let s := setPll s n { x with state := .bypass, good := 0, far := false, base := s.now, closings := 0 }
    if n = 0 then { s with suspended := true }
    else if n = 4 then { s with dram := { s.dram with checks := [] } }
    else s
  else losePll s n

/-- The banks of a HALO_PLL retire (R348): event 0x0D0A. -/
def retireHalo (s : State) (n : Nat) : State :=
  let first := if n = 1 then 0 else 4
  let s := (List.range 4).foldl (fun s i => retireBank s (first + i)) s
  raiseEvent s 0x0D0A (le 1 n ++ le 1 (15 * 2 ^ first) ++ le 2 0)

/-! ### Lock -/

/-- A change of operating point begins with the retune of DDR_PLL (R333). -/
def beginChange (s : State) : State := retune { s with dram := { s.dram with state := .changing, checks := [] } } 4

/-- A change of operating point is asked for: it starts, or waits behind one in progress or behind another retune of DDR_PLL
(R333, R346). -/
def askPoint (s : State) (b : Bool) (f : Option Frame) : State :=
  let c := s.dram.change
  let s := { s with dram := { s.dram with change := c ++ [(b, f)] } }
  if c = [] ∧ (getPll s 4).state ≠ .bypass then beginChange s else s

/-! ### Requests that waited (R325, R333, R335) -/

/-- The port of a request, in the order in which class 3 of R325 takes the ports in turn. -/
def reqPort : DramReq → Nat
  | .read (.bank b) .. => b
  | .read .aurora .. => 8
  | .read .spill .. => 9
  | .read .host .. => 10
  | .refill b _ => b
  | .aurora .. => 8
  | .host _ => 10

/-- Whether a request goes in class 2: its port's bucket holds its size. -/
def classTwo (s : State) : DramReq → Bool
  | .read port .. => decide (512 ≤ bucketLevel s (dramKey port) (dramShare s port))
  | .refill b _ => refillClaimed s b
  | .aurora n _ => auroraClaimed s n && decide (8 * auroraWants s n ≤ bucketLevel s aurPortKey (regField s Reg.drmPlanAux 0 16))
  | .host _ => true

/-- The next request the arbiter serves: the oldest of class 2, and else the oldest of the next port in turn. -/
def nextRequest (s : State) : Option DramReq :=
  let l := s.dram.waiting
  match l.find? (classTwo s) with
  | some r => some r
  | none => ((List.range 11).map (fun i => (s.dram.turn + i) % 11)).findSome? (fun p => l.find? (fun r => reqPort r = p))

/-- Serve a request that waited. The frame of a queue goes on as Nimbus takes it up again. -/
def serveOne (s : State) : DramReq → State
  | .read port burst fault => serveRead s port burst fault
  | .refill b borrow => refillNow (touchDram s) b borrow
  | .aurora n borrow => auroraNow (touchDram s) n borrow
  | .host _ => s

/-- The requests that wait are served in the order of R325 once the DRAM is in service. -/
def serveWaiting : Nat → State → State
  | 0, s => s
  | n + 1, s =>
    match nextRequest s with
    | none => s
    | some r =>
      if dramServing s then
        let two := classTwo s r
        serveWaiting n (serveOne { s with dram := { s.dram with
          waiting := s.dram.waiting.erase r, turn := if two then s.dram.turn else (reqPort r + 1) % 11 } } r)
      else s

/-- The DRAM is in service again, and serves what waited. -/
def enterService (s : State) : State :=
  let s := touchDram { s with dram := { s.dram with state := .service } }
  serveWaiting s.dram.waiting.length (setUnit s 20 { getUnit s 20 with state := .active, since := s.now, wakes := none })

/-- The change of operating point at the head has been made (R333): its request is answered. -/
def endChange (s : State) : State :=
  match s.dram.change with
  | (b, f) :: r =>
    let s := { s with dram := { s.dram with pointB := b, change := r } }
    match f with
    | some f => reply s f 0 0 []
    | none => s
  | [] => s

/-- The mode registers have been compared after a relock or a change (R333, R347): a relock after a loss raises its event, a
change is complete and answered, one that waited begins, and else the DRAM returns to service. -/
def returnDram (s : State) : State :=
  let s := if s.dram.lostAt.isSome then
      raiseEvent { s with dram := { s.dram with lostAt := none } } 0x0D06 (le 1 4 ++ le 3 0)
    else s
  let s := if s.dram.state = .changing then endChange { s with dram := { s.dram with state := .service } } else s
  if s.dram.change = [] then enterService s else beginChange s

/-- The readback of a subchannel's mode registers; `bad` is the first that differs. A check that fails twice in succession
freezes (R329). After a relock or a change the DRAM returns to service with the last subchannel's check. -/
def modeCheck (s : State) (sub : Nat) (bad : Option Byte) : State :=
  if dramServing s ∨ s.dram.checks.contains sub then
    match bad with
    | none =>
      let owed : Bool := s.dram.checks.contains sub
      let s := { s with dram := { s.dram with modeFails := tset 0 s.dram.modeFails sub 0, checks := s.dram.checks.filter (· ≠ sub) } }
      if owed ∧ s.dram.checks = [] then returnDram s else s
    | some r =>
      let n := tget 0 s.dram.modeFails sub + 1
      let s := { s with dram := { s.dram with modeFails := tset 0 s.dram.modeFails sub n } }
      if n < 2 then s else freeze s 3 sub 0xFF r.toNat 0 (List.replicate 16 0) (List.replicate 80 0)
  else s

/-- DDR_PLL locks (R333, R346, R347). A change that waited behind this retune begins in its place. Otherwise the refreshes held
back are issued, and the mode registers are compared before the DRAM returns to service. A relock later than 20 µs after the loss
comes too late, and the exit from self-refresh ends with its wake. -/
def ddrLock (s : State) : State :=
  let d := s.dram
  if d.lostAt.any (fun t => t + us 20 < s.now) ∨ d.state = .frozen ∨ d.state = .training then s
  else if d.state = .changing then
    match d.change with
    | _ :: _ :: _ => beginChange (endChange s)
    | _ => { issueHeld s with dram := { (issueHeld s).dram with checks := List.range 8 } }
  else if d.change ≠ [] then beginChange s
  else if d.state = .selfRefresh then s
  else { issueHeld s with dram := { (issueHeld s).dram with checks := List.range 8 } }

/-- What a PLL's lock brings (R346, R347): admission resumes, or the DRAM goes on. -/
def onLock (s : State) (n : Nat) : State :=
  let s := setPll s n { getPll s n with
    state := .locked, fails := 0, good := 0, far := false, lost := false, cut := false, lockedAt := some s.now }
  if n = 0 then { s with suspended := false }
  else if n = 4 then ddrLock s
  else s

/-- Whether the next counted closing of a PLL's retune has come: the first 1,024 reference cycles after the VCO has settled, and
each further one 128 later (R342). -/
def closingDue (s : State) (n : Nat) : Bool :=
  let x := getPll s n
  decide (x.base + (1024 + 128 * x.closings) * refCycle n x < s.now + Config.nclkNs)

/-- PLL_WINDOW_CLOSE: a lock window closes with the count F (R342, R343). Closings of a retune count from 1,024 reference
cycles after the VCO has settled, and for 100 µs from its start (R344). -/
def execPllWindowClose (n : Fin 10) (count : Nat) (s : State) : Host.Outcome State Fault Refusal :=
  let x := getPll s n
  let off := ((count : Int) - 1024).natAbs
  if x.state = .off ∨ x.state = .failed ∨ ¬ s.refPresent then .next s
  else
    let s := setPll s n { x with count := count % 65536 }
    let x := getPll s n
    if x.state = .locked then
      if 16 < off ∨ (4 < off ∧ x.far) then .next (pllLoss s n)
      else .next (setPll s n { x with far := 4 < off })
    else if x.lost ∨ ¬ closingDue s n ∨ x.since + us 100 < s.now then .next s
    else
      let s := setPll s n { x with good := if off ≤ 2 then x.good + 1 else 0, closings := x.closings + 1 }
      .next (if off ≤ 2 ∧ 4 ≤ x.good + 1 then onLock s n else s)

/-- PLL_FEEDBACK_TIMEOUT: no feedback edge for two reference cycles: a loss of lock (R343); during a retune the wait for
lock starts again, and windows count only from then (R346). -/
def execPllFeedbackTimeout (n : Fin 10) (s : State) : Host.Outcome State Fault Refusal :=
  let x := getPll s n
  if x.state = .locked then .next (pllLoss s n)
  else if x.state = .bypass then .next (setPll s n { x with good := 0, closings := 0, base := max x.base s.now })
  else .next s

/-- A PLL has failed R344: the failure is counted (R349). -/
def failPll (s : State) (n : Nat) : State :=
  let x := getPll s n
  regBump (setPll s n { x with fails := x.fails + 1, state := .failed, good := 0, lost := true, cut := false }) (Reg.clkPllStat n) 16 8 1

/-- A HALO_PLL fails in a recovery or at step 6: its banks retire (R348), and HALO_PLL_B runs in place of HALO_PLL_A (R352). -/
def failHalo (s : State) (n : Nat) : State := syncPlls (retireHalo s n)

/-- PLL_LOCK_TIMEOUT: a PLL not locked 100 µs after its retune began has failed (R344), which is handled as a loss. One whose
reference was lost meanwhile is not reported separately (R346, R348). A CORE_PLL that fails three times in succession is a fault;
a HALO_PLL that fails during recovery retires its banks (R348), and any other ends the recovery (R407); a JET_PLL restarted by a
fault stays failed (R397). -/
def execPllLockTimeout (n : Fin 10) (s : State) : Host.Outcome State Fault Refusal :=
  let x := getPll s n
  if x.state = .bypass ∧ (¬ x.lost ∨ x.cut) ∧ x.since + us 100 ≤ s.now then
    let t := failPll s n
    let recovering : Bool := s.anvil.state = .recovering ∧ s.boot.state = 1
    if n.val = 0 ∧ 3 ≤ x.fails + 1 then .next (latchFault t 0x0D09 0)
    else if recovering ∧ (n.val = 1 ∨ n.val = 2) then .next (failHalo t n)
    else if recovering then .next (latchFault t (failSource n) n)
    else if x.cut ∨ (5 ≤ n.val ∧ s.anvil.state ≠ .running) then .next t
    else if n.val = 0 ∨ n.val = 4 then .next (losePll (setPll s n { x with fails := x.fails + 1 }) n)
    else
      let u := losePll s n
      .next (setPll u n { getPll u n with state := .failed, fails := x.fails + 1, good := 0, lost := true })
  else .next s

/-- DDR_PLL_RELOCK_TIMEOUT: a DDR_PLL not relocked within 20 µs of its loss (R347). -/
def execDdrPllRelockTimeout (s : State) : Host.Outcome State Fault Refusal :=
  match s.dram.lostAt with
  | some t => if t + us 20 < s.now ∧ s.dram.checks = [] then .next (latchFault s 0x0D07 4) else .next s
  | none => .next s

/-- A PLL loses its reference: a locked one goes to bypass, and the retune of another is cut, so that it fails at its 100 µs
(R346, R348). -/
def cutPll (x : Pll) : Pll :=
  if x.state = .locked then { x with state := .bypass, good := 0, far := false, lost := true }
  else if x.state = .bypass ∧ ¬ x.lost then { x with good := 0, lost := true, cut := true }
  else x

/-- REFCLK_ABSENT: no REFCLK edge for 200 ns (R339, R348): NCLK and every PLL go to the oscillator, the DRAM leaves service, and
the fault is latched; the losses of the PLLs are not reported separately. Sync is regained by later exchanges (R304). -/
def execRefclkAbsent (s : State) : Host.Outcome State Fault Refusal :=
  if s.refPresent then
    let s := regBump { s with
      refPresent := false, refAbsent := true, nclkOsc := true, zenith := { s.zenith with lastAccept := none }
      plls := tmap Pll.init (fun _ => cutPll) s.plls, dram := { s.dram with checks := [] } } Reg.clkRefStat 8 8 1
    .next (latchFault s 0x0D01 0)
  else .next s

end Sys2Proof.Machine
end

