-- ==== Sys2Proof/Machine/Anvil.lean ====
section
/-! DEFINITION. Anvil (chapter 18): the latch record, the notices, the purge after a fault, RECOVER, TWINKLE and the Nimbus
faults. The commands that restart the device stand in Sys2Proof/Machine/Daybreak.lean. -/

namespace Sys2Proof.Machine

/-! ### Masks and records -/

/-- The code of the device state (R396). -/
def anvCode : AnvState → Nat
  | .running => 0 | .faulted => 1 | .recovering => 2

/-- The latch record (R396). -/
def latchRecord (a : Anvil) : Bytes :=
  le 2 a.source ++ le 1 (anvCode a.state) ++
    le 1 (b2n a.valid + 2 * b2n a.overflow + 4 * b2n a.nimbus + 8 * b2n a.tagsIncomplete) ++ le 1 a.minLevel ++
    le 1 a.mergeCount ++ le 2 a.overflowCount ++ time12 a.time ++ le 4 a.argument ++ le 4 a.faultSeq ++
    le 2 a.discarded ++ le 2 0 ++ codeList a.merged 8 ++ le 16 0

/-- The FAULT_NOTICE payload (R401). -/
def faultPayload (a : Anvil) (tags : List Word) : Bytes :=
  let l := tags.take 32
  latchRecord a ++ le 2 l.length ++ le 2 0 ++ (l.map (fun t => le 4 t.toNat)).flatten

/-! ### Slots -/

/-- The power units a job needs: its banks, its Aurora channels, the DRAM and the core (R25, R350). -/
def jobUnits (p : Bytes) : List Nat :=
  jobBanks p ++ ((List.range 8).filter (bit (jobAurs p))).map (8 + ·) ++ [20, 21]

/-- Before a slot is freed Nimbus tests the memories of a Squall or an Aurora channel that met a parity error, and retires the
bank or the channel where the test fails, and a bank that waited for its last job (R228, R255, R410). -/
def testUnits (s : State) (d : Nat) : State :=
  (List.range 8).foldl (fun s n =>
    let s := if (getSquall s n).dom = some d ∧ (getSquall s n).test = some false then
        raiseEvent (failBank s n) 0x0702 (le 4 n) else s
    if (getAurora s n).dom = some d ∧ (getAurora s n).test = some false then
      raiseEvent (retireAurora s n) 0x0804 (le 4 n) else s) (retireWaiting s)

/-- Free a slot (R18, R25): claims, pins and flows are released, and the units fall out of use now (R354). -/
def freeSlot (s : State) (d : Nat) : State :=
  let s := testUnits s d
  let p := (getDom s d).payload
  let s := setDom s d .init
  let s := { s with
    flows := s.flows.filter (fun e => e.1 / 256 ≠ d)
    sites := s.sites.filter (fun e => e.1 / 256 ≠ d)
    pins := tmap Pin.init (fun _ x => if x.dom = some d then { parkPin x with dom := none } else x) s.pins
    rings := s.rings.filter (fun r => (getPin s r.1).dom ≠ some d)
    cums := tmap Cum.init (fun _ c => if c.dom = some d then { c with dom := none, running := false, barrier := false } else c) s.cums
    squalls := tmap Squall.init (fun _ q => if q.dom = some d then
      { q with dom := none, armed := false, halted := true, arrivals := [], capts := [], incoming := [], test := none } else q) s.squalls
    auroras := tmap Aurora.init (fun _ a => if a.dom = some d then
      { a with dom := none, armed := false, playing := false, due := none, requests := [], arrived := [], taken := none, test := none } else a) s.auroras
    virgas := tmap Virga.init (fun _ v => if v.active ∧ v.dom = d then Virga.init else v) s.virgas }
  (jobUnits p).foldl (fun s u => setUnit s u { getUnit s u with since := s.now }) s

/-- A job's Ledger range becomes unpredictable but for scratch (R399). -/
def voidRange (s : State) (p : Bytes) : State :=
  (List.range (jobRange p)).foldl (fun s i =>
    let c := freeCtx s
    setCtx c.2 (jobBase p + i) { c.1 with scratch := (getCtx s (jobBase p + i)).scratch }) s

/-! ### The purge (R399, R400) -/

/-- The tags of the jobs held: by ascending slot, then the admission window (R401). -/
def heldTags (s : State) : List Word :=
  ((List.range 16).filter (fun d => (getDom s d).phase ≠ .free)).map (fun d => (getDom s d).tag) ++ s.window.map Waiting.tag

/-- Remove the packets of discarded jobs from queues 16 to 42 (R400). -/
def purgeQueues (s : State) (tags : List Word) : State :=
  (List.range 27).foldl (fun s i =>
    let q := 16 + i
    let x := getQueue s q
    loseDramPart (setQueue s q { x with
      packets := x.packets.filter (fun p => !tags.contains p.tag), writing := x.writing.filter (fun w => !tags.contains w.2) }) q) s

/-- Discard every job the device holds (R399). -/
def discardAll (s : State) : State :=
  (List.range 16).foldl (fun s d =>
    let x := getDom s d
    if x.phase = .free then s else freeSlot (voidRange s x.payload) d) { s with window := [] }

/-- The frames that arose while the window stood open follow FAULT_NOTICE (R394, R402). -/
def releaseDeferred (s : State) : State :=
  s.anvil.deferred.foldl (fun s p => enqueue s p.order p.ty p.flags p.tag p.payload)
    { s with anvil := { s.anvil with deferred := [] } }

/-- After the purge Nimbus commits FAULT_NOTICE, and the merge window closes (R393, R397). No frame of a discarded job follows it
(R400). An owner then informs its partner (R444), which also learns of the jobs discarded (R443). -/
def faultNotice (s : State) : State :=
  let tags := heldTags s
  let s := purgeQueues (discardAll s) tags
  let a := { s.anvil with
    discarded := tags.length, window := false, deferred := s.anvil.deferred.filter (fun p => !tags.contains p.tag) }
  let s := releaseDeferred (enqueue { s with anvil := a } 16 0x47 0 0 (faultPayload a tags))
  let s := tags.foldl (fun s t => tellAbsent s t 7) s
  if a.wasOwner ∧ pairEnable s then commitFrame s 50 0x83 0 0 (le 2 a.source ++ le 2 0 ++ time12 a.time) else s

/-! ### Recovery (R405 to R407) -/

/-- Begin a recovery at a level: level 1 restarts the PLLs that are not locked (R348); levels 2 and 3 first let the
outbound queues drain for at most 10 ms (R406). -/
def beginRecovery (s : State) (level : Nat) : State :=
  let s := { s with anvil := { s.anvil with
    state := .recovering, level := level, pendingRec := none, drainUntil := s.now + ms 10 } }
  if level = 1 then
    (List.range 10).foldl (fun s n =>
      if pllNeeded s n ∧ (getPll s n).state ≠ .locked then retune s n else s) s
  else s

/-- Whether the diode reads 100.0 °C or above (R363). -/
def diodeHot (s : State) : Bool := s.power.diodeOk && decide (800 ≤ s.power.diode)

/-- Handle a RECOVER of a level, or a malformed one as level 0 (R405). One that comes while another is pending takes its
place, and is examined in its stead. -/
def handleRecover (s : State) (level : Nat) : State :=
  let pend : State := { s with anvil := { s.anvil with pendingRec := some level } }
  if s.anvil.state = .faulted ∧ s.anvil.pendingRec.isSome then pend
  else if level = 0 then recoveryNotice s 2 0 0
  else if s.anvil.state ≠ .faulted then recoveryNotice s 3 0 0
  else if level < s.anvil.minLevel then recoveryNotice s 1 0 0
  else if diodeHot s then pend
  else beginRecovery s level

/-- Handle RECOVER: level 1 to 3 and seven reserved bytes, answered by a RECOVERY_NOTICE (R405). -/
def doRecover (f : Frame) (s : State) : State :=
  let s := freeLines s f
  let b := f.payload
  let level := fld b 0 1
  handleRecover s (if b.length = 8 ∧ 1 ≤ level ∧ level ≤ 3 ∧ zeros b 1 7 then level else 0)

/-- RECOVER: the frame arrives, and Nimbus handles it. -/
def execRecover (f : Frame) (s : State) : Host.Outcome State Fault Refusal :=
  .next (onFrame s f 0x09 (doRecover f))

/-- A pending RECOVER is examined at a diode reading (R405). -/
def examinePending (s : State) : State :=
  match s.anvil.pendingRec with
  | some level =>
    if diodeHot s ∨ ¬ s.power.diodeOk ∨ s.anvil.stopped then s
    else handleRecover { s with anvil := { s.anvil with pendingRec := none } } level
  | none => s

/-! ### Nimbus faults (R391, R404) -/

/-- A Nimbus fault from step 12 on: Anvil lets port H drain for at most 10 ms without a purge and keeps the tags of the
slots. A source that merges into a standing fault is handled so as well; one that comes while Nimbus has failed already only
merges. -/
def nimbusFault (s : State) (src : Nat) : State :=
  let s := latchFault s src 0
  let tags := ((List.range 16).filter (fun d => (getDom s d).phase ≠ .free)).map (fun d => (getDom s d).tag)
  if s.anvil.stopped then s
  else { s with anvil := { s.anvil with nimbus := true, stopped := true, tags := tags, drainUntil := s.now + ms 10 } }

/-- NIMBUS_WATCHDOG_EXPIRY: 100 ms unserved, while the watchdog is armed, which expires once (R391, R421). -/
def execNimbusWatchdogExpiry (s : State) : Host.Outcome State Fault Refusal :=
  if s.anvil.watchdog then .next (nimbusFault { s with anvil := { s.anvil with watchdog := false } } 0x1002) else .next s

/-- NIMBUS_MEMORY_ERROR: an uncorrectable error in Nimbus memory (R391). During a start it is a fault of level 3. -/
def execNimbusMemoryError (s : State) : Host.Outcome State Fault Refusal :=
  if s.boot.state = 1 then .next (nimbusFault s 0x1001)
  else
    let s := latchFault s 0x1001 0
    .next { s with anvil := { s.anvil with minLevel := max s.anvil.minLevel 3 } }

/-! ### TWINKLE (R398) -/

/-- TWINKLE starts: its first transition comes 500 µs from now. -/
def startTwinkle (s : State) : State := { s with anvil := { s.anvil with twinkleOn := true, twinkleAt := s.now + us 500 } }

/-- TWINKLE_TRANSITION: a transition every 500 µs. -/
def execTwinkleTransition (s : State) : Host.Outcome State Fault Refusal :=
  let a := s.anvil
  if a.twinkleOn ∧ a.twinkleAt ≤ s.now then
    .next { s with anvil := { a with twinkle := !a.twinkle, twinkleAt := a.twinkleAt + us 500 } }
  else .next s

end Sys2Proof.Machine
end

