-- ==== Sys2Proof/Machine/Cumulus.lean ====
section
/-! DEFINITION. Cumulus (chapter 05): address and data generation, instructions, and the rewrite after a parity error. -/

namespace Sys2Proof.Machine

/-! ### Generators (R125, R126) -/

/-- A generator's parameters: width, base, limit, step (R122). -/
structure Gen where
  w : Nat
  b : Nat
  m : Nat
  s : Nat
  deriving DecidableEq, Repr

/-- Generator `i` of an image. -/
def genOf (cum : Bytes) (i : Nat) : Gen :=
  let o := 0x10 + 16 * i
  { w := fld cum o 1, b := fld cum (o + 4) 4, m := fld cum (o + 8) 4, s := fld cum (o + 12) 4 }

/-- INCW and DECW: the new value and the wrap flag. -/
def incw (g : Gen) (a : Nat) : Nat × Bool := if a = g.m then (g.b, true) else ((a + 1) % 2 ^ g.w, false)
def decw (g : Gen) (a : Nat) : Nat × Bool := if a = g.b then (g.m, true) else ((a + 2 ^ g.w - 1) % 2 ^ g.w, false)

/-- One operation on A, with the operand of LDI and the carry-in: the new value, modulo 2^w, and the wrap flag
(R125). -/
def genOp (g : Gen) (code imm : Nat) (carry : Bool) (a : Nat) : Nat × Bool :=
  let n := 2 ^ g.w
  let keep (v : Nat) : Nat × Bool := (v % n, false)
  if code = 1 then keep (a + 1)
  else if code = 2 then keep (a + n - 1)
  else if code = 3 then keep (a + g.s)
  else if code = 4 then keep (a + n - g.s)
  else if code = 5 then keep (2 * a + a / 2 ^ (g.w - 1))
  else if code = 6 then keep (a / 2 + a % 2 * 2 ^ (g.w - 1))
  else if code = 7 then keep (n - 1 - a)
  else if code = 8 then (g.b, false)
  else if code = 9 then (g.m, false)
  else if code = 10 then keep imm
  else if code = 11 then incw g a
  else if code = 12 then decw g a
  else if code = 13 then (if carry then incw g a else (a, false))
  else if code = 14 then (if carry then decw g a else (a, false))
  else (a, false)

/-- The view of a generator: A, or its reflection in the range (R126). -/
def genView (g : Gen) (rev : Bool) (a : Nat) : Nat := if rev then (g.b + g.m + 2 ^ g.w - a) % 2 ^ g.w else a

/-! ### Data (R127, R128) -/

/-- The physical address Q of a logical address L (R128). -/
def scrambled (cum : Bytes) (l : Nat) : Nat :=
  ((List.range 96).map (fun k =>
    let e := fld cum (0x1C0 + 2 * k) 2
    let v := (bit l (bits e 6 0) ^^ (bit e 14 && bit l (bits e 13 7))) ^^ bit e 15
    if v then 2 ^ k else 0)).sum

/-- Pattern P of an address (R127). -/
def pattern (dmode a : Nat) : Nat :=
  let copies (b : Bool) : Nat := if b then 2 ^ 64 - 1 else 0
  if dmode = 1 then copies (bit a 0 ^^ bit a 32)
  else if dmode = 2 then copies (bit a 0)
  else if dmode = 3 then copies (bit a 32)
  else if dmode = 4 then a % 2 ^ 24 + a / 2 ^ 32 % 2 ^ 24 * 2 ^ 24 + a / 2 ^ 64 % 65536 * 2 ^ 48
  else 0

/-- The 64-bit data of an op at the logical address `l` (R127). -/
def opData (cum : Bytes) (i l : Nat) : Nat :=
  let a := if bit i 26 then scrambled cum l else l
  fld cum (0x140 + 8 * bits i 21 18) 8 ^^^ pattern (bits i 24 22) a ^^^ (if bit i 25 then 2 ^ 64 - 1 else 0)

/-! ### Instructions (R132, R133) -/

/-- The next instruction of `i` at address `a`: its address and the executions of an RPT so far, or none where the
program ends. -/
def nextInstr (cum : Bytes) (i a rpt : Nat) (wraps : List Bool) : Option (Nat × Nat) :=
  let m := bits i 30 28
  let target := bits i 44 33
  let wrapped := wraps.getD (bits i 32 31) false
  let go (n : Nat) : Option (Nat × Nat) := if n < cumInstrs cum then some (n, 0) else none
  if m = 0 then go (a + 1)
  else if m = 1 then go target
  else if m = 2 then go (if wrapped then a + 1 else target)
  else if m = 3 then (if wrapped then none else go target)
  else if m = 4 then (if rpt + 1 = bits i 127 96 + 1 then go (a + 1) else some (a, rpt + 1))
  else none

/-- Carry out the instruction at `c.next`: the op it issues, the Cumulus after it, and whether the program ends. -/
def stepCum (cum : Bytes) (c : Cum) : CumOp × Cum × Bool :=
  let i := cumInstr cum c.next
  let g (n : Nat) : Gen := genOf cum n
  let a (n : Nat) : Nat := c.gen.getD n 0
  let view (n : Nat) : Nat := genView (g n) (bit i 27) (a n)
  let op : CumOp := { seq := c.opSeq, v := c.start + c.made, len := fld cum (cumTmpl cum (bits i 5 0)) 1, tmpl := bits i 5 0,
                      x := view 0, y := view 1, z := view 2, data := 0, fails := [] }
  let op := { op with data := opData cum i (opAddr op) }
  let imm := bits i 95 64
  let x := genOp (g 0) (bits i 9 6) imm false (a 0)
  let y := genOp (g 1) (bits i 13 10) imm x.2 (a 1)
  let z := genOp (g 2) (bits i 17 14) imm y.2 (a 2)
  let nx := nextInstr cum i c.next c.rpt [x.2, y.2, z.2]
  let c' := { c with
    gen := [x.1, y.1, z.1], pc := c.next, next := (nx.map Prod.fst).getD c.next, rpt := (nx.map Prod.snd).getD 0
    made := c.made + op.len, opSeq := (c.opSeq + 1) % 2 ^ 32, ops := (c.ops ++ [op]).drop (c.ops.length + 1 - 8192) }
  (op, c', nx.isNone)

/-- The vector of the run, counted from its first, at which an op leaves the count of R134 wrong: the last of an ending op that
falls short of vcount or passes it, or vector number vcount where it does not close the ending op. -/
def wrongAt (vcount made : Nat) (ends : Bool) : Option Nat :=
  if made < vcount then (if ends then some (made - 1) else none)
  else if made = vcount ∧ ends then none
  else some (vcount - 1)

/-- The registers of a Cumulus show an instruction once its op has fed a prepared block: the block at `a` (R135). -/
def showBlock (s : State) (b a : Nat) : State :=
  let c := getCum s b
  if blockMade c a then
    regBump (setCum s b { c with shown := c.gen, shownPc := c.pc, fed := 0 }) (Reg.cumOps b) 0 32 c.fed
  else s

/-- CUMULUS_INSTRUCTION: one instruction of the ECLK whose VECTOR_POP came last, where the block the engines push next is not
complete (R126, R133 to R135). A wrong count is an error in the ECLK in which its block is prepared (R134). A parity
error found in that ECLK ends the job with source 0x0301 (R141). -/
def execCumulusInstruction (b : Fin 8) (parity : Bool) (s : State) : Host.Outcome State Fault Refusal :=
  let c := getCum s b
  match c.dom with
  | none => .next s
  | some d =>
    let x := getDom s d
    if parity then
      .next (unitCheck (regPut (setCum s b { c with parity := true }) (Reg.cumStat b) 7 1 1) d 0x0301)
    else match cumBlock s d b with
      | none => .next s
      | some a =>
        if ¬ runningAt x (clock x - 1) ∨ c.wrong ≠ none ∨ c.ranAt = clock x + 1 ∨ blockMade c a then .next s
        else
          let r := stepCum (cumImage s x.payload) c
          let s := setCum s b { r.2.1 with
            ranAt := clock x + 1, fed := c.fed + 1, wrong := wrongAt c.vcount (c.made + r.1.len) r.2.2 }
          .next (cumErrors (showBlock s b a) d (clock x - 1))

/-- CUMULUS_REWRITE_DONE: a Cumulus with a parity error has been rewritten from the image and read back, after
the job that met it has ended (R141, R410). -/
def execCumulusRewriteDone (b : Fin 8) (readbackOk : Bool) (s : State) : Host.Outcome State Fault Refusal :=
  let c := getCum s b
  if c.parity ∧ ¬ c.dom.any (fun d => (getDom s d).phase = .running) then
    let s := setCum s b { c with parity := false }
    .next (if readbackOk then s else raiseEvent (failBank s b) 0x0302 (le 4 b))
  else .next s

end Sys2Proof.Machine
end

