-- ==== Sys2Proof/Machine/Compare.lean ====
section
/-! DEFINITION. Compare return and the Ledger (chapter 07): readings are judged, fails are counted and recorded, and
commits reach the contexts. -/

namespace Sys2Proof.Machine

/-! ### Judging (R163 to R166) -/

/-- Whether a reading fails an expected state (R164). -/
def readingFails (expect : Nat) : Reading → Bool
  | .h => expect = 1 ∨ expect = 3
  | .l => expect = 2 ∨ expect = 3
  | .m => expect = 1 ∨ expect = 2 ∨ expect = 4
  | .i => expect ≠ 0

/-- What one pin contributes to a vector: whether its judgement fails, the I readings judged, and the reading that
reaches Squall (R211). -/
structure PinResult where
  pin     : PlayedPin
  fails   : Bool
  invalid : Nat
  row     : Reading
  deriving DecidableEq, Repr

/-- The vector at which the pins of site `k` leave the program: they park, or begin their starve waveform (R71, R87, R115,
R154); none while it is not decided. -/
def leaveVec (s : State) (d k : Nat) : Option Nat :=
  let x := getDom s d
  let y := getSite s d k
  let own := match y.event, y.retired with
    | some w, _ => some w
    | none, some w => some w
    | none, none => x.keep
  if discarded x then some (match own with
    | some w => min w (endVec x)
    | none => endVec x)
  else own

/-- The readings of a strobe or window that are judged: strobes placed before `cut`, the instant at which the pin leaves the
program, and a window that closed before it (R157, R165). -/
def judgedReadings (s : State) (tim : Bytes) (v : Nat) (cut : Option Int) (q : PlayedPin) (rs : List Reading) : List Reading :=
  match waveAt tim q.ch q.tset q.sym with
  | none => []
  | some o =>
    let at_ (e : EdgeName) : Int := ((v * timPeriod tim + waveTime tim o e : Nat) : Int) + compareSkew s q.ch
    let kept (e : EdgeName) : Bool := match cut with
      | some t => at_ e < t
      | none => true
    let strobes := (waveEdges tim o).filter (fun e => edgeKind e = 2)
    if waveWindow tim o then (if strobes.all kept then rs else [])
    else ((strobes.zip rs).filter (fun p => kept p.1)).map Prod.snd

/-- The reading of a pin that the Squall of its bank records (R211). A reading that did not arrive reads M. -/
def rowReading (tim : Bytes) (q : PlayedPin) (rs : List Reading) : Reading :=
  match waveAt tim q.ch q.tset q.sym with
  | none => rs.headD .m
  | some o =>
    let second : Bool := waveEn tim o .s0 && waveEn tim o .s1 && !waveWindow tim o && waveTime tim o .s1 < waveTime tim o .s0
    rs.getD (if second then 1 else 0) .m

/-- Judge one pin of a vector (R164 to R166). Pins that starve, stand parked or play with cmp_mode 2 are not judged. -/
def judgePin (s : State) (d : Nat) (tim : Bytes) (v : Nat) (rs : List PinReading) (q : PlayedPin) : PinResult :=
  let mine := ((rs.find? (fun r => r.channel.val = q.ch)).map PinReading.readings).getD []
  let expect := match waveAt tim q.ch q.tset q.sym with
    | some o => waveExpect tim o
    | none => 0
  let cut : Option Int := (leaveVec s d q.site).map (fun w => ((w * timPeriod tim : Nat) : Int))
  let judged := if q.starve ∨ q.parked ∨ q.cmp = 2 ∨ expect = 0 then [] else judgedReadings s tim v cut q mine
  { pin := q, fails := judged.any (readingFails expect) && !q.masked
    invalid := (judged.filter (· = .i)).length, row := rowReading tim q mine }

/-- Count the I readings of a vector in CMP_INVALID (R164, R186). Of several pins of one vector that read I the highest channel
stands there as the latest, whatever the strobe times (DESIGN CHOICE). -/
def countInvalid (s : State) (rs : List PinResult) : State :=
  (rs.filter (fun r => 0 < r.invalid)).foldl (fun s r =>
    regPut (regBump s Reg.cmpInvalid 0 16 r.invalid) Reg.cmpInvalid 16 8 r.pin.ch) s

/-! ### MATCH (R60, R61, R166) -/

/-- A vector of a `MATCH` body: its fails feed PASS_CLEAN, and its last vector of a pass decides the pass. A site condition
is taken as it stands when that vector is judged: the manual names no moment within a pass (DESIGN CHOICE). -/
def judgeMatch (s : State) (d k v : Nat) (failed : Bool) : State :=
  let y := getSite s d k
  let bad := y.mBad || failed
  if y.mBlock = 0 ∨ v < y.mStart then s
  else if (v - y.mStart) % y.mBlock + 1 = y.mBlock then
    let holds := if y.mCond = 0x61 then !bad else condOf s d k y.mCond
    setSite s d k { y with
      mBad := false, mClean := !bad
      mFirst := if holds ∧ y.mFirst = none then some ((v - y.mStart) / y.mBlock + 1) else y.mFirst }
  else setSite s d k { y with mBad := bad }

/-! ### Cumulus records (R138 to R140) -/

/-- The PA64 of the op of a Cumulus that drove pins of site `k` at vector `v`: that of the lowest such bank. -/
def opAddrOf (s : State) (d k v : Nat) : Option Nat :=
  let p := (getDom s d).payload
  (List.range 8).findSome? (fun b =>
    if (getCum s b).dom = some d ∧ (sitePins p k).any (fun ch => handed (cumImage s p) (2 ^ b) ch) then
      (opAt s b v).map pa64
    else none)

/-- Note in the ops of the banks the failing handed pins of site `k` at vector `v`. -/
def noteOpFails (s : State) (d k v item : Nat) (failed : List Nat) : State :=
  let cum := cumImage s (getDom s d).payload
  (List.range 8).foldl (fun s b =>
    let c := getCum s b
    let mine := failed.filter (fun ch => handed cum (2 ^ b) ch)
    match opAt s b v with
    | some o =>
      if c.dom = some d ∧ mine ≠ [] then
        let j := v - o.v
        let lanes := mine.map (laneOf cum)
        let bits64 := (lanes.filter (fun i => cellOf cum o.tmpl j i % 4 = 3)).map (fun i => 2 ^ bits (cellOf cum o.tmpl j i) 8 2)
        let e := (k, j, item, bits64.foldl (· ||| ·) 0, lanes.foldl (fun m i => m ||| 2 ^ i) 0)
        setCum s b { c with ops := c.ops.map (fun p => if p.seq = o.seq then { p with fails := p.fails ++ [e] } else p) }
      else s
    | none => s) s

/-- The 64-byte record of a failing op of a site (R139). -/
def opRecord (b k : Nat) (o : CumOp) (es : List (Nat × Nat × Nat × Nat × Nat)) (limit : Bool) : Bytes :=
  let first := es.headD (0, 0, 0, 0, 0)
  le 1 1 ++ le 1 b ++ le 1 k ++ le 1 o.tmpl ++ le 1 first.2.1 ++ le 1 es.length ++ le 2 first.2.2.1 ++
    le 8 ((o.v + first.2.1) % 2 ^ 48) ++ le 4 o.x ++ le 4 o.y ++ le 4 o.z ++ le 4 o.seq ++ le 8 o.data ++
    le 8 (es.foldl (fun m e => m ||| e.2.2.2.1) 0) ++ le 8 (es.foldl (fun m e => m ||| e.2.2.2.2) 0) ++
    le 4 (b2n limit) ++ le 4 0

/-- Write the record of an op and a site, or count it past fail_limit (R139). -/
def writeOpRecord (s : State) (d b k : Nat) (o : CumOp) (es : List (Nat × Nat × Nat × Nat × Nat)) : State :=
  let c := getCum s b
  let most := cumLimit (cumImage s (getDom s d).payload)
  let n := tget 0 c.recs k
  if n < most then
    let s := setCum s b { c with recs := tset 0 c.recs k (n + 1) }
    let s := regBump s (Reg.cumFailRec b) 0 16 1
    if silent (getDom s d) then s else addRecord s d b (opRecord b k o es (n + 1 = most))
  else regBump s (Reg.cumFailRec b) 16 16 1

/-- Write the records of the ops all of whose vectors have been judged once `v` has; `all` closes every op (R139). -/
def closeOps (s : State) (d v : Nat) (all : Bool) : State :=
  (List.range 8).foldl (fun s b =>
    let c := getCum s b
    if c.dom = some d then
      let due := c.ops.filter (fun o => o.fails ≠ [] ∧ (all ∨ o.v + o.len ≤ v + 1))
      let s := setCum s b { c with ops := c.ops.map (fun o => if due.contains o then { o with fails := [] } else o) }
      due.foldl (fun s o =>
        (List.range (getDom s d).sites).foldl (fun s k =>
          let es := o.fails.filter (fun e => e.1 = k)
          if es = [] then s else writeOpRecord s d b k o es) s) s
    else s) s

/-! ### Pair digests (R440, R441) -/

/-- Whether a job of the slot is compared with the partner's copy (R442, R443). -/
def compared (s : State) (x : Dom) : Bool := pairEnable s && !x.pair.alone && !discarded x

/-- A job diverges: the device sends kind 4 and ends the job as a job error with source 0x1101 (R442), in the ECLK whose VECTOR_POP
came last. -/
def diverge (s : State) (d : Nat) : State :=
  let s := regBump s Reg.paiCount 16 8 1
  unitCheck (commitFrame s 50 0x82 0 0 (digestFrame 4 0 (getDom s d).tag 0 0 0 0)) d 0x1101

/-- Whether two digests of a window agree. -/
def agree (g h : Digest) : Bool := g.vectors = h.vectors && g.drive = h.drive && g.fail = h.fail

/-- Compare the digests of slot `d` that both devices have sent (R442). -/
def settleDigests (s : State) (d : Nat) : State :=
  let x := getDom s d
  if ¬ compared s x then s
  else
    let both := x.pair.own.filterMap (fun g => (x.pair.partner.find? (fun h => h.window = g.window)).map (fun h => (g, h)))
    if both.any (fun e => !agree e.1 e.2) then diverge s d
    else
      let done (g : Digest) : Bool := both.any (fun e => e.1.window = g.window)
      let s := setDom s d { x with pair := { x.pair with
        own := x.pair.own.filter (fun g => !done g), partner := x.pair.partner.filter (fun g => !done g)
        final := x.pair.final || both.any (fun e => e.1.kind = 2) } }
      regBump s Reg.paiCount 0 16 both.length

/-- Send the digest of window `w` (R440), and compare it if the partner's has arrived. -/
def sendDigest (s : State) (d kind w : Nat) : State :=
  let x := getDom s d
  let find (l : List (Nat × Nat × Word)) : Nat × Word := ((l.find? (fun e => e.1 = w)).map Prod.snd).getD (0, 0)
  let g : Digest := { at_ := s.now, kind := kind, window := w, vectors := (find x.pair.drives).1,
                      drive := (find x.pair.drives).2, fail := (find x.pair.fails).2 }
  let s := setDom s d { x with pair := { x.pair with
    own := x.pair.own ++ [g], drives := x.pair.drives.filter (fun e => e.1 ≠ w), fails := x.pair.fails.filter (fun e => e.1 ≠ w) } }
  settleDigests (commitFrame s 50 0x82 0 0 (digestFrame kind 0 x.tag w g.vectors g.drive g.fail)) d

/-- The fail sets of a judged vector join its window; the window's last vector sends its digest, and the job's last the final
digest, over the window its end vector falls in (R440). -/
def digestFail (s : State) (d v : Nat) (sets : Bytes) : State :=
  let x := getDom s d
  let period := jobPeriod s x.payload
  let w := windowOf period v
  if compared s x ∧ (x.ended = none ∨ v < endVec x) then
    let s := setDom s d { x with pair := { x.pair with fails := extendWindow x.pair.fails w sets } }
    if windowOf period (v + 1) ≠ w then sendDigest s d 1 w
    else if x.ended.isSome ∧ v + 1 = endVec x then sendDigest s d 2 w
    else s
  else s

/-! ### The return of a vector (R169) -/

/-- The results of one site: its fails under cmp_mode 0 are counted and logged, those under cmp_mode 1 feed its
`MATCH`. -/
def judgeSite (s : State) (d : Nat) (p : Played) (rs : List PinResult) (k : Nat) : State :=
  let mine := rs.filter (fun r => r.pin.site = k ∧ ¬ r.pin.starve ∧ ¬ r.pin.parked)
  let item := ((p.items.find? (fun e => e.1 = k)).map Prod.snd).getD 0
  let failed := (mine.filter (fun r => r.fails ∧ r.pin.cmp = 0)).map (fun r => r.pin.ch)
  if mine = [] then s
  else
    let s := if mine.any (fun r => r.pin.cmp = 1) then judgeMatch s d k p.v (mine.any PinResult.fails) else s
    let s := if failed = [] then s
      else
        let s := noteOpFails s d k p.v item failed
        countFail s d k { v := p.v, item := item, pins := failed.length,
                          set := failSet (sitePins (getDom s d).payload k) failed.contains,
                          pa := opAddrOf s d k p.v, timeout := false }
    match (getSite s d k).mFail with
    | some (w, i) => if w ≤ p.v then timeoutFail s d k w i else s
    | none => s

/-- The fail sets of every site for a vector, in ascending site order (R440). -/
def allSets (s : State) (d : Nat) (rs : List PinResult) : Bytes :=
  ((List.range (getDom s d).sites).map (fun k =>
    failSet (sitePins (getDom s d).payload k)
      (fun ch => rs.any (fun r => r.pin.ch = ch ∧ r.fails ∧ r.pin.cmp = 0)))).flatten

/-- The readings and pin fails of a vector reach the Squalls of its banks (R211). -/
def feedSqualls (s : State) (d v : Nat) (rs : List PinResult) : State :=
  let code : Reading → Nat
    | .h => 2 | .l => 1 | .m => 0 | .i => 3
  (List.range 8).foldl (fun s b =>
    if (getSquall s b).dom = some d then
      let mine := rs.filter (fun r => r.pin.ch / 32 = b)
      rowArrives s b v ((mine.map (fun r => code r.row * 4 ^ (r.pin.ch % 32))).sum)
        ((mine.map (fun r => if r.fails ∧ r.pin.cmp = 0 then 2 ^ (r.pin.ch % 32) else 0)).sum)
    else s) s

/-- Judge the oldest vector in flight. -/
def judgeVector (s : State) (d : Nat) (p : Played) (rest : List Played) (readings : List PinReading) : State :=
  let x := getDom s d
  let tim := timImage s x.payload
  let rs := p.pins.map (judgePin s d tim p.v readings)
  let s := setDom s d { x with flight := rest }
  let s := countInvalid s rs
  let s := (List.range x.sites).foldl (fun s k => judgeSite s d p rs k) s
  let x := getDom s d
  let s := closeOps s d p.v (x.ended.isSome && !rest.any plays)
  let s := feedSqualls s d p.v rs
  let s := digestFail s d p.v (allSets s d rs)
  let x := getDom s d
  if x.ended.isSome ∧ ¬ discarded x ∧ plays p then atEnd (setDom s d { x with endAt := eclkTime s x (clock x - 1) }) d else s

/-- COMPARE_RETURN: the judgement of the oldest vector v in flight becomes visible in the ECLK in which vector v + R
starts (R169). The operand gives what each pin returned. -/
def execCompareReturn (d : Fin 16) (readings : List PinReading) (s : State) : Host.Outcome State Fault Refusal :=
  let x := getDom s d
  match x.flight with
  | p :: rest =>
    if x.phase ≠ .free ∧ ¬ x.halted ∧ p.v + x.ret < x.next then .next (judgeVector s d p rest readings) else .next s
  | [] => .next s

/-! ### Commits (R66, R173 to R177) -/

/-- Merge one failing vector of an accumulator into a context (R176). -/
def mergeFail (c : Ctx) (f : AccFail) : Ctx :=
  let sat : Bool := c.failCount + 1 ≥ 2 ^ 32 - 1
  let addr : Bool := f.pa.isSome && !c.status.getLsbD 3
  { c with
    failCount := satAdd 32 c.failCount 1
    firstFail := if c.status.getLsbD 1 then c.firstFail else f.v % 2 ^ 48
    lastFail := f.v % 2 ^ 48
    firstAddr := if addr then f.pa.getD 0 else c.firstAddr
    signature := crcExtend c.signature f.set
    status := c.status ||| 2#8 ||| (if sat then 4#8 else 0#8) ||| (if addr then 8#8 else 0#8) }

/-- A commit: the failing vectors of the accumulator in vector order, then written and commits (R176); `stopped` marks
the final commit of a site stopped under R171 (R174). -/
def commitCtx (c : Ctx) (acc : List AccFail) (stopped : Bool) : Ctx :=
  let c := acc.foldl mergeFail c
  { c with commits := satAdd 8 c.commits 1, status := c.status ||| 1#8 ||| (if stopped then 16#8 else 0#8) }

/-- Whether every vector before `v` of a domain has been judged, as far as any is played. -/
def judgedBefore (x : Dom) (v : Nat) : Bool := v ≤ judgedTo x || (x.ended.isSome && !judging x)

/-- Whether a commit is the site's final one. -/
def isFinal (y : Site) (c : Commit) (rest : List Commit) : Bool := rest = [] && y.event.isSome && c.v = y.event.getD 0

/-- Whether the engines of a job read the context of site `k` in a site condition: a flow stands in an interlocked `JSC` or a
`MATCH` of a site condition that looks at the site, or has carried one out by a microword in the ECLK whose VECTOR_POP came last
(R56, R60, R82). -/
def readsContext (s : State) (d k : Nat) : Bool :=
  let x := getDom s d
  let b := seqImage s x.payload
  let reads (w fi : Nat) : Bool :=
    decide (bits w 30 24 < 0x60) && ((wordOpcode w = 0x10 && (flowActive s d fi).contains k) ||
      (wordOpcode w = 0x0B && (if bits w 33 32 = 0 then (flowActive s d fi).contains k else (activeSites s d).contains k)))
  (flowList x).any (fun fi =>
    let f := getFlow s d fi
    match f.waits with
    | .word _ _ => reads (progWord b f.sa) fi
    | .none => f.micro.ran = clock x && reads f.micro.ir.toNat fi
    | _ => false)

/-- LEDGER_COMMIT: the next commit of a site, once the vectors it covers are judged (R176, R177). Where the read of the
context meets a parity error, the job ends as after a machine check with source 0x0501 (R390): the read of a commit, or, where none
is due, that of a site condition (DESIGN CHOICE: the table of commands gives no row of its own to it). -/
def execLedgerCommit (d : Fin 16) (k : Fin 256) (parity : Bool) (s : State) : Host.Outcome State Fault Refusal :=
  let x := getDom s d
  let y := getSite s d k
  let check : State := unitCheck s d 0x0501
  let idle : State := if parity ∧ x.phase ≠ .free ∧ ¬ x.halted ∧ readsContext s d k then check else s
  match y.commits with
  | c :: rest =>
    if x.phase = .free ∨ x.halted ∨ ¬ judgedBefore x c.v then .next idle
    else if parity then .next check
    else
      let ix := ctxIx x.payload k c.item
      let now := y.acc.filter (fun f => f.v < c.v)
      let fin := isFinal y c rest
      let s := setCtx s ix (commitCtx (getCtx s ix) now (fin && y.stopped))
      let s := setSite s d k { y with commits := rest, acc := y.acc.filter (fun f => c.v ≤ f.v), finalDone := y.finalDone || rest = [] }
      .next (regBump s Reg.ledCommits 0 32 1)
  | [] => .next idle

end Sys2Proof.Machine
end

