-- ==== Sys2Proof/Machine/Micro.lean ====
section
/-! DEFINITION. Cirrus microwords (chapter 03): fields, condition groups, next address, one microword per ECLK, machine
checks and reloads, and diagnostic reads of the control store. -/

namespace Sys2Proof.Machine

/-! ### The microword (R78, R79) -/

/-- Group `k` of a physical microword. -/
def wordGroup (w : Microword) (k : Nat) : Nat := bits w.toNat (16 * k + 15) (16 * k)

/-- The number of ones of a 16-bit group. -/
def ones16 (g : Nat) : Nat := ((List.range 16).filter (bit g)).length

/-- The groups that fail odd parity, as a mask (R78). -/
def badGroups (w : Microword) : Nat :=
  ((List.range 10).map (fun k => if ones16 (wordGroup w k) % 2 = 0 then 2 ^ k else 0)).sum

/-- The function bits F[149:0] of a physical microword. -/
def funcBits (w : Microword) : Nat := ((List.range 10).map (fun k => wordGroup w k % 2 ^ 15 * 2 ^ (15 * k))).sum

/-- The word an engine holds at a control-store address (R76). -/
def storeWord (s : State) (ch a : Nat) : Microword :=
  match s.store.own.find? (fun e => e.1 = ch ∧ e.2.1 = a) with
  | some e => e.2.2
  | none => tget 0 s.store.image a

/-- An upset of the stored word of engine `ch` at address `a`: the bits of `mask` change, and stay changed. -/
def upsetWord (s : State) (ch a : Nat) (mask : Microword) : State :=
  let w := storeWord s ch a ^^^ mask
  { s with store := { s.store with own := (ch, a, w) :: s.store.own.filter (fun e => ¬ (e.1 = ch ∧ e.2.1 = a)) } }

/-! ### Condition groups (R82) -/

/-- Four condition bits as a number. -/
def cbits (b3 b2 b1 b0 : Bool) : Nat := 8 * b2n b3 + 4 * b2n b2 + 2 * b2n b1 + b2n b0

/-- The vector A of the release of the `BARR` a flow arrived at by a microword (R63): in a site-locked domain its sites
arrive together, and the arrival releases it. -/
def barrReleased (s : State) (d : Nat) (m : Micro) : Option Nat :=
  if jobFree (getDom s d).payload then m.barrRel else m.barr.map Prod.snd

/-- Whether the `APG` barrier of site `k` is released (R70): where the site waits at none, it is. -/
def apgReleased (s : State) (d k banks : Nat) (m : Micro) : Bool :=
  !jobFree (getDom s d).payload || !ownsPin s d banks k || m.apgRel.isSome

/-- The four bits of a condition group for the flow `fi` of site `k`. In a site-locked domain, whose flow serves every site,
the own-site bit of group 4 and group 6 are those of the site the command names. With an empty stack, which has no top entry, bit 2 of
group 3 reads 0; bit 3 of group 4 asks for the commits of every active site, whatever IR selects as its reduction: the manual does
not give either (three DESIGN CHOICES). -/
def condGroup (s : State) (d k : Nat) (f : Flow) (g : Nat) : Nat :=
  let x := getDom s d
  let y := getSite s d k
  let m := f.micro
  let ir := m.ir.toNat
  let depth := f.loops.length
  let cond := bits ir 30 24
  if g = 1 then cbits false false (m.ec = 0) (m.ec ≤ 16)
  else if g = 2 then cbits (depth < bits ir 19 16) (depth = 8) (depth = 0) ((f.loops.head?.map Loop.count) = some 1)
  else if g = 3 then cbits false (match f.stack with
    | (_, n) :: _ => depth ≠ n
    | [] => false) (f.stack.length = 16) (f.stack = [])
  else if g = 4 then cbits (interlocked s d m.first (reduceSites s d k .every)) (reduced s d k cond .every)
    (reduced s d k cond .any) (reduced s d k cond .own)
  else if g = 5 then cbits false false false m.latch
  else if g = 6 then
    let played := if y.mBlock = 0 then 0 else (f.nextV - y.mStart) / y.mBlock
    let l := if y.mBlock = 0 then 0 else ceilDiv x.ret y.mBlock
    cbits y.mFirst.isSome (match y.mFirst with
      | some n => n + l ≤ played
      | none => false) (bits ir 63 32 + 1 ≤ played) y.mClean
  else if g = 7 then
    let rel := barrReleased s d m
    cbits false false (match rel with
      | some A => A + max (wordEcount ir) (dVec s d) ≤ f.nextV
      | none => false) rel.isSome
  else if g = 8 then
    let bs := banksOf (bits ir 7 0)
    let done := bs.all (fun b => (getCum s b).start + (getCum s b).vcount ≤ f.nextV)
    cbits false (bs.any (fun b => (getCum s b).wrong.isSome)) done (apgReleased s d k (bits ir 7 0) m)
  else if g = 9 then cbits m.ov m.c m.n m.z
  else if g = 10 then (m.sc.getD 7 0).toNat % 16
  else if g = 11 then cbits (wordEcount ir = 0) (bit ir 31) (bit ir 33) (bit ir 32)
  else 0

/-- Whether a microword dispatches (R84). -/
def dispatches (fb cb : Nat) : Bool := bits fb 12 10 = 3 || (bits fb 12 10 = 4 && bit cb 0)

/-- The next address (R83); a dispatch goes to the opcode of the dispatched word. CA + 1 at 0x3FF, here and in the micro-return
register, is 0x000: the manual does not say (DESIGN CHOICE). -/
def nextAddress (fb cb ca mret opcode : Nat) : Nat :=
  let base := bits fb 9 0
  let b := bits fb 12 10
  if dispatches fb cb then opcode
  else if b = 1 ∨ b = 4 ∨ b = 5 then base
  else if b = 2 then base ||| cb
  else if b = 6 then mret
  else (ca + 1) % 1024

/-! ### Pushes (R80) -/

/-- The slots a microword pushes. Of an imm[4:0] outside 1 to 16, which R80 does not admit, 0 pushes none and more push 16
(DESIGN CHOICE). -/
def pushCount (fb ec : Nat) : Nat :=
  if bits fb 24 23 = 1 then min 16 ec else if bits fb 24 23 = 2 then min 16 (bits (bits fb 149 118) 4 0) else 0

/-- The source a vsrc code names, IR src where it names none. -/
def sourceOf (n : Nat) : Src := if n = 1 then .again else if n = 2 then .const else .stream

/-- The runs a push of `n` slots adds: one, or one per slot where it plays the replay buffer again. From an empty replay buffer
no symbol is pushed, while the `n` slots count: the manual does not say what they hold (DESIGN CHOICE). -/
def pushRuns (s : State) (d fi : Nat) (f : Flow) (fb n : Nat) : List Run :=
  let pins := flowPins (getDom s d).payload fi
  let ir := f.micro.ir.toNat
  let v := bits fb 22 20
  let src : Src := if v = 1 then .stream else if v = 2 then .again else if v = 3 then .const else sourceOf (wordSrc ir)
  let r : Run := { v := f.nextV, count := n, src := src, sym := wordSym ir, block := 0
                   base := (match src with | .stream => f.pos | .again => f.last | .const => []),
                   tset := f.tset, cmp := bits fb 36 35, item := f.item, mask := f.mask
                   cum := if v = 4 then bits ir 7 0 else 0, starve := v = 6 }
  if n = 0 then []
  else if v = 5 then
    let total := (f.micro.replay.map Run.count).sum
    (List.range n).filterMap (fun i =>
      let o := if total = 0 then 0 else (f.micro.rpos + i) % total
      (nth f.micro.replay o).map (fun q => { q.1 with
        v := f.nextV + i, count := 1, tset := f.tset, cmp := bits fb 36 35, item := f.item, mask := f.mask
        base := if q.1.src = .stream then advance pins q.2 q.1.base else q.1.base }))
  else [r]
where
  /-- The run that holds vector `o` of a list of runs, and the vector's offset in it. -/
  nth : List Run → Nat → Option (Run × Nat)
    | [], _ => none
    | q :: l, o => if o < q.count then some (q, o) else nth l (o - q.count)

/-- How many of `n` slots the slot queues, the decoders and Cumulus take of a push (R47, R77, R114, R135), and the rings after the
attempt: none while the queue lacks the room, and those before the first symbol of a block that has not landed. -/
def tryPush (s : State) (d fi : Nat) (f : Flow) (rs : List Run) (n : Nat) : Nat × State :=
  let p := (getDom s d).payload
  let room : Bool := f.nextV + n ≤ (getDom s d).next + 64
  if n = 0 ∨ ¬ room then (0, s)
  else match rs with
  | [r] =>
    let l := (flowPins p fi).map (fun ch =>
      askPin s (strImage s p) (cumImage s p) { f with pushed := f.nextV } r (clock (getDom s d)) ch n)
    let m := if cumReady s r f.nextV n then supply n l else 0
    (m, (flowPins p fi).foldl (fun s ch => noteStall s d ch) (takeAnswers s d f m l))
  | _ => (n, s)

/-- Slots a replay buffer records (R80). -/
def replaySlots : Nat := 64

/-- The first `n` slots of a list of runs. -/
def takeSlots : Nat → List Run → List Run
  | _, [] => []
  | n, r :: l => if n = 0 then [] else { r with count := min r.count n } :: takeSlots (n - r.count) l

/-- Add the runs of `n` slots to a flow: they land at the end of the ECLK (R47). `all` tells that the word has pushed its whole
block. -/
def addRuns (s : State) (d fi : Nat) (f : Flow) (rs : List Run) (fb n : Nat) (all : Bool) : Flow :=
  let p := (getDom s d).payload
  let f := rs.foldl (fun f r => { f with
    queue := f.queue ++ [r], last := lastAfter (strImage s p) (cumImage s p) (flowPins p fi) r (r.v + r.count) f.last }) f
  let live : Bool := (rs.head?.map Run.src) = some .stream && bits fb 22 20 ≠ 5
  let m := f.micro
  let clear : Bool := bits fb 47 46 = 2 && all
  let mine := ownPins s p fi ((rs.head?.map Run.cum).getD 0)
  let f := { f with nextV := f.nextV + n, pos := if live then advance mine n f.pos else f.pos }
  { f with micro := { m with
    landing := n ≠ 0
    rpos := if clear then 0 else if bits fb 22 20 = 5 then m.rpos + n else m.rpos
    replay := if clear then [] else if bits fb 47 46 = 1 then takeSlots replaySlots (m.replay ++ rs) else m.replay } }

/-! ### The ALU (R80) -/

/-- Operand B. -/
def aluB (fb : Nat) (m : Micro) : Word :=
  let sel := bits fb 61 60
  if sel = 0 then m.sc.getD (bits fb 64 62) 0
  else if sel = 1 then BitVec.ofNat 32 (bits fb 149 118)
  else if sel = 2 then m.ir.extractLsb' 0 32
  else m.ir.extractLsb' 32 32

/-- The result of an ALU operation; none where the word performs none. -/
def aluResult (op : Nat) (a b : Word) : Option Word :=
  if op = 1 then some (a + b) else if op = 2 ∨ op = 9 then some (a - b) else if op = 3 then some (a &&& b)
  else if op = 4 then some (a ||| b) else if op = 5 then some (a ^^^ b) else if op = 6 then some (a <<< (b.toNat % 32))
  else if op = 7 then some (a >>> (b.toNat % 32)) else if op = 8 then some b else if op = 10 then some (a + 1)
  else if op = 11 then some (a - 1) else none

/-- Carry and overflow of an operation, where the manual's words fix them: the carry out and the overflow of a sum, the
overflow of a difference. -/
def aluCarry (op : Nat) (a b : Word) : Option Bool :=
  if op = 1 then some (2 ^ 32 ≤ a.toNat + b.toNat) else if op = 10 then some (a.toNat + 1 = 2 ^ 32) else none
def aluOver (op : Nat) (a b : Word) : Option Bool :=
  let sum (v : Int) : Option Bool := some (v < -(2 ^ 31) ∨ 2 ^ 31 ≤ v)
  if op = 1 then sum (a.toInt + b.toInt) else if op = 2 ∨ op = 9 then sum (a.toInt - b.toInt)
  else if op = 10 then sum (a.toInt + 1) else if op = 11 then sum (a.toInt - 1) else none

/-- The ALU field of a microword: the scratch register and the flags. C and V of an operation for which the manual gives
none are free values. -/
def doAlu (s : State) (fb : Nat) (m : Micro) : Micro × State :=
  let op := bits fb 53 50
  let a := m.sc.getD (bits fb 59 57) 0
  let b := aluB fb m
  match aluResult op a b with
  | none => (m, s)
  | some r =>
    let m := if op = 9 then m else { m with
      sc := (List.range 8).map (fun i => if i = bits fb 56 54 then r else m.sc.getD i 0) }
    if bit fb 65 then
      let x := drawFree s
      ({ m with z := r = 0, n := r.getLsbD 31, c := (aluCarry op a b).getD (bit x.1 0), ov := (aluOver op a b).getD (bit x.1 1) }, x.2)
    else (m, s)

/-! ### The fields that act (R80) -/

/-- Setting words: TSET, FMASK and LEDG act before the block the same word pushes (R46, R64 to R66). -/
def microSet (s : State) (d k fi fb : Nat) (f : Flow) : State :=
  let ir := f.micro.ir.toNat
  let p := (getDom s d).payload
  let f := if bit fb 34 then { f with tset := bits ir 7 0 } else f
  let f := if bit fb 37 then { f with mask := bits ir 7 0 + 1 } else f
  let op := bits fb 40 39
  let s := if 2 ≤ op then issueCommit s d fi f.nextV f.item else s
  let item := if bit ir 2 then f.item + 1 else bits ir 31 16
  let sel : Bool := op = 1 || op = 3
  let f' := if sel then { f with item := item } else f
  if bit fb 34 ∧ timSetIx (timImage s p) f.tset = none then progError (setFlow s d fi f) d k 0x27 f.sa
  else if sel ∧ 2 ^ jobItemBits p ≤ item then progError (setFlow s d fi f) d k 0x28 f.sa
  else setFlow s d fi f'

/-- Markers and capture actions (R67, R68). -/
def microActs (s : State) (d k fi fb : Nat) : State :=
  let f := getFlow s d fi
  let ir := f.micro.ir.toNat
  let p := (getDom s d).payload
  let z : Bool := wordEcount ir = 0
  let mark : Act := .mark f.nextV z (bits ir 7 0) (bits ir 15 8) (bits ir 23 16)
    (if bit ir 24 then some (bits ir 27 25) else none) (BitVec.ofNat 8 (bits ir 39 32))
  let capts : List Act := match captOf (bits ir 10 8) with
    | some act => [.capt f.nextV z (bits ir 7 0) act]
    | none => []
  let badMark : Bool := bits ir 7 0 &&& jobAurs p ≠ bits ir 7 0 || bits ir 15 8 &&& jobMarks p ≠ bits ir 15 8 ||
    bits ir 23 16 &&& jobSquBanks p ≠ bits ir 23 16
  let badCapt : Bool := bits ir 7 0 &&& jobSquBanks p ≠ bits ir 7 0
  if (bit fb 41 ∧ badMark) ∨ (bit fb 38 ∧ badCapt) then progError s d k 0x2C f.sa
  else
    let a := f.acts
    let a := if bit fb 41 then a.filter (fun x => !(z && zeroMark f.nextV x)) ++ [mark] else a
    let a := if bit fb 38 then a.filter (fun x => !(z && zeroCapt f.nextV x)) ++ capts else a
    setFlow s d fi { f with acts := a }

/-- Loop levels, the call stack and NSA (R51 to R53, R80). In one microword loop_op acts first, then seq_op, then stk_op, so that
stk_op 1 pushes the loop depth after loop_op; loop_op 1 with eight levels open opens a ninth, stk_op 1 with 16 entries pushes a
17th, and seq_op 2 with an empty stack leaves NSA: the manual gives neither the order nor these outcomes, which a microprogram
tests for and raises with err (DESIGN CHOICES). -/
def microFlow (fi fb : Nat) (p : Bytes) (f : Flow) : Flow :=
  let ir := f.micro.ir.toNat
  let op := bits fb 29 27
  let f :=
    if op = 1 then { f with loops := { count := bits ir 31 0 + 1, addr := f.sa + 1, marks := f.pos } :: f.loops }
    else match f.loops with
    | [] => f
    | l :: r =>
      if op = 2 then { f with loops := { l with count := l.count - 1 } :: r }
      else if op = 3 then closeLevels f 1 false
      else if op = 4 then closeLevels f (bits ir 19 16) false
      else if op = 5 then { f with pos := rewindTo (flowPins p fi) l.marks f.pos, nsa := l.addr }
      else f
  let top := (f.stack.head?.map Prod.fst).getD f.nsa
  let f := if bits fb 33 32 = 1 then { f with nsa := bits ir 15 0 } else if bits fb 33 32 = 2 then { f with nsa := top } else f
  if bits fb 31 30 = 1 then { f with stack := (f.sa + 1, f.loops.length) :: f.stack }
  else if bits fb 31 30 = 2 then { f with stack := f.stack.drop 1 }
  else f

/-- The latch operation of a yield word (R80, R87). -/
def microLatch (s : State) (d k fi fb : Nat) : State :=
  let f := getFlow s d fi
  let n := bits f.micro.ir.toNat 28 24
  if bit fb 17 ∧ bits fb 19 18 ≠ 0 then
    let set := latchSet (getDom s d) (getSite s d k) n
    let s := setFlow s d fi { f with micro := { f.micro with latch := set } }
    if bits fb 19 18 ≠ 2 then s
    else if f.left then setSite s d k (clearLatch (getSite s d k) (clock (getDom s d)) n)
    else clearLatches s d fi n
  else s

/-- Set the barrier flag of the Cumulus of banks (R142), and return handed pins to the engine (R80). -/
def awaitCums (s : State) (m : Nat) : State := (banksOf m).foldl (fun s b => setCum s b { getCum s b with barrier := true }) s
def returnPins (s : State) (m : Nat) : State := (banksOf m).foldl (fun s b => setCum s b { getCum s b with running := false }) s

/-- The barrier and Cumulus handshakes, and retirement (R63, R70, R71, R80). A word that pushes and starts Cumulus (cum_hs 2)
starts it at the vector after the slots it pushes: the manual gives no start vector (DESIGN CHOICE). The engines of a site that
has left the program reach no barrier and hold no Cumulus. -/
def microShake (s : State) (d k fi fb : Nat) : State :=
  let f := getFlow s d fi
  if f.left then s else
  let ir := f.micro.ir.toNat
  let m := f.micro
  let b := bits fb 45 44
  let c := bits fb 43 42
  let m := if b = 1 then { m with barr := some (f.sa, f.nextV), barrRel := none }
    else if b = 2 then { m with barr := none, barrRel := none } else m
  let m := if c = 1 then { m with apg := some (f.sa, f.nextV), apgRel := none }
    else if c = 2 then { m with apg := none, apgRel := none } else m
  let s := setFlow s d fi { f with micro := m }
  let banks := bits ir 7 0
  let s := if c = 1 ∧ ¬ (jobFree (getDom s d).payload ∧ ¬ ownsPin s d banks k) then awaitCums s banks
    else if c = 2 then (banksOf banks).foldl (fun s b => startCum s d b (bits ir 23 8) f.nextV (bits ir 63 32 + 1)) s
    else if c = 3 then returnPins s banks
    else s
  let s := if b = 1 ∨ c = 1 then barriers s d else s
  if b = 3 then retireFlow s d fi (getFlow s d fi) else s

/-- Withdraw every slot of a flow still queued at the end of the present ECLK, in which Halo pops the vectors that start in it
(R47, R79 q_withdraw). What the pins repeat is then the last symbol that stays (R43). -/
def microWithdraw (s : State) (d fi : Nat) : State :=
  let p := (getDom s d).payload
  let f := getFlow s d fi
  let v := vecAhead s d 1
  if f.left ∨ f.nextV ≤ v then s
  else
    let q := (f.queue.filter (fun r => r.v < v)).map (fun r => { r with count := min r.count (v - r.v) })
    let last := if v = 0 then [] else match q.getLast? with
      | some r => lastAfter (strImage s p) (cumImage s p) (flowPins p fi) r v f.last
      | none => f.last
    setFlow s d fi { f with queue := q, nextV := v, pushed := min f.pushed v, last := last }

/-- A dispatch (R84): SA, NSA, IR and EC; execution past the last word is an error (R73). A `MATCH` word begins its
passes here. -/
def microDispatch (s : State) (d k fi : Nat) : State :=
  let f := getFlow s d fi
  let b := seqImage s (getDom s d).payload
  if progWords b ≤ f.nsa then progError s d k 0x26 f.sa
  else
    let w := progWord b f.nsa
    let s := setFlow s d fi { f with
      sa := f.nsa, nsa := f.nsa + 1
      micro := { f.micro with ir := BitVec.ofNat 128 w, ec := wordEcount w, first := f.nextV } }
    if wordOpcode w = 0x10 then matchBegin s d fi f.nextV (wordEcount w) (bits w 30 24) else s

/-! ### Machine checks (R90) -/

/-- The channels of a list whose stored word at `ca` fails parity, in ascending order. -/
def parityChannels (s : State) (pins : List Nat) (ca : Nat) : List Nat := pins.filter (fun ch => badGroups (storeWord s ch ca) ≠ 0)

/-- A machine check on channel `ch` at address `ca` (R90, R98). -/
def machineStop (s : State) (d ch ca : Nat) : State :=
  let s := regBump s Reg.mcCount 0 16 1
  let s := if regField s Reg.mcStat 31 1 = 1 then regPut s Reg.mcStat 30 1 1
    else
      let w := ch + ca % 1024 * 65536 + d * 2 ^ 26 + regField s Reg.mcStat 30 1 * 2 ^ 30 + 2 ^ 31
      regPut (regSet s Reg.mcStat (BitVec.ofNat 32 w)) Reg.mcInfo 0 10 (badGroups (storeWord s ch ca))
  let s := { s with store := { s.store with reload := addOnce s.store.reload ch } }
  machineCheck s d 0x0101

/-- Machine checks on the engines of channels that failed in one ECLK: each is counted, and their queues lack the vectors from
`v` on. -/
def machineStops (s : State) (d ca v : Nat) (chs : List Nat) : State :=
  let s := chs.foldl (fun s ch => machineStop s d ch ca) s
  if chs = [] then s else setDom s d { getDom s d with missing := (getDom s d).missing ++ chs.map (fun ch => (ch, v)) }

/-! ### One microword -/

/-- Push `m` slots of a microword that pushes `n` in all, `todo` of them still to push. Its setting words, markers and capture
actions act with the first (R46, R114). -/
def microPush (s : State) (d k fi fb n m todo : Nat) (rs : List Run) : State :=
  let s := if todo = n then microActs (microSet s d k fi fb (getFlow s d fi)) d k fi fb else s
  let rs := if m = 0 then [] else pushRuns s d fi (getFlow s d fi) fb (if rs = [] then 0 else m)
  let f := addRuns s d fi (getFlow s d fi) rs fb m (m = todo)
  setFlow s d fi { f with micro := { f.micro with rest := todo - m } }

/-- Execute the fields of a microword that has pushed its block of `n` slots on the flow of index `fi`, whose condition bits were
`cb` (R77). -/
def microExec (s : State) (d k fi fb n cb : Nat) : State :=
  let p := (getDom s d).payload
  let f := getFlow s d fi
  let left := if bits fb 24 23 = 1 then f.micro.ec - n else f.micro.ec
  let ec := if bits fb 26 25 = 1 then wordEcount f.micro.ir.toNat else if bits fb 26 25 = 2 then bits fb 133 118 else left
  let s := match bits fb 29 27, f.loops with
    | 5, l :: _ => if f.left then s else rewindRings s (flowPins p fi) l.marks
    | _, _ => s
  let f := microFlow fi fb p { f with micro := { f.micro with ec := ec } }
  let alu := doAlu s fb f.micro
  let opcode := wordOpcode (progWord (seqImage s p) f.nsa)
  let m := { alu.1 with
    ca := nextAddress fb cb f.micro.ca f.micro.mret opcode
    mret := if bits fb 12 10 = 5 then (f.micro.ca + 1) % 1024 else f.micro.mret }
  let s := microShake (microLatch (setFlow alu.2 d fi { f with micro := m }) d k fi fb) d k fi fb
  let s := if bit fb 49 then microWithdraw s d fi else s
  let s := if bit fb 48 then progError s d k (bits fb 125 118) f.sa else s
  if dispatches fb cb ∧ ¬ bit fb 48 then microDispatch s d k fi else s

/-- An upset strikes a word as it is read. -/
def strike (s : State) (p : Bytes) (ca : Nat) (upset : Option (Fin 256 × Microword)) : State :=
  match upset with
  | some (ch, m) => if jobPin p ch then upsetWord s ch ca m else s
  | none => s

/-- Whether site `k` is the one whose event routine issues the markers and capture actions of its flow: the lowest that runs one
(R72: one issue in a site-locked domain). -/
def issues (s : State) (d k : Nat) : Bool :=
  let p := (getDom s d).payload
  (flowSites p (flowIx p k)).find? (fun j => (getSite s d j).routine.isSome) = some k

/-- One word of the event routine `g` of site `k`, which has left its flow (R87): it is read and checked, and its fields act on the
site's own registers, stacks, latches, markers and capture actions. A push counts its slots, which the starve waveform of the pins
takes the place of; a commit, a barrier or a Cumulus handshake of a site that has left the program does nothing: the manual gives
no routine (DESIGN CHOICE). An error or a machine check in it still ends the job DISCARDED (R92). -/
def routineWord (s : State) (d k : Nat) (g : Flow) (upset : Option (Fin 256 × Microword)) : State :=
  let x := getDom s d
  let p := x.payload
  let fi := flowIx p k
  let ca := g.micro.ca
  let s := strike s p ca upset
  let pins := sitePins p k
  let bad := parityChannels s pins ca
  let s := machineStops s d ca x.next bad
  let g := { g with micro := { g.micro with ran := clock x + 1 } }
  match pins.filter (fun ch => !bad.contains ch) with
  | [] => setSite s d k { getSite s d k with routine := some g }
  | ch :: _ =>
    let main := getFlow s d fi
    let fb := funcBits (storeWord s ch ca)
    let s := setFlow s d fi g
    let cb := condGroup s d k g (bits fb 16 13)
    let n := pushCount fb g.micro.ec
    let s := microExec (microPush s d k fi fb n n n []) d k fi fb n cb
    let h := getFlow s d fi
    let acts := if issues s d k then h.acts else []
    setSite (setFlow s d fi { main with acts := main.acts ++ acts }) d k { getSite s d k with
      routine := some { h with queue := [], acts := [], micro := { h.micro with landing := false } } }

/-- The engines of a flow execute one microword, or hold it (R77): the pending events of its sites are taken at a yield, and
the word is suppressed for the sites that took one (R87). `pins` are the channels whose engines read a good word. A held word that
has pushed a part of its block keeps the condition bits of its first read. -/
def microStep (s : State) (d k fi : Nat) (pins : List Nat) : State :=
  let fb := funcBits (storeWord s (pins.headD 0) (getFlow s d fi).micro.ca)
  let s := if bit fb 17 then takeEvents s d fi else s
  if flowActive s d fi = [] then settle (barriers s d) d
  else
    let f := getFlow s d fi
    let n := pushCount fb f.micro.ec
    let todo := if f.micro.rest = 0 then n else f.micro.rest
    let cb := condGroup s d k { f with nextV := f.nextV - (n - todo) } (bits fb 16 13)
    let rs := pushRuns s d fi f fb todo
    let t := tryPush s d fi f rs todo
    if n ≠ 0 ∧ t.1 = 0 then t.2
    else
      let s := microPush t.2 d k fi fb n t.1 todo rs
      if t.1 < todo then s else microExec s d k fi fb n cb

/-- MICROWORD_EXECUTE: the engines of site `k` read, check and execute one microword in lockstep, or hold it (R77 to
R90). `upset` names an engine whose stored word is struck as it is read, and the bits that change. Engines that read a good
word execute it also in the ECLK in which another meets a machine check. -/
def execMicrowordExecute (d : Fin 16) (k : Fin 256) (upset : Option (Fin 256 × Microword)) (s : State) :
    Host.Outcome State Fault Refusal :=
  let x := getDom s d
  let fi := flowIx x.payload k
  let f := getFlow s d fi
  let y := getSite s d k
  match y.routine with
  | some g =>
    if x.engines ∧ ¬ x.halted ∧ x.phase ≠ .free ∧ ¬ y.parked ∧ (¬ discarded x ∨ running x) ∧ g.micro.ran ≠ clock x + 1 then
      .next (routineWord s d k g upset)
    else .next s
  | none =>
    if ¬ running x ∨ x.sites ≤ k ∨ siteGone y ∨ f.waits ≠ .none ∨ f.pushed ≠ f.nextV ∨ f.costs ≠ [] ∨ f.micro.ran = clock x + 1 then
      .next s
    else
      let ca := f.micro.ca
      let s := strike (setFlow s d fi { f with micro := { f.micro with ran := clock x + 1 } }) x.payload ca upset
      let pins := flowPins x.payload fi
      let bad := parityChannels s pins ca
      let s := machineStops s d ca f.nextV bad
      let good := pins.filter (fun ch => !bad.contains ch)
      .next (if good = [] then s else microStep s d k fi good)

/-! ### Reload (R93) and diagnostic reads (R98) -/

/-- CONTROL_STORE_RELOAD_DONE: a machine-checked engine has been reloaded from the staged image and read back (R93). A store whose
readback mismatched keeps the words that differed before: the manual does not say what it holds (DESIGN CHOICE). -/
def execControlStoreReloadDone (ch : Fin 256) (digestOk readbackOk : Bool) (s : State) : Host.Outcome State Fault Refusal :=
  if s.store.reload.contains ch.val then
    let s := { s with store := { s.store with reload := s.store.reload.erase ch } }
    if ¬ digestOk then .next (latchFault s 0x0102 ch)
    else if readbackOk then
      let s := { s with store := { s.store with own := s.store.own.filter (fun e => e.1 ≠ ch.val) } }
      .next (regBump s Reg.mcInfo 16 16 1)
    else .next (raiseEvent (retireChannel s ch) 0x0103 (le 4 ch))
  else .next s

/-- The effect of a write to CIR_CS_ADDR: a diagnostic read starts (R98). A write while busy is 1 drops the read under way and
starts anew at the address written: the manual does not say (DESIGN CHOICE). -/
def startDiag (s : State) (value : Word) : State :=
  let s := regSet s Reg.csAddr (BitVec.ofNat 32 (value.toNat % 1024 + bits value.toNat 23 16 * 65536 + 2 ^ 31))
  { s with store := { s.store with diagBusy := true } }

/-- CS_DIAG_READ: a write to CIR_CS_ADDR (R98). -/
def execCsDiagRead (value : Word) (s : State) : Host.Outcome State Fault Refusal := .next (startDiag s value)

/-- CS_DIAG_READ_DONE: CIR_CS_DATA_0 to 4 hold the stored word, bad parity included (R98). -/
def execCsDiagReadDone (s : State) : Host.Outcome State Fault Refusal :=
  if s.store.diagBusy then
    let w := (storeWord s (regField s Reg.csAddr 16 8) (regField s Reg.csAddr 0 10)).toNat
    let s := (List.range 5).foldl (fun s k => regSet s (Reg.csData k) (BitVec.ofNat 32 (bits w (32 * k + 31) (32 * k)))) s
    let s := regPut s Reg.csAddr 31 1 0
    .next { s with store := { s.store with diagBusy := false } }
  else .next s

end Sys2Proof.Machine
end

