-- ==== Sys2Proof/Machine/Horizon.lean ====
section
/-! DEFINITION. Horizon (chapter 17): the calibration tables and their layout, CAL_SET, due items and attempts, staging and
the fence, and the NQ128-compatible region. -/

namespace Sys2Proof.Machine

/-! ### Tables (R378 to R380) -/

/-- Compatibility mode: the CAL_COMPAT strap (R462). -/
def compat (s : State) : Bool := s.straps.getLsbD 0

def aurRec (s : State) (n : Nat) : AurRec := tget AurRec.init s.horizon.aurs n

/-- The staged record of a channel, or the one in force (R378). -/
def stagedChan (s : State) (ch : Nat) : ChanRec := (tget none s.horizon.staged ch).getD (chanRec s ch)
def stagedAurora (s : State) (n : Nat) : AurRec := (tget none s.horizon.stagedAur n).getD (aurRec s n)

/-- Whether values wait for a fence. -/
def stagedPending (s : State) : Bool :=
  !s.horizon.staged.isEmpty || !s.horizon.stagedAur.isEmpty || s.horizon.stagedDiode.isSome

/-- Failed attempts of the item of a channel in progress. -/
def chanAttempts (s : State) (ch : Nat) : Nat :=
  ((s.horizon.due.filter (fun x => match x.item with
    | .deskew c => c.val = ch
    | .linearity c => c.val = ch
    | _ => false)).map Due.attempts).foldl max 0

/-- The status of a channel record (R379). -/
def chanStatus (s : State) (ch : Nat) (r : ChanRec) : Nat :=
  b2n r.valid + 2 * b2n (s.anvil.retiredCh.contains ch) + 4 * b2n (tget none s.horizon.staged ch).isSome + 8 * b2n r.restored

/-- A channel record as 576 bytes. -/
def chanBytes (s : State) (ch : Nat) (r : ChanRec) : Bytes :=
  le 2 ch ++ le 1 (chanStatus s ch r) ++ le 1 (chanAttempts s ch) ++ le 2 (unsigned 16 r.driveDie) ++
    le 2 (unsigned 16 r.compareDie) ++ le 2 (unsigned 16 r.driveBoard) ++ le 2 (unsigned 16 r.compareBoard) ++
    le 4 r.calCount ++ time12 r.calTime ++ le 2 r.spreadD ++ le 2 r.spreadC ++ le 16 0 ++
    (List.range 513).map (fun i => BitVec.ofNat 8 (unsigned 8 (tget 0 r.lin (512 + i)))) ++ le 15 0

/-- The status of an Aurora record (R380). -/
def aurStatus (s : State) (n : Nat) (r : AurRec) : Nat :=
  b2n r.valid + 2 * b2n (s.anvil.retiredAur.contains n) + 4 * b2n (tget none s.horizon.stagedAur n).isSome + 8 * b2n r.restored

/-- An Aurora record as 32 bytes. -/
def aurBytes (s : State) (n : Nat) (r : AurRec) : Bytes :=
  le 1 n ++ le 1 (aurStatus s n r) ++ le 2 (unsigned 16 r.gain) ++ le 2 (unsigned 16 r.offset) ++ le 2 0 ++
    le 4 r.calCount ++ time12 r.calTime ++ le 8 0

/-- The device record as 64 bytes (R380), with a given diode trim. -/
def deviceBytes (s : State) (trim : Int) : Bytes :=
  let h := s.horizon
  le 1 1 ++ le 1 (b2n (compat s) + 2 * b2n h.restoredAtBoot + 4 * b2n h.trimFailed + 8 * b2n (stagedPending s)) ++
    le 2 (unsigned 16 trim) ++ ((List.range 8).map (fun b => le 2 (unsigned 16 (tget 0 h.roTrim b)))).flatten ++
    le 4 h.fences ++ time12 h.fenceTime ++ le 4 h.retired ++ le 24 0

/-! ### The fence (R376, R377) -/

/-- The staged values come into force together. -/
def doFence (s : State) : State :=
  let h := s.horizon
  let nch := h.staged.length
  let na := h.stagedAur.length
  let h := { h with
    chans := h.staged.foldl (fun t e => tset ChanRec.init t e.1 (e.2.getD .init)) h.chans
    aurs := h.stagedAur.foldl (fun t e => tset AurRec.init t e.1 (e.2.getD .init)) h.aurs
    diodeTrim := h.stagedDiode.getD h.diodeTrim
    staged := [], stagedAur := [], stagedDiode := none
    fences := (h.fences + 1) % 2 ^ 32, fenceTime := s.zenith.time }
  raiseEvent { s with horizon := h } 0x0F10 (le 4 h.fences ++ le 2 nch ++ le 1 na ++ le 1 0)

/-- The fence follows once all domain slots are free; it is suspended while the device is not Running (R376, R403). -/
def tryFence (s : State) : State :=
  if stagedPending s ∧ allFree s ∧ s.anvil.state = .running ∧ s.boot.state = 1 then doFence s else s

/-- FENCE: the first cycle with all slots free (R376). -/
def execFence (s : State) : Host.Outcome State Fault Refusal := .next (tryFence s)

/-- Stage a channel record, an Aurora record. -/
def stageChan (s : State) (ch : Nat) (r : ChanRec) : State :=
  { s with horizon := { s.horizon with staged := tset none s.horizon.staged ch (some r) } }
def stageAurora (s : State) (n : Nat) (r : AurRec) : State :=
  { s with horizon := { s.horizon with stagedAur := tset none s.horizon.stagedAur n (some r) } }

/-! ### CAL_SET (R381, R382) -/

/-- A signed field of a payload lies in a range. -/
def inRange (b : Bytes) (off n : Nat) (lo hi : Int) : Check :=
  (off, decide (lo ≤ signed (8 * n) (fld b off n) ∧ signed (8 * n) (fld b off n) ≤ hi))

/-- The head of a CAL_SET (R381). -/
def calHead (b : Bytes) (op lo hi : Nat) : List Check :=
  [(0, fld b 0 1 = op), rsv b 1 1, (2, decide (lo ≤ fld b 2 2 ∧ fld b 2 2 ≤ hi)), rsv b 4 12]

/-- The ops of a CAL_SET other than `op`. -/
def otherOps (n op : Nat) : List Nat := ((List.range n).map (· + 1)).filter (· ≠ op)

/-- The checks of op 1. -/
def boardChecks (s : State) (b : Bytes) : List Check :=
  let at_ (i : Nat) : Nat := 16 + 8 * i
  calHead b 1 1 256 ++ (lenIs b (16 + 8 * fld b 2 2) :: (List.range (min (fld b 2 2) 256)).flatMap (fun i =>
    [(at_ i, decide (fld b (at_ i) 2 < 256 ∧ (i = 0 ∨ fld b (at_ i - 8) 2 < fld b (at_ i) 2)) &&
        !s.anvil.retiredCh.contains (fld b (at_ i) 2)),
      inRange b (at_ i + 2) 2 (-28672) 28671, inRange b (at_ i + 4) 2 (-28672) 28671, rsv b (at_ i + 6) 2]))

/-- Handle CAL_SET_BOARD_TERMS: op 1 stages board terms. -/
def doCalSetBoardTerms (f : Frame) (s : State) : State :=
  let b := f.payload
  let n := fld b 2 2
  let at_ (i : Nat) : Nat := 16 + 8 * i
  request s f false
    (boardChecks s b)
    (fun s =>
      let s := (List.range n).foldl (fun s i =>
        let ch := fld b (at_ i) 2
        stageChan s ch { stagedChan s ch with
          driveBoard := signed 16 (fld b (at_ i + 2) 2), compareBoard := signed 16 (fld b (at_ i + 4) 2) }) s
      tryFence (reply s f 0 0 []))

/-- CAL_SET_BOARD_TERMS: the frame arrives, and Nimbus handles it. -/
def execCalSetBoardTerms (f : Frame) (s : State) : Host.Outcome State Fault Refusal :=
  .next (onOp s f 0x07 (otherOps 6 1) (doCalSetBoardTerms f))

/-- The channels and the Aurora channels op 2 names. -/
def calChans (b : Bytes) : List Nat := (List.range 256).filter (fun ch => bit (fld b (16 + ch / 8) 1) (ch % 8))
def calAuroras (b : Bytes) : List Nat := (List.range 8).filter (bit (fld b 48 1))

/-- The checks of op 2. -/
def calibrateChecks (s : State) (b : Bytes) : List Check :=
  calHead b 2 0 0 ++ [lenIs b 56, (16, !(calChans b).any s.anvil.retiredCh.contains),
    (48, !(calAuroras b).any s.anvil.retiredAur.contains), (49, decide (fld b 49 1 < 16)), rsv b 50 6]

/-- Handle CAL_SET_CALIBRATE: op 2 makes the named items due with the first cause of R375. -/
def doCalSetCalibrate (f : Frame) (s : State) : State :=
  let b := f.payload
  let chans := calChans b
  let aurs := calAuroras b
  let items := fld b 49 1
  request s f false
    (calibrateChecks s b)
    (fun s =>
      let s := if bit items 0 then chans.foldl (fun s ch => makeDue s (.deskew (Fin.ofNat 256 ch)) 1) s else s
      let s := if bit items 1 then chans.foldl (fun s ch => makeDue s (.linearity (Fin.ofNat 256 ch)) 1) s else s
      let s := if bit items 2 then aurs.foldl (fun s n => makeDue s (.aurora (Fin.ofNat 8 n)) 1) s else s
      let s := if bit items 3 then makeDue s .diode 1 else s
      reply s f 0 0 [])

/-- CAL_SET_CALIBRATE: the frame arrives, and Nimbus handles it. -/
def execCalSetCalibrate (f : Frame) (s : State) : Host.Outcome State Fault Refusal :=
  .next (onOp s f 0x07 (otherOps 6 2) (doCalSetCalibrate f))

/-- The linearity table of the entries for r = 512 to 1,024 (R379). -/
def linTable (v : List Int) : Tbl Int := ((List.range' 512 513).zip v).filter (fun e => e.2 ≠ 0)

/-- The time of a record (R30). -/
def recTime (b : Bytes) (off : Nat) : ZTime := { s := fld b off 8, ns := fld b (off + 8) 4, frac := 0 }

/-- The checks of a channel record at `o` (R370, R379). -/
def chanChecks (s : State) (b : Bytes) (o : Nat) : List Check :=
  [(o, decide (fld b o 2 < 256) && !s.anvil.retiredCh.contains (fld b o 2)), (o + 2, decide (fld b (o + 2) 1 < 16)),
    (o + 3, decide (fld b (o + 3) 1 ≤ 3)), inRange b (o + 4) 2 (-4096) 4095, inRange b (o + 6) 2 (-4096) 4095,
    inRange b (o + 8) 2 (-28672) 28671, inRange b (o + 10) 2 (-28672) 28671, (o + 0x18, nsOk b (o + 0x18)),
    rsv b (o + 0x20) 16, rsv b (o + 0x231) 15]

/-- The channel record a payload holds at `o`, marked restored. -/
def readChan (b : Bytes) (o : Nat) : ChanRec :=
  { valid := bit (fld b (o + 2) 1) 0, restored := true
    driveDie := signed 16 (fld b (o + 4) 2), compareDie := signed 16 (fld b (o + 6) 2)
    driveBoard := signed 16 (fld b (o + 8) 2), compareBoard := signed 16 (fld b (o + 10) 2)
    calCount := fld b (o + 12) 4, calTime := recTime b (o + 16), spreadD := fld b (o + 0x1C) 2, spreadC := fld b (o + 0x1E) 2
    lin := linTable ((List.range 513).map (fun i => signed 8 (fld b (o + 0x30 + i) 1))) }

/-- The checks of op 3. -/
def chanLoadChecks (s : State) (b : Bytes) : List Check :=
  calHead b 3 1 113 ++ (lenIs b (16 + 576 * fld b 2 2) ::
    (List.range (min (fld b 2 2) 113)).flatMap (fun i => chanChecks s b (16 + 576 * i)))

/-- Handle CAL_SET_LOAD_CHANNEL_RECORDS: op 3 stages channel records. -/
def doCalSetLoadChannelRecords (f : Frame) (s : State) : State :=
  let b := f.payload
  let n := fld b 2 2
  request s f false
    (chanLoadChecks s b)
    (fun s =>
      let s := (List.range n).foldl (fun s i => stageChan s (fld b (16 + 576 * i) 2) (readChan b (16 + 576 * i))) s
      tryFence (reply s f 0 0 []))

/-- CAL_SET_LOAD_CHANNEL_RECORDS: the frame arrives, and Nimbus handles it. -/
def execCalSetLoadChannelRecords (f : Frame) (s : State) : Host.Outcome State Fault Refusal :=
  .next (onOp s f 0x07 (otherOps 6 3) (doCalSetLoadChannelRecords f))

/-- The checks of an Aurora record at `o` (R380). -/
def aurChecks (s : State) (b : Bytes) (o : Nat) : List Check :=
  [(o, decide (fld b o 1 < 8) && !s.anvil.retiredAur.contains (fld b o 1)), (o + 1, decide (fld b (o + 1) 1 < 16)),
    inRange b (o + 2) 2 (-3277) 3277, inRange b (o + 4) 2 (-256) 256, rsv b (o + 6) 2, (o + 0x14, nsOk b (o + 0x14)),
    rsv b (o + 0x18) 8]

/-- The Aurora record a payload holds at `o`, marked restored. -/
def readAurora (b : Bytes) (o : Nat) : AurRec :=
  { valid := bit (fld b (o + 1) 1) 0, restored := true, gain := signed 16 (fld b (o + 2) 2)
    offset := signed 16 (fld b (o + 4) 2), calCount := fld b (o + 8) 4, calTime := recTime b (o + 12) }

/-- The checks of op 4. -/
def aurLoadChecks (s : State) (b : Bytes) : List Check :=
  calHead b 4 1 8 ++ (lenIs b (16 + 32 * fld b 2 2) ::
    (List.range (min (fld b 2 2) 8)).flatMap (fun i => aurChecks s b (16 + 32 * i)))

/-- Handle CAL_SET_LOAD_AURORA_RECORDS: op 4 stages Aurora records. -/
def doCalSetLoadAuroraRecords (f : Frame) (s : State) : State :=
  let b := f.payload
  let n := fld b 2 2
  request s f false
    (aurLoadChecks s b)
    (fun s =>
      let s := (List.range n).foldl (fun s i => stageAurora s (fld b (16 + 32 * i) 1) (readAurora b (16 + 32 * i))) s
      tryFence (reply s f 0 0 []))

/-- CAL_SET_LOAD_AURORA_RECORDS: the frame arrives, and Nimbus handles it. -/
def execCalSetLoadAuroraRecords (f : Frame) (s : State) : Host.Outcome State Fault Refusal :=
  .next (onOp s f 0x07 (otherOps 6 4) (doCalSetLoadAuroraRecords f))

/-- A block of the NVM region (R383): entries of retired channels hold zeros. -/
def nvmBlock (s : State) (k : Nat) : Bytes :=
  let entry (ch : Nat) : Bytes :=
    let r := chanRec s ch
    if s.anvil.retiredCh.contains ch then le 8 0
    else le 2 (unsigned 16 r.driveDie) ++ le 2 (unsigned 16 r.compareDie) ++ le 2 (unsigned 16 r.driveBoard) ++
      le 2 (unsigned 16 r.compareBoard)
  let body := le 4 0x3832314E ++ le 2 3 ++ le 2 128 ++ le 2 (128 * k) ++ le 6 0 ++
    ((List.range 128).map (fun i => entry (128 * k + i))).flatten
  body ++ le 4 (crc32 body).toNat ++ List.replicate (2048 - 0x414) 0xFF

/-- The checks of op 5, which is refused while compatibility mode is off, and of op 6. -/
def saveChecks (s : State) (b : Bytes) : List Check := (0, compat s) :: calHead b 5 0 0 ++ [lenIs b 16]
def backgroundChecks (b : Bytes) : List Check :=
  calHead b 6 0 0 ++ [lenIs b 32, (16, decide (fld b 16 1 ≤ 1)), rsv b 17 1,
    (18, decide (8 ≤ fld b 18 2 ∧ fld b 18 2 ≤ 400)), (20, decide (60 ≤ fld b 20 4 ∧ fld b 20 4 ≤ 604800)), rsv b 24 8]

/-- Handle CAL_SET_SAVE: op 5 writes the deskew in force to the NVM region; refused while compatibility mode is off. -/
def doCalSetSave (f : Frame) (s : State) : State :=
  let b := f.payload
  request s f false
    (saveChecks s b)
    (fun s => reply { s with boot := { s.boot with nvm := nvmBlock s 0 ++ nvmBlock s 1, saved := true } } f 0 0 [])

/-- CAL_SET_SAVE: the frame arrives, and Nimbus handles it. -/
def execCalSetSave (f : Frame) (s : State) : Host.Outcome State Fault Refusal :=
  .next (onOp s f 0x07 (otherOps 6 5) (doCalSetSave f))

/-- Handle CAL_SET_CONFIGURE: op 6 sets the background settings at once. -/
def doCalSetConfigure (f : Frame) (s : State) : State :=
  let b := f.payload
  request s f false
    (backgroundChecks b)
    (fun s => reply { s with horizon := { s.horizon with
      bgEnable := fld b 16 1 = 1, bgDelta := fld b 18 2, bgInterval := fld b 20 4 } } f 0 0 [])

/-- CAL_SET_CONFIGURE: the frame arrives, and Nimbus handles it. -/
def execCalSetConfigure (f : Frame) (s : State) : Host.Outcome State Fault Refusal :=
  .next (onOp s f 0x07 (otherOps 6 6) (doCalSetConfigure f))

/-! ### Background calibration (R371 to R375) -/

/-- Whether an admitted domain holds a channel, claims an Aurora channel. -/
def chanHeld (s : State) (ch : Nat) : Bool := s.doms.any (fun d => d.2.phase ≠ .free && jobPin d.2.payload ch)
def auroraHeld (s : State) (n : Nat) : Bool := s.doms.any (fun d => d.2.phase ≠ .free && bit (jobAurs d.2.payload) n)

/-- Whether another deskew attempt runs in an octet (R369). -/
def octetBusy (s : State) (o : Nat) : Bool :=
  s.horizon.due.any (fun x => x.active && (match x.item with
    | .deskew c => c.val / 8 = o
    | _ => false))

/-- Whether the unit of an item is free for an attempt (R375). -/
def itemFree (s : State) : CalItem → Bool
  | .deskew ch => !octetBusy s (ch / 8) && (List.range 8).all (fun i => !chanHeld s (ch / 8 * 8 + i)) &&
      !s.anvil.retiredCh.contains ch.val
  | .linearity ch => !chanHeld s ch && !s.anvil.retiredCh.contains ch.val
  | .aurora n => !auroraHeld s n && !s.anvil.retiredAur.contains n.val
  | .diode => true

/-- Rank of an item within its cause: ascending channel order. -/
def itemRank : CalItem → Nat
  | .deskew ch => 2 * ch | .linearity ch => 2 * ch + 1 | .aurora n => 512 + n | .diode => 520

/-- The due item served next: the strongest cause, then the lowest channel (R375). -/
def nextDue (s : State) : Option Due :=
  (s.horizon.due.filter (fun x => !x.active && itemFree s x.item)).foldl (fun best x => match best with
    | none => some x
    | some y => if x.cause < y.cause ∨ (x.cause = y.cause ∧ itemRank x.item < itemRank y.item) then some x else best) none

/-- Replace the entry of a due item. -/
def putDue (s : State) (x : Due) : State :=
  { s with horizon := { s.horizon with due := s.horizon.due.map (fun y => if y.item = x.item then x else y) } }

/-- An item is no longer due. -/
def dropDue (s : State) (item : CalItem) : State :=
  { s with horizon := { s.horizon with due := s.horizon.due.filter (fun y => y.item ≠ item) } }

/-- The power unit an item is measured on: the bank of a channel, or the Aurora channel. -/
def itemUnit : CalItem → Option Nat
  | .deskew ch => some (ch / 32)
  | .linearity ch => some (ch / 32)
  | .aurora n => some (8 + n)
  | .diode => none

/-- The unit of an item is in use while Horizon calibrates on it, and wakes for it (R354). -/
def touchItem (s : State) (item : CalItem) : State :=
  match itemUnit item with
  | some u => useUnit (wakeUnit s u) u
  | none => s

/-- Whether the unit of an item is Active, so that a run can be measured on it (R351). -/
def itemAwake (s : State) (item : CalItem) : Bool :=
  match itemUnit item with
  | some u => (getUnit s u).state = .active
  | none => true

/-- Whether background calibration runs: it is enabled, and it is suspended while throttling is Enforced (R361) and while the device
is not Running (R403). -/
def calibrates (s : State) : Bool :=
  s.horizon.bgEnable && s.power.throttle ≠ .enforced && s.anvil.state = .running && s.boot.state = 1

/-- BACKGROUND_CALIBRATION_START: an attempt begins for the due item of the highest priority whose unit is free (R375). -/
def execBackgroundCalibrationStart (s : State) : Host.Outcome State Fault Refusal :=
  if calibrates s then
    match nextDue s with
    | some x => .next (touchItem (putDue s { x with active := true, runA := none }) x.item)
    | none => .next s
  else .next s

/-- The agreement limits and the ranges of the values of an item (R369, R370, R380). Diode values are in 1/64 °C. -/
def itemLimits : CalItem → List (Nat × Int × Int)
  | .deskew _ => List.replicate 2 (4, -4096, 4095)
  | .linearity _ => List.replicate 513 (4, -128, 127)
  | .aurora _ => [(32, -3277, 3277), (2, -256, 256)]
  | .diode => [(16, -32768, 32767)]

/-- Whether two runs agree on every value within its range (R370, R371). -/
def valuesAgree (limits : List (Nat × Int × Int)) (a b : List Int) : Bool :=
  (limits.zip (a.zip b)).all (fun e =>
    let l := e.1
    let x := e.2.1
    let y := e.2.2
    decide ((x - y).natAbs ≤ l.1 ∧ l.2.1 ≤ x ∧ x ≤ l.2.2 ∧ l.2.1 ≤ y ∧ y ≤ l.2.2))

/-- The run calibration that a linearity attempt includes (R373) comes with its first run: behind the 513 entries that run gives
the sums of the raw codes of its 64 shots of each set (R196). -/
def runSums (item : CalItem) (a : List Int) : Option (Nat × Nat) :=
  match item with
  | .linearity _ => if a.length = 515 then some ((a.getD 513 0).toNat, (a.getD 514 0).toNat) else none
  | _ => none

/-- The run calibration of a linearity attempt is written or rejected as that of any run (R196, R373). -/
def runCalibration (s : State) (item : CalItem) (a : List Int) : State :=
  match item, runSums item a with
  | .linearity ch, some n => judgeCal s ch n.1 n.2 64
  | _, _ => s

/-- Whether the first run of an attempt gave what the item asks: its values, and for linearity a run calibration that Virga
accepts (R373). -/
def firstRunOk (item : CalItem) (a : List Int) : Bool :=
  match item with
  | .linearity _ => (runSums item a).any (fun n => (calResult n.1 n.2 64).isSome)
  | _ => a.length = (itemLimits item).length

/-- Whether the two runs of an attempt agree (R371); a run with a value out of range, or whose run calibration is rejected,
disagrees (R370, R373). -/
def runsAgree (item : CalItem) (a b : List Int) : Bool :=
  firstRunOk item a && b.length = (itemLimits item).length && valuesAgree (itemLimits item) a b

/-- The accepted values: round((a + b) ÷ 2), halves away from zero (R371). -/
def acceptedValues (a b : List Int) : List Int := (a.zip b).map (fun p => roundDiv (p.1 + p.2) 2)

/-- Stage the accepted values of an item (R376, R379). -/
def stageItem (s : State) (item : CalItem) (a b : List Int) : State :=
  let v := acceptedValues a b
  match item with
  | .deskew ch =>
    let r := stagedChan s ch
    stageChan s ch { r with
      valid := true, restored := false, driveDie := v.getD 0 0, compareDie := v.getD 1 0
      spreadD := (a.getD 0 0 - b.getD 0 0).natAbs, spreadC := (a.getD 1 0 - b.getD 1 0).natAbs
      calCount := r.calCount + 1, calTime := s.zenith.time }
  | .linearity ch =>
    let r := stagedChan s ch
    stageChan s ch { r with
      valid := true, restored := false, calCount := r.calCount + 1, calTime := s.zenith.time
      lin := linTable v }
  | .aurora n =>
    let r := stagedAurora s n
    stageAurora s n { r with
      valid := true, restored := false, gain := v.getD 0 0, offset := v.getD 1 0
      calCount := r.calCount + 1, calTime := s.zenith.time }
  | .diode => { s with horizon := { s.horizon with stagedDiode := some (v.getD 0 0), trimFailed := false } }

/-- The bank estimate an item's temperature cause is judged by (R375). -/
def itemTemp (s : State) : CalItem → Int
  | .deskew ch => tget 0 s.power.bankT (ch / 32)
  | .linearity ch => tget 0 s.power.bankT (ch / 32)
  | _ => 0

/-- Note the acceptance of an item: its time and the bank estimate then. -/
def noteAccept (s : State) (item : CalItem) : State :=
  { s with horizon := { s.horizon with
    accepted := (item, s.now, itemTemp s item) :: s.horizon.accepted.filter (fun e => e.1 ≠ item) } }

/-- The third attempt of an item fails (R372). -/
def failItem (s : State) (item : CalItem) : State :=
  let s := dropDue s item
  match item with
  | .deskew ch =>
    let s := regBump { s with horizon := { s.horizon with retired := s.horizon.retired + 1 } } Reg.hznFail 24 8 1
    raiseEvent (retireChannel s ch) 0x0F01 (le 2 ch ++ le 1 0 ++ le 1 0)
  | .linearity ch =>
    let s := regBump { s with horizon := { s.horizon with retired := s.horizon.retired + 1 } } Reg.hznFail 24 8 1
    raiseEvent (retireChannel s ch) 0x0F01 (le 2 ch ++ le 1 1 ++ le 1 0)
  | .aurora n => raiseEvent (retireAurora (regBump s Reg.hznFail 24 8 1) n) 0x0F02 (le 1 n ++ le 3 0)
  | .diode =>
    tryFence (raiseEvent { s with horizon := { s.horizon with trimFailed := true, stagedDiode := some 0 } } 0x0F03 [])

/-- CALIBRATION_RUN_COMPLETE: a run of an attempt completes; after the second the attempt is accepted and staged, or fails
(R371, R372). None completes before its unit is Active (R351), nor while background calibration does not run (R361, R375). -/
def execCalibrationRunComplete (item : CalItem) (values : List Int) (s : State) : Host.Outcome State Fault Refusal :=
  match s.horizon.due.find? (fun x => x.item = item) with
  | none => .next s
  | some x =>
    if ¬ x.active ∨ ¬ itemAwake s item ∨ ¬ calibrates s then .next s
    else match x.runA with
      | none => .next (touchItem (putDue (runCalibration s item values) { x with runA := some values }) item)
      | some a =>
        let s := touchItem s item
        if runsAgree item a values then .next (tryFence (dropDue (noteAccept (stageItem s item a values) item) item))
        else
          let s := regBump s Reg.hznFail 0 16 1
          if 3 ≤ x.attempts + 1 then .next (failItem s item)
          else .next (putDue s { x with runA := none, attempts := x.attempts + 1 })

/-- BG_INTERVAL_EXPIRY: an item older than bg_interval_s becomes due with cause 4 (R375). -/
def execBgIntervalExpiry (item : CalItem) (s : State) : Host.Outcome State Fault Refusal :=
  match s.horizon.accepted.find? (fun e => e.1 = item) with
  | some e => if e.2.1 + s.horizon.bgInterval * 1000000000 < s.now then .next (makeDue s item 4) else .next s
  | none => .next s

/-- Items whose bank estimate has changed by bg_delta since their last acceptance become due with cause 3 (R375). -/
def dueByTemperature (s : State) : State :=
  s.horizon.accepted.foldl (fun s e =>
    if s.horizon.bgDelta ≤ (itemTemp s e.1 - e.2.2).natAbs then makeDue s e.1 3 else s) s

/-- An admission abandons the attempts that need its octets, channels or Aurora channels (R375). -/
def abandonFor (s : State) (p : Bytes) : State :=
  let meets : CalItem → Bool
    | .deskew ch => (List.range 8).any (fun i => jobPin p (ch / 8 * 8 + i))
    | .linearity ch => jobPin p ch
    | .aurora n => bit (jobAurs p) n
    | .diode => false
  let hit := (s.horizon.due.filter (fun x => x.active && meets x.item)).length
  let due := s.horizon.due.map (fun x => if x.active && meets x.item then { x with active := false, runA := none } else x)
  regBump { s with horizon := { s.horizon with due := due } } Reg.hznFail 16 8 hit

end Sys2Proof.Machine
end

