-- ==== Sys2Proof/Machine/Power.lean ====
section
/-! DEFINITION. Power, temperature and supply (chapter 16): the power units and their states, the POWER frame, the diode, the
ring oscillators, throttling, supply dips and telemetry. The warm reset and the supply reset stand in
Sys2Proof/Machine/Daybreak.lean. -/

namespace Sys2Proof.Machine

/-! ### Units (R350 to R354) -/

/-- The encoding of a unit's state (R367). -/
def uCode : UState → Nat
  | .off => 0 | .doze => 1 | .idle => 2 | .active => 3

/-- Whether an admitted domain holds a unit. -/
def unitHeld (s : State) (u : Nat) : Bool := s.doms.any (fun d => d.2.phase ≠ .free && (jobUnits d.2.payload).contains u)

/-- Whether Horizon calibrates on a unit. -/
def calibrating (s : State) (u : Nat) : Bool :=
  s.horizon.due.any (fun x => x.active && (match x.item with
    | .deskew c => c.val / 32 = u
    | .linearity c => c.val / 32 = u
    | .aurora n => 8 + n.val = u
    | .diode => false))

/-- Whether every unit but the core is in Doze or Off and none wakes. -/
def othersDown (s : State) : Bool := (List.range 21).all (fun u =>
  ((getUnit s u).state = .doze || (getUnit s u).state = .off) && (getUnit s u).wakes = none)

/-- Whether a unit is in use (R354). The use of a port is an instant, which its `since` keeps. -/
def inUse (s : State) (u : Nat) : Bool :=
  if u = 21 then !othersDown s else if 16 ≤ u then false else unitHeld s u || calibrating s u

/-- Whether a unit is retired. -/
def unitRetired (s : State) (u : Nat) : Bool :=
  if u < 8 then s.anvil.retiredBank.contains u else if u < 16 then s.anvil.retiredAur.contains (u - 8) else false

/-- A port goes to Off: its lanes die, and of the port only its sequence series and the time of its last frame stay (R351,
R429). -/
def portOff (s : State) (p : Port) : State :=
  let s := eachLane (loseFrame s p) p (fun _ => .init)
  let x := getPort s p
  setPort s p { PortSt.init with state := .off, since := s.now, lastUse := x.lastUse, seqOut := x.seqOut, seqIn := x.seqIn }

/-- A port enters deep link idle at once (R270, R357). -/
def portDoze (s : State) (p : Port) : State :=
  if (getPort s p).state = .off then s
  else
    quietPort s p

/-- Put the DRAM into self-refresh, in service or idle (R351). -/
def dramSleep (s : State) : State :=
  if s.dram.state = .service then regBump { s with dram := { s.dram with state := .selfRefresh } } Reg.drmSr 0 16 1 else s

/-- Whether a unit is a port that the board descriptor declares unused: it stays off (R257, R354). -/
def unusedUnit (s : State) (u : Nat) : Bool := decide (16 ≤ u ∧ u ≤ 19) && portUnused s (unitPort u)

/-- A bank that leaves Off receives its control store from the staged image (R93, R351). -/
def bankLoads (s : State) (u : Nat) : State :=
  if u < 8 ∧ (getUnit s u).state = .off then
    { s with store := { s.store with own := s.store.own.filter (fun e => e.1 / 32 ≠ u) } }
  else s

/-- A unit goes to a state at once (R354, R357, R363). A DRAM that requests wait for wakes again on their demand (R357). -/
def toState (s : State) (u : Nat) (st : UState) : State :=
  if unusedUnit s u then s
  else
    let s := if st = .doze ∨ st = .off then bankDown s u else s
    let s := if st = .off then losePower s u else bankLoads s u
    let s := setUnit s u { getUnit s u with state := st, since := s.now, wakes := none }
    let s := if u < 21 ∧ (st = .idle ∨ st = .active) then useCore s else s
    let s := if 16 ≤ u ∧ u ≤ 19 then
        match st with
        | .off => portOff s (unitPort u)
        | .doze => portDoze s (unitPort u)
        | _ => if (getPort s (unitPort u)).state = .off then bringUp s (unitPort u) false else startExit s (unitPort u)
      else if u = 20 ∧ st ≠ .active then dramSleep s else s
    let s := syncPlls s
    if u = 20 ∧ s.dram.waiting ≠ [] then wakeUnit s 20 else s

/-- Whether the PLL a unit's work needs is locked. -/
def unitClocked (s : State) (u : Nat) : Bool :=
  if u < 4 then (getPll s 1).state = .locked
  else if u < 8 then (getPll s 2).state = .locked
  else if u < 16 then (getPll s 3).state = .locked
  else if u = 20 then (getPll s 4).state = .locked
  else if u = 21 then (getPll s 0).state = .locked
  else true

/-- A unit's wake completes. A bank that wakes from Off has received its control store, and a DRAM that wakes is in service
again (R335, R351). -/
def unitWake (s : State) (u : Nat) : State :=
  if (getUnit s u).wakes.any (fun t => t ≤ s.now) ∧ unitClocked s u then
    if u = 20 ∧ s.dram.state = .selfRefresh then enterService s
    else
      let s := bankLoads s u
      setUnit s u { getUnit s u with state := .active, since := s.now, wakes := none }
  else s

/-- UNIT_IDLE_TIMEOUT: an Active unit out of use for idle_us goes to Idle (R354); the DRAM follows R334. -/
def execUnitIdleTimeout (u : Fin 22) (s : State) : Host.Outcome State Fault Refusal :=
  let x := getUnit s u
  if x.state = .active ∧ u.val ≠ 20 ∧ ¬ inUse s u ∧ x.since + us s.power.idleUs ≤ s.now then
    .next (setUnit s u { x with state := .idle })
  else .next s

/-- UNIT_DOZE_TIMEOUT: an Idle unit out of use for doze_ms goes to Doze unless a hold keeps it; the ports follow R355
(R354). -/
def execUnitDozeTimeout (u : Fin 22) (s : State) : Host.Outcome State Fault Refusal :=
  let x := getUnit s u
  let quiet : Bool := [Port.host, .east, .west, .pair].all (fun p => (getPort s p).lastUse + ms s.power.dozeMs ≤ s.now)
  if x.state = .idle ∧ x.hold = none ∧ x.wakes = none ∧ ¬ (16 ≤ u.val ∧ u.val ≤ 19) ∧ ¬ inUse s u ∧
      x.since + ms s.power.dozeMs ≤ s.now ∧ (u.val ≠ 21 ∨ quiet) ∧ (u.val ≠ 20 ∨ s.dram.state = .selfRefresh) then
    .next (syncPlls (setUnit (bankDown s u) u { x with state := .doze, since := s.now }))
  else .next s

/-- HOLD_EXPIRY: a unit's hold ends (R356). -/
def execHoldExpiry (u : Fin 22) (s : State) : Host.Outcome State Fault Refusal :=
  match (getUnit s u).hold with
  | some t => if t ≤ s.now then .next (setUnit s u { getUnit s u with hold := none }) else .next s
  | none => .next s

/-! ### The POWER frame (R356, R357) -/

/-- The units a mask names. -/
def namedUnits (b : Bytes) : List Nat := (List.range 22).filter (bit (fld b 4 4))

/-- The reserved bits of the unit mask, and the reserved bytes at the end of a POWER payload (R356). A field that another op
uses is no condition of an op (R357). -/
def powerRest (b : Bytes) : List Check := ([(4, decide (fld b 4 4 < 2 ^ 22)), rsv b 0x1C 4] : List Check)

/-- The state a sleep asks for. -/
def sleepState (n : Nat) : UState := if n = 0 then .off else if n = 1 then .doze else .idle

/-- Whether a unit allows the state a sleep asks for (R350). -/
def allows (s : State) (u n : Nat) : Bool :=
  n ≠ 0 || !(u = 16 || u = 20 || u = 21 || (8 ≤ u && u < 16 && (getAurora s (u - 8)).image.isSome))

/-- The checks of op 1: no unit held by a job, no state a unit does not allow, and the core only while
every other unit stands in Doze or Off, named or not (R350, R356, R357). -/
def sleepChecks (s : State) (b : Bytes) : List Check :=
  let us := namedUnits b
  [lenIs b 32, (0, fld b 0 1 = 1), (1, decide (fld b 1 1 ≤ 2) && us.all (fun u => allows s u (fld b 1 1))), rsv b 2 2,
    (4, decide (fld b 4 4 < 2 ^ 22) && us.all (fun u => !unitHeld s u) &&
      (!us.contains 21 || (List.range 21).all (fun u => (getUnit s u).state = .doze || (getUnit s u).state = .off)))] ++ powerRest b

/-- The checks of op 2. -/
def holdChecks (s : State) (b : Bytes) : List Check :=
  [lenIs b 32, (0, fld b 0 1 = 2), rsv b 1 1, rsv b 2 2,
    (4, decide (fld b 4 4 < 2 ^ 22) && (namedUnits b).all (fun u => !unitRetired s u)),
    (8, decide (fld b 8 4 ≤ 3600000)), rsv b 0x1C 4]

/-- The checks of op 3 (R332, R333). A DRAM that is frozen or trains cannot change, and the request is refused. -/
def pointChecks (s : State) (b : Bytes) : List Check :=
  let may : Bool := s.dram.state ≠ .frozen && s.dram.state ≠ .training
  [lenIs b 32, (0, fld b 0 1 = 3), (1, decide (fld b 1 1 ≤ 1) && may && (fld b 1 1 ≠ 1 || (noClaims s && !s.dram.bDisabled))),
    rsv b 2 2] ++ powerRest b

/-- The checks of op 4. -/
def resetChecks (b : Bytes) : List Check := [lenIs b 32, (0, fld b 0 1 = 4), rsv b 1 1, rsv b 2 2] ++ powerRest b

/-- The checks of op 5. -/
def timesChecks (b : Bytes) : List Check :=
  [lenIs b 32, (0, fld b 0 1 = 5), rsv b 1 1, rsv b 2 2, (4, decide (fld b 4 4 < 2 ^ 22)),
    (0xC, decide (1 ≤ fld b 0xC 4 ∧ fld b 0xC 4 ≤ 1000000)), (0x10, decide (1 ≤ fld b 0x10 4 ∧ fld b 0x10 4 ≤ 3600000)),
    (0x14, decide (fld b 0x14 2 ≤ 60000)), (0x16, decide (fld b 0x16 2 ≤ 10000)), (0x18, decide (fld b 0x18 2 ≤ 3600)),
    (0x1A, decide (100 ≤ fld b 0x1A 2 ∧ fld b 0x1A 2 ≤ 10000)), rsv b 0x1C 4]

/-- Handle POWER_SLEEP: each named unit goes at once to the state asked for, and its hold ends. -/
def doPowerSleep (f : Frame) (s : State) : State :=
  let b := f.payload
  request s f false (sleepChecks s b)
    (fun s =>
      let s := (namedUnits b).foldl (fun s u => toState (setUnit s u { getUnit s u with hold := none }) u (sleepState (fld b 1 1))) s
      reply s f 0 0 [])

/-- POWER_SLEEP: the frame arrives, and Nimbus handles it. -/
def execPowerSleep (f : Frame) (s : State) : Host.Outcome State Fault Refusal :=
  .next (onOp s f 0x0A (otherOps 5 1) (doPowerSleep f))

/-- A hold wakes a unit to Idle at once, or keeps it at Idle or above. One that wakes to Active goes on waking (R354). -/
def holdUnit (s : State) (u msHold : Nat) : State :=
  let s := setUnit s u { getUnit s u with hold := some (s.now + ms msHold) }
  let x := getUnit s u
  if (x.state = .doze ∨ x.state = .off) ∧ x.wakes = none then
    toState s u .idle
  else s

/-- Handle POWER_HOLD: each named unit is held at Idle or above for hold_ms; 0 ends the holds. -/
def doPowerHold (f : Frame) (s : State) : State :=
  let b := f.payload
  request s f false (holdChecks s b)
    (fun s =>
      let n := fld b 8 4
      let s := (namedUnits b).foldl (fun s u =>
        if n = 0 then setUnit s u { getUnit s u with hold := none } else holdUnit s u n) s
      reply s f 0 0 [])

/-- POWER_HOLD: the frame arrives, and Nimbus handles it. -/
def execPowerHold (f : Frame) (s : State) : Host.Outcome State Fault Refusal :=
  .next (onOp s f 0x0A (otherOps 5 2) (doPowerHold f))

/-- Handle POWER_DRAM_POINT: a change of operating point; the reply follows its completion (R332, R333). -/
def doPowerDramPoint (f : Frame) (s : State) : State :=
  let b := f.payload
  let toB : Bool := fld b 1 1 = 1
  request s f false (pointChecks s b)
    (fun s => if s.dram.change = [] ∧ s.dram.pointB = toB then reply s f 0 0 [] else askPoint (owe s f) toB (some f))

/-- POWER_DRAM_POINT: the frame arrives, and Nimbus handles it. -/
def execPowerDramPoint (f : Frame) (s : State) : Host.Outcome State Fault Refusal :=
  .next (onOp s f 0x0A (otherOps 5 3) (doPowerDramPoint f))

/-- Handle POWER_CONFIGURE: the power and telemetry times. -/
def doPowerConfigure (f : Frame) (s : State) : State :=
  let b := f.payload
  request s f false (timesChecks b)
    (fun s => reply { s with power := { s.power with
      idleUs := fld b 0xC 4, dozeMs := fld b 0x10 4, linkIdleMs := fld b 0x14 2, telemMs := fld b 0x16 2
      telemS := fld b 0x18 2, graceMs := fld b 0x1A 2 } } f 0 0 [])

/-- POWER_CONFIGURE: the frame arrives, and Nimbus handles it. -/
def execPowerConfigure (f : Frame) (s : State) : Host.Outcome State Fault Refusal :=
  .next (onOp s f 0x0A (otherOps 5 5) (doPowerConfigure f))

/-! ### Temperature (R358 to R363) -/

/-- The estimate of a bank. -/
def bankTemp (s : State) (b : Nat) : Int := tget 0 s.power.bankT b

/-- H, the largest of the latest diode reading and the latest estimates (R360). -/
def hotReading (s : State) : Int := (List.range 8).foldl (fun m b => max m (bankTemp s b)) s.power.diode

/-- The diode interval H selects from the present one (R360): 0 100 ms, 1 5 ms, 2 1 ms. -/
def diodeInterval (now : Nat) (h : Int) : Nat :=
  if 776 ≤ h then 2
  else if now = 2 ∧ 760 ≤ h then 2
  else if 720 ≤ h then 1
  else if 1 ≤ now ∧ 704 ≤ h then 1
  else 0

/-- The bank of the hottest estimate, or 0xFF where the diode is hottest (R366). -/
def hottest (s : State) : Nat :=
  let h := hotReading s
  if h ≤ s.power.diode then 0xFF else ((List.range 8).find? (fun b => bankTemp s b = h)).getD 0xFF

/-- The argument of events 0x0E01 and 0x0E02 (R366). -/
def heatArg (s : State) : Bytes :=
  le 2 (unsigned 16 s.power.hot) ++ le 2 (unsigned 16 s.power.diode) ++ le 1 (hottest s) ++ le 3 0

/-- A reading sets H and the diode interval and moves the throttle (R360, R361). -/
def afterReading (s : State) : State :=
  let h := hotReading s
  let s := { s with power := { s.power with hot := h, interval := diodeInterval s.power.interval h } }
  match s.power.throttle with
  | .normal =>
    if 800 ≤ h then
      let s := regBump { s with power := { s.power with throttle := .requested, entered := s.now } } Reg.pwrThrot 16 16 1
      raiseEvent s 0x0E01 (heatArg s)
    else s
  | _ =>
    if h < 776 then
      let s := { s with power := { s.power with throttle := .normal, entered := s.now, cap := 15, pE := 0, capSteps := 0 } }
      raiseEvent s 0x0E02 (heatArg s)
    else s

/-- Nightglow sends every unit to Doze (R363). -/
def allDoze (s : State) : State :=
  (List.range 22).foldl (fun s u => if (getUnit s u).state = .off then s else toState s u .doze) s

/-- Take a diode reading in units of 0.125 °C, or a conversion that did not finish (R358 to R361). A crossing of 115.0 °C and a
second invalid reading in succession are faults (R363). -/
def takeDiode (s : State) (value : Option Int) : State :=
  let valid (v : Int) : Bool := -400 ≤ v && v ≤ 1200
  match value.filter valid with
  | some v =>
    let cross : Bool := 920 ≤ v && !s.power.diodeHigh
    let s := afterReading { s with power := { s.power with diode := v, diodeOk := true, invalid := 0, diodeHigh := 920 ≤ v } }
    if cross then allDoze (latchFault s 0x0E04 0xFF) else s
  | none =>
    let n := s.power.invalid + 1
    let s := { s with power := { s.power with diodeOk := false, invalid := min n 2 } }
    if n = 2 then allDoze (latchFault s 0x0E05 0) else s

/-- DIODE_READING: a diode reading, at which a pending RECOVER is examined where it is valid (R358 to R363, R405). -/
def execDiodeReading (value : Option Int) (s : State) : Host.Outcome State Fault Refusal :=
  .next (examinePending (takeDiode s value))

/-- Whether all eight banks are in Doze or Off. -/
def banksDown (s : State) : Bool := (List.range 8).all (fun u => (getUnit s u).state = .doze || (getUnit s u).state = .off)

/-- The trims of the ring oscillators are taken against the latest diode reading (R359). -/
def trimRings (s : State) (raw : List Int) : State :=
  { s with horizon := { s.horizon with
    vacantTrim := s.now
    roTrim := (List.range 8).foldl (fun t b => tset 0 t b (s.power.diode - raw.getD b 0)) s.horizon.roTrim } }

/-- Take the eight raw readings of the ring oscillators as estimates (R359 to R361). A crossing of 118.0 °C is a trip (R363). -/
def takeRings (s : State) (raw : List Int) : State :=
  let temp (b : Nat) : Int := raw.getD b 0 + tget 0 s.horizon.roTrim b
  let crossed := (List.range 8).filter (fun b => 944 ≤ temp b ∧ tget false s.power.bankHigh b = false)
  let s := { s with power := { s.power with
    bankT := (List.range 8).foldl (fun t b => tset 0 t b (temp b)) s.power.bankT
    bankHigh := (List.range 8).foldl (fun t b => tset false t b (944 ≤ temp b)) s.power.bankHigh } }
  let s := dueByTemperature (afterReading s)
  if crossed = [] then s else allDoze (crossed.foldl (fun s b => latchFault s 0x0E04 b) s)

/-- RING_OSCILLATOR_READ: the eight raw readings; after 1 s in which every bank stayed in Doze or Off, the trims are taken
anew against the diode (R359). -/
def execRingOscillatorRead (raw : List Int) (s : State) : Host.Outcome State Fault Refusal :=
  if raw.length ≠ 8 then .next s
  else
    let s := if banksDown s ∧ s.horizon.vacantTrim + ms 1000 ≤ s.now ∧ s.power.diodeOk then trimRings s raw else s
    .next (takeRings s raw)

/-- The banks active: an admitted domain holds one of their pins or claims their Cumulus or Squall (R362). -/
def activeBanks (s : State) : List Nat :=
  (List.range 8).filter (fun b => s.doms.any (fun d => d.2.phase ≠ .free && (jobBanks d.2.payload).contains b))

/-- The sum of est_power_mw over the admitted domains. -/
def powerSum (s : State) : Nat := (s.doms.map (fun d => if d.2.phase = .free then 0 else jobPower d.2.payload)).sum

/-- THROTTLE_GRACE_EXPIRY: Enforced, with P_e and the bank cap fixed (R361, R362). -/
def execThrottleGraceExpiry (s : State) : Host.Outcome State Fault Refusal :=
  let p := s.power
  if p.throttle = .requested ∧ p.entered + ms p.graceMs ≤ s.now then
    let cap := (activeBanks s).length
    let pe := powerSum s
    let s := { s with power := { p with throttle := .enforced, entered := s.now, cap := cap, pE := pe, capSteps := 0 } }
    .next (raiseEvent s 0x0E03 (le 2 (unsigned 16 p.hot) ++ le 1 cap ++ le 1 0 ++ le 4 pe))
  else .next s

/-- BANK_CAP_DECREMENT: at each whole second in Enforced the cap falls by 1 while H is 100.0 °C or above (R362). -/
def execBankCapDecrement (s : State) : Host.Outcome State Fault Refusal :=
  let p := s.power
  if p.throttle = .enforced ∧ p.entered + ms 1000 * (p.capSteps + 1) ≤ s.now then
    .next { s with power := { p with capSteps := p.capSteps + 1, cap := if 800 ≤ p.hot then p.cap - 1 else p.cap } }
  else .next s

/-! ### Supply (R364, R365) -/

def getDip (s : State) : Rail → Option Dip
  | .core => s.power.dipCore
  | .tim => s.power.dipTim

def setDip (s : State) (r : Rail) (x : Option Dip) : State :=
  match r with
  | .core => { s with power := { s.power with dipCore := x } }
  | .tim => { s with power := { s.power with dipTim := x } }

def railCode : Rail → Nat
  | .core => 0 | .tim => 1

/-- Whether the latest sample of a rail lies below the warning level (R368): the first one of a dip does, the later ones of a dip
are open, and outside a dip none does. -/
def railLow (s : State) (r : Rail) : Bool :=
  match getDip s r with
  | some x => decide (s.now < x.since + 50) || Config.railDips (railCode r) s.now
  | none => false

/-- DIP_BEGIN: the first sample below the warning level. -/
def execDipBegin (r : Rail) (s : State) : Host.Outcome State Fault Refusal :=
  match getDip s r with
  | some _ => .next s
  | none => .next (setDip s r (some { since := s.now, stamp := s.zenith.time, faulted := false }))

/-- CAUTION on every job whose span from t_start to t_end overlaps the dip of `samples` samples (R364, R365). A job that ends and
whose pins have not all parked, or whose vectors are not all judged, still plays: its t_end is not yet known. -/
def cautionJobs (s : State) (x : Dip) (samples : Nat) : State :=
  let begun (d : Dom) : Bool := zUnits d.startAt ≤ zUnits x.stamp + 50 * samples * 4294967296
  let over_ (n : Nat) (d : Dom) : Bool := allParked s n && !judging d
  { s with doms := tmap Dom.init (fun n d =>
      if begun d ∧ (d.phase = .running ∨
          (d.phase = .ending ∧ d.startAt ≠ .zero ∧ (¬ over_ n d ∨ zUnits x.stamp ≤ zUnits d.endAt))) then
        { d with flags := d.flags ||| 1 } else d) s.doms }

/-- DIP_END: a dip of `samples` samples ends. Up to 400 samples it is a caution; from 401 it is the fault 0x0E11. -/
def execDipEnd (r : Rail) (samples : Nat) (s : State) : Host.Outcome State Fault Refusal :=
  match getDip s r with
  | none => .next s
  | some x =>
    let s := setDip s r none
    if x.faulted then .next s
    else if 401 ≤ samples then .next (latchFault s 0x0E11 (railCode r))
    else
      let s := cautionJobs s x samples
      let s := regBump { s with power := { s.power with cautions := min (s.power.cautions + 1) 0xFFFF } } Reg.pwrCaution 0 16 1
      let s := regPut s Reg.pwrSupply 16 9 (max (regField s Reg.pwrSupply 16 9) samples)
      .next (raiseEvent s 0x0E10 (le 1 (railCode r) ++ le 3 0 ++ le 4 (50 * samples) ++ time12 x.stamp))

/-- DIP_FAULT: a dip reaches sample 401, 20 µs after its first. -/
def execDipFault (r : Rail) (s : State) : Host.Outcome State Fault Refusal :=
  match getDip s r with
  | some x =>
    if x.faulted ∨ s.now < x.since + 50 * 400 then .next s
    else .next (latchFault (setDip s r (some { x with faulted := true })) 0x0E11 (railCode r))
  | none => .next s

/-! ### Telemetry (R367) -/

/-- The states of units `lo` to `hi − 1`, 2 bits each. -/
def unitBits (s : State) (lo n : Nat) : Nat := ((List.range n).map (fun i => uCode (getUnit s (lo + i)).state * 4 ^ i)).sum

/-- The code of the throttle state. -/
def throttleCode : Throttle → Nat
  | .normal => 0 | .requested => 1 | .enforced => 2

/-- The TELEMETRY payload. -/
def telemetryPayload (s : State) : Bytes :=
  let p := s.power
  le 1 1 ++ le 1 (throttleCode p.throttle) ++ le 1 (if p.throttle = .enforced then p.cap else 0xFF) ++
    le 1 (b2n p.diodeOk + 2 * b2n (p.throttle ≠ .normal) + 4 * b2n (p.dipCore.isSome || p.dipTim.isSome)) ++
    le 2 (unsigned 16 p.diode) ++ le 2 (unsigned 16 p.hot) ++
    ((List.range 8).map (fun b => le 2 (unsigned 16 (bankTemp s b)))).flatten ++ le 8 (unitBits s 0 22) ++
    le 4 (powerSum s) ++ le 4 p.pE ++ le 2 p.cautions ++ le 1 (s.doms.filter (fun d => d.2.phase ≠ .free)).length ++
    le 1 s.window.length ++ le 4 (p.telemCount + 1) ++ time12 s.zenith.time ++ le 4 0

/-- TELEMETRY: one frame every telem_ms, or every telem_sleep_s while port H is in deep link idle (R355, R367). -/
def execTelemetry (s : State) : Host.Outcome State Fault Refusal :=
  let p := s.power
  let gap := if (getPort s .host).state = .deepIdle then ms (1000 * p.telemS) else ms p.telemMs
  if s.boot.state = 1 ∧ ¬ s.anvil.stopped ∧ gap ≠ 0 ∧ p.telemAt + gap ≤ s.now then
    let s := commitFrame s 18 0x45 0 0 (telemetryPayload s)
    .next { s with power := { s.power with telemAt := s.now, telemCount := (p.telemCount + 1) % 2 ^ 32 } }
  else .next s

end Sys2Proof.Machine
end

