-- ==== Sys2Proof/Machine/Jobs.lean ====
section
/-! DEFINITION. Jobs (chapter 01): the checks of a JOB_SUBMIT, the admission window and the order of admission, claims, the
start of a job, cancels and the cancel memo, and the frames that complete a job. -/

namespace Sys2Proof.Machine

/-! ### Checks 1 to 13 (R21) -/

/-- Check 1: the payload form (R10, R170). -/
def formOk (p : Bytes) : Bool :=
  p.length = 416 && fld p 0 1 = 1 && fld p 1 1 < 4 && zeros p 6 2 && zeros p 0x1C 4 && zeros p 0x38 8 && zeros p 0x64 28 &&
    decide (1 ≤ jobPower p ∧ jobPower p ≤ 275000) && nsOk p 0x18 && (!jobTimed p || decide (jobStartNs p ≤ 999999999)) &&
    jobSeq p ≠ 0 && jobStreams p ≠ 0 && jobTiming p ≠ 0 && jobStopMode p ≠ 3 && decide (jobVlog p < 18) &&
    (jobStopMode p ≠ 0 || jobStopAt p = 1)

/-- Whether a tag is held by a job of the window or of a slot (R11). -/
def tagHeld (s : State) (t : Word) : Bool :=
  s.window.any (fun w => w.tag = t) || s.doms.any (fun d => d.2.phase ≠ .free && d.2.tag = t)

/-- A handle names an image of its kind, or is 0 exactly where nothing is claimed (R12). -/
def handleOk (s : State) (h kind : Nat) (claimed : Bool) : Bool := if claimed then (getImage s h).kind = kind else h = 0

/-- Every Virga entry lies within the job (R195). -/
def virgaOk (p b : Bytes) : Bool :=
  (virEntries b).all (fun e => fld e 0 2 < 256 && jobPin p (fld e 0 2) && (fld e 5 1 ≠ 5 || jobPin p (fld e 2 2)) &&
    (fld e 7 1 ≠ 1 || bit (jobSquBanks p) (fld e 0 2 / 32)))

/-- The pins, 0 to 31, that the section of a bank names (R210): recorded pins, care bits, fail masks, the measured pins, the
stamp conditions a state uses, and the enabled windows. -/
def sectionPins (b : Bytes) (k : Nat) : List Nat :=
  let f := sqlField b k
  let masks := sqlPins b k ++ (List.range 8).flatMap (fun i => (List.range 32).filter (bit (f (0x320 + 4 * i) 4)))
  let care := (List.range 8).flatMap (fun i => (List.range 32).filter (fun p => bits (f (0x2A0 + 16 * i) 8) (2 * p + 1) (2 * p) ≠ 0))
  let stamps := (List.range 64).filterMap (fun i =>
    let v := sqlState b k (i / 4) (2 * (i % 4)) 2
    if v % 16 = 4 then some (f (0x350 + 8 * bits v 6 4) 1) else none)
  let wins := (List.range 8).filterMap (fun i => if bit (f (0x3D0 + 16 * i + 2) 1) 7 then some (f (0x3D0 + 16 * i) 1) else none)
  masks ++ care ++ [f 0x15 1, f 0x16 1] ++ stamps ++ wins

/-- The claimed Squalls have sections that name pins of the job only (R210). -/
def squallOk (p b : Bytes) : Bool :=
  (List.range 8).all (fun k => !bit (jobSquBanks p) k || (sqlHas b k && (sectionPins b k).all (fun i => jobPin p (32 * k + i))))

/-- The claimed Aurora channels have sections, the claim is their sum, and their marks are claimed (R236). -/
def auroraOk (p b : Bytes) : Bool :=
  let chans := (List.range 8).filter (bit (jobAurs p))
  chans.all (fun n => aurHas b n && (List.range (aurSteps b n)).all (fun st => aurStep b n st 0x0A 1 &&& (255 - jobMarks p) = 0)) &&
    jobAurClaim p = (chans.map (aurStream b)).sum

/-- Check 3: handles and images (R12, R100, R146, R195, R210, R236). -/
def handlesOk (s : State) (p : Bytes) : Bool :=
  handleOk s (jobSeq p) 1 true && handleOk s (jobStreams p) 2 true && handleOk s (jobTiming p) 3 true &&
    handleOk s (jobCum p) 4 (jobCumBanks p ≠ 0) && handleOk s (jobAur p) 5 (jobAurs p ≠ 0) &&
    handleOk s (jobSqu p) 6 (jobSquBanks p ≠ 0) &&
    (jobPins p).all (fun ch => (strEntry (strImage s p) ch).isSome && (timChanIx (timImage s p) ch).isSome) &&
    (jobSqu p = 0 || (virgaOk p (getImage s (jobSqu p)).data && squallOk p (getImage s (jobSqu p)).data)) &&
    auroraOk p (getImage s (jobAur p)).data

/-- Check 4: sites numbered densely from 0, with at least one pin (R14). -/
def sitesOk (p : Bytes) : Bool := jobSites p ≠ 0 && (List.range (jobSites p)).all (fun k => !(sitePins p k).isEmpty)

/-- Check 5: the form of the Ledger range (R19). -/
def rangeOk (p : Bytes) : Bool :=
  decide (jobSiteBits p + jobItemBits p ≤ 16) && decide (jobSites p ≤ 2 ^ jobSiteBits p) && jobBase p % jobRange p = 0

/-- The pins of a bank whose streams are not empty (R104). -/
def streamPins (s : State) (p : Bytes) (b : Nat) : List Nat :=
  (jobPins p).filter (fun ch => ch / 32 = b ∧ strBytes (strImage s p) ch ≠ 0)

/-- Checks 9 to 12: the reason of a claim that can never fit; 0 where all can (R21, R105). -/
def budgetReason (s : State) (p : Bytes) : Nat :=
  let chans := ((List.range 8).filter (bit (jobAurs p))).length
  if (List.range 8).any (fun b => regField s (Reg.drmPlan b) 0 16 < jobVecClaim p b) then 0x10
  else if regField s Reg.drmPlanAux 0 16 < jobAurClaim p ∨ 32 * chans < jobAurClaim p then 0x11
  else if regField s Reg.drmPlanAux 16 16 < jobFailClaim p then 0x12
  else if (List.range 8).any (fun b => 128 < jobStoreClaim p b || (jobStoreClaim p b = 0 && !(streamPins s p b).isEmpty)) then 0x13
  else 0

/-- The first failing check of 1 to 13 as (status, reason, sites reported); none where all pass (R21, R30). -/
def rejects (s : State) (tag : Word) (p : Bytes) : Option (Nat × Nat × Nat) :=
  if ¬ formOk p then some (5, 1, 0)
  else if pairEnable s ∧ ¬ jobTimed p then some (5, 9, 0)
  else if tag = 0 ∨ tag = 0xFFFFFFFF#32 ∨ tagHeld s tag then some (5, 8, 0)
  else if ¬ handlesOk s p then some (5, 2, 0)
  else if ¬ sitesOk p then some (5, 6, 0)
  else if ¬ rangeOk p then some (5, 7, jobSites p)
  else if retiredReason s p ≠ 0 then some (5, retiredReason s p, jobSites p)
  else if budgetReason s p ≠ 0 then some (4, budgetReason s p, jobSites p)
  else if jobTimed p ∧ ¬ synced s then some (6, 0x20, jobSites p)
  else none

/-! ### Checks 14 to 18 and the order of admission (R21 to R23) -/

/-- Whether two jobs need one pin, Ledger context or exclusive unit (R20, R23). -/
def meets (p q : Bytes) : Bool :=
  (fld p 0x80 32 &&& fld q 0x80 32) ≠ 0 ||
    (decide (jobBase p < jobBase q + jobRange q) && decide (jobBase q < jobBase p + jobRange p)) ||
    (jobCumBanks p &&& jobCumBanks q) ≠ 0 || (jobSquBanks p &&& jobSquBanks q) ≠ 0 || (jobAurs p &&& jobAurs q) ≠ 0 ||
    (jobMarks p &&& jobMarks q) ≠ 0

/-- The payloads of the admitted jobs. -/
def heldJobs (s : State) : List Bytes := (s.doms.filter (fun d => d.2.phase ≠ .free)).map (fun d => d.2.payload)

/-- Check 16: the claimed quantities fit beside those of the admitted jobs (R20). -/
def claimsFit (s : State) (p : Bytes) : Bool :=
  let sum (f : Bytes → Nat) : Nat := ((p :: heldJobs s).map f).sum
  (List.range 8).all (fun b => decide (sum (fun q => jobVecClaim q b) ≤ regField s (Reg.drmPlan b) 0 16) &&
      decide (sum (fun q => jobStoreClaim q b) ≤ 128)) &&
    decide (sum jobAurClaim ≤ regField s Reg.drmPlanAux 0 16) && decide (sum jobFailClaim ≤ regField s Reg.drmPlanAux 16 16)

/-- Check 17: thermal enforcement permits the job (R22, R362). -/
def thermalOk (s : State) (p : Bytes) : Bool :=
  s.power.throttle ≠ .enforced ||
    (decide (powerSum s + jobPower p ≤ s.power.pE) &&
      (let more := (jobBanks p).filter (fun b => !(activeBanks s).contains b)
       more.isEmpty || decide ((activeBanks s).length + more.length ≤ s.power.cap)))

/-- The lowest free slot (R18). -/
def freeSlotOf (s : State) : Option Nat := (List.range 16).find? (fun d => (getDom s d).phase = .free)

/-- The first wait check of 14 to 17 that fails; 0 where all pass. -/
def waitReason (s : State) (p : Bytes) : Nat :=
  if (heldJobs s).any (meets p) then 1
  else if freeSlotOf s = none then 2
  else if ¬ claimsFit s p then 3
  else if ¬ thermalOk s p then 4
  else 0

/-- R23: whether a job may overtake the older jobs that still wait. -/
def mayOvertake (older : List Waiting) (p : Bytes) : Bool :=
  older.all (fun o => (o.reason = 1 || o.reason = 5) && !meets p o.payload)

/-- The grid point of a timed start as a time: the start time rounded up to a multiple of 10 ns (R312). -/
def startGrid (p : Bytes) : Nat := (jobStartS p * 1000000000 + ceilDiv (jobStartNs p) 10 * 10) * 4294967296

/-! ### Admission (R25, R104, R168, R175) -/

/-- S_p, the bytes of a pin's ring (R104). -/
def ringBytes (s : State) (p : Bytes) (ch : Nat) : Nat :=
  if strBytes (strImage s p) ch = 0 then 0
  else jobStoreClaim p (ch / 32) * 65536 / ((streamPins s p (ch / 32)).length * 256) * 256

/-- Smax: the largest time of an enabled S edge in any waveform of the image on the job's pins (R168). -/
def maxStrobe (tim p : Bytes) : Nat :=
  (jobPins p).foldl (fun m ch =>
    match timChanIx tim ch with
    | none => m
    | some c => (List.range (16 * timSets tim)).foldl (fun m i =>
        let o := 0x720 + 512 * timSets tim * c + 32 * i
        [EdgeName.s0, .s1].foldl (fun m e => if waveEn tim o e then max m (waveTime tim o e) else m) m) m) 0

/-- The compare return R of a job, in vectors (R168). -/
def compareReturn (s : State) (p : Bytes) : Nat :=
  let kmax := (jobPins p).foldl (fun m ch => max m (compareSkew s ch)) 0
  ceilDiv (327680 + maxStrobe (timImage s p) p + kmax.toNat) (jobPeriod s p)

/-- The slot record of a job admitted now. -/
def admitDom (s : State) (w : Waiting) : Dom :=
  let alone : Bool := pairEnable s && !portHasLive s .pair
  { Dom.init with
    phase := .admitted, tag := w.tag, payload := w.payload, sites := jobSites w.payload, throttled := w.throttled
    flags := if w.throttled then 16 else 0, waitUs := waitedUs s w, admitAt := s.zenith.time
    ret := compareReturn s w.payload, pair := { PairJob.init with alone := alone } }

/-- The contexts of a job's range are cleared but for scratch (R175). -/
def clearRange (s : State) (p : Bytes) : State :=
  (List.range (jobRange p)).foldl (fun s i =>
    setCtx s (jobBase p + i) { Ctx.init with scratch := (getCtx s (jobBase p + i)).scratch }) s

/-- The pins of a job: claimed and parked, with their rings (R104, R161). -/
def claimPins (s : State) (d : Nat) (p : Bytes) : State :=
  let set0 := fld (timImage s p) 0x10 1
  (jobPins p).foldl (fun s ch =>
    let s := setPin s ch { parkPin (getPin s ch) with dom := some d, tset := set0 }
    setRing s ch { PinRing.init with size := ringBytes s p ch }) s

/-- The exclusive units of a job (R20): Cumulus, Squall, Virga runs, Aurora channels and MARK_OUT outputs. -/
def claimUnits (s : State) (d : Nat) (p : Bytes) : State :=
  let s := (banksOf (jobCumBanks p)).foldl (fun s b => setCum s b { Cum.init with dom := some d }) s
  let plan := (getImage s (jobSqu p)).data
  let s := (banksOf (jobSquBanks p)).foldl (fun s b =>
    setSquall s b { Squall.init with dom := some d, freeSeg := sqlSegUnits plan b * 65536 }) s
  let s := (if jobSqu p = 0 then [] else virEntries plan).foldl (fun s e =>
    setVirga s (fld e 0 2) { Virga.init with active := true, dom := d, entry := e, from_ := if fld e 7 1 = 0 then some 0 else none }) s
  let s := (banksOf (jobAurs p)).foldl (fun s n =>
    let s := regSet s (Reg.aurStat n) 0
    let entry := aurEntry (getImage s (jobAur p)).data n
    let s := setAurora s n { Aurora.init with dom := some d, image := (getAurora s n).image, step := entry, pathStep := entry }
    setBucket s (aurKey n) { Bucket.init with at_ := s.now }) s
  (banksOf (jobMarks p)).foldl (fun s n => setMark s n .init) s

/-- Admit a job into a slot (R25): claims are recorded, the blocks it needs are woken, and the DRAM returns to point A for a
job with a claim (R332). A fence due in the same cycle goes first (R377). -/
def admitJob (s : State) (d : Nat) (w : Waiting) : State :=
  let s := abandonFor (tryFence s) w.payload
  let p := w.payload
  let s := setDom { s with window := s.window.filter (fun v => v.tag ≠ w.tag) } d (admitDom s w)
  let s := if (getDom s d).pair.alone then regBump s Reg.paiUnshadowed 0 16 1 else s
  let s := regSet (regSet s (Reg.cmpStop d) 0) (Reg.cmpStopVec d) 0
  let s := claimUnits (claimPins (clearRange s p) d p) d p
  let s := (List.range 8).foldl (fun s b => setBucket s (claimKey d b) { Bucket.init with at_ := s.now }) s
  let toB : Bool := (s.dram.change.getLast?.map Prod.fst).getD s.dram.pointB
  let s := if hasClaim p ∧ toB then askPoint s false none else s
  let wake := (jobUnits p).foldl (fun m u => max m (wakeNs s u)) (if hasClaim p ∧ toB then us 12 else 0)
  let s := (jobUnits p).foldl wakeUnit s
  setDom s d { getDom s d with readyAt := s.now + wake }

/-- Whether Nimbus admits jobs: not while CORE_PLL is lost (R347) or an SRAM test runs (R469). -/
def admits (s : State) : Bool := readsWork s && !s.suspended && !s.bist

/-- One waiting job is examined behind the older ones that still wait (R21, R23). -/
def examine (acc : State × List Waiting) (w : Waiting) : State × List Waiting :=
  let s := acc.1
  let r := waitReason s w.payload
  let keep (r : Nat) : State × List Waiting :=
    let w' := { w with reason := r, throttled := w.throttled || r = 4 }
    ({ s with window := s.window.map (fun v => if v.tag = w.tag then w' else v) }, acc.2 ++ [w'])
  if r ≠ 0 then keep r
  else if ¬ mayOvertake acc.2 w.payload then keep 5
  else if jobTimed w.payload ∧ startGrid w.payload < zUnits s.zenith.time + us 100 * 4294967296 then
    (refuseWaiting s w 6 0x21, acc.2)
  else match freeSlotOf s with
    | some d => (admitJob s d w, acc.2)
    | none => keep 2

/-- The waiting jobs are re-examined, oldest first (R23). -/
def admitPass (s : State) : State := if admits s then (s.window.foldl examine (s, [])).1 else s

/-- Nimbus takes a JOB_SUBMIT from queue 0: it tests the cancel memo (R37), then the checks (R21). -/
def takeSubmit (s : State) (f : Frame) : State :=
  let s := { s with done := s.done.filter (· ≠ f.tag) }
  if s.memo.any (fun m => m.1 = f.tag) then
    refuseJob { s with memo := s.memo.filter (fun m => m.1 ≠ f.tag) } f.tag 2 0x30 0 0 0
  else match rejects s f.tag f.payload with
    | some (status, reason, sites) => refuseJob s f.tag status reason 0 sites 0
    | none => admitPass { s with window := s.window ++
        [{ tag := f.tag, payload := f.payload, entered := s.now, reason := 0, throttled := false }] }

/-- Nimbus reads queue 0 until the window holds 16 jobs (R38). -/
def drainJobs : Nat → State → State
  | 0, s => s
  | fuel + 1, s =>
    match s.held0 with
    | [] => s
    | f :: r =>
      if s.window.length < 16 ∧ readsQueue s 0 then drainJobs fuel (takeSubmit (freeLines { s with held0 := r } f) f) else s

/-- A change that may let a job pass: the window is examined again, queue 0 is read on, and a LOAD that waited for an image
of a job that has left the window goes on (R13). -/
def reexamine (s : State) : State :=
  let s := admitPass s
  let s := drainJobs s.held0.length s
  drainLoads s.held1.length s

/-- Handle JOB_SUBMIT (R9, R21). -/
def doJobSubmit (f : Frame) (s : State) : State :=
  let s := drainJobs (s.held0.length + 1) { s with held0 := s.held0 ++ [f] }
  drainLoads s.held1.length s

/-- JOB_SUBMIT: the frame arrives, and Nimbus handles it. -/
def execJobSubmit (f : Frame) (s : State) : Host.Outcome State Fault Refusal :=
  .next (onFrame s f 0x01 (doJobSubmit f))

/-- JOB_ADMIT (R23). -/
def execJobAdmit (s : State) : Host.Outcome State Fault Refusal := .next (reexamine s)

/-- ADMISSION_WAIT_EXPIRY (R24). -/
def execAdmissionWaitExpiry (tag : Word) (s : State) : Host.Outcome State Fault Refusal :=
  match s.window.find? (fun w => w.tag = tag) with
  | some w =>
    if s.anvil.state = .running ∧ jobMaxWait w.payload ≠ 0 ∧ w.entered + us (jobMaxWait w.payload) ≤ s.now then
      .next (reexamine (refuseWaiting s w 4 0x14))
    else .next s
  | none => .next s

/-! ### Cancels (R35 to R37) -/

/-- Place a tag in the cancel memo (R37): a tag already there is renewed, and the 17th evicts the oldest. -/
def memoAdd (s : State) (t : Word) : State :=
  let rest := s.memo.filter (fun m => m.1 ≠ t)
  let s := if 16 ≤ rest.length then regBump s Reg.cancelMiss 0 16 1 else s
  { s with memo := (if 16 ≤ rest.length then rest.drop 1 else rest) ++ [(t, s.now)] }

/-- A cancel reaches the job of a slot (R35, R36). Before vector 0 it stops the engines, and a commit that a word of their lead
issued is dropped with the queued slots: the manual does not say what becomes of it (DESIGN CHOICE). A job whose engines have
all retired `HALT` in that lead has ended, and a cancel has no effect on it: of the two rows of R35 that name it, the manual
does not say which applies (DESIGN CHOICE). -/
def cancelSlot (s : State) (d : Nat) : State :=
  let x := getDom s d
  match x.phase with
  | .admitted =>
    if x.ended.isSome then s
    else
      let s := endUnplayed s d 2 0x31
      (List.range x.sites).foldl (fun s k => setSite s d k { getSite s d k with commits := [] }) s
  | .running => (activeSites s d).foldl (fun s k => setSite s d k { getSite s d k with cancelDue := some (clock x) }) s
  | _ => s

/-- Whether a cancel of a tag comes after the job's JOB_STATUS, so that it has no effect (R35): no submission of that tag is held
on queue 0. Of a tag used again whose JOB_SUBMIT is still on its way the manual does not say which row applies: a DESIGN
CHOICE. -/
def completed (s : State) (t : Word) : Bool := s.done.contains t && s.held0.all (fun f => f.tag ≠ t)

/-- A cancel of one tag, or of every job (R35). -/
def cancelTag (s : State) (t : Word) : State :=
  let all : Bool := t = 0xFFFFFFFF#32
  let hit (u : Word) : Bool := all || u = t
  let held := tagHeld s t
  let s := (s.window.filter (fun w => hit w.tag)).foldl (fun s w => refuseWaiting s w 2 0x30) s
  let s := (List.range 16).foldl (fun s d => if hit (getDom s d).tag then cancelSlot s d else s) s
  if all ∨ held ∨ completed s t then s else memoAdd s t

/-- Handle JOB_CANCEL (R35). A cancel that meets a device that is not Running finds every job discarded and does nothing. -/
def doJobCancel (f : Frame) (s : State) : State :=
  let s := freeLines s f
  if readsWork s then reexamine (cancelTag s (BitVec.ofNat 32 (fld f.payload 0 4))) else s

/-- JOB_CANCEL: the frame arrives, and Nimbus handles it. -/
def execJobCancel (f : Frame) (s : State) : Host.Outcome State Fault Refusal :=
  .next (onFrame s f 0x02 (doJobCancel f))

/-- CANCEL_MEMO_EXPIRY: entries expire after 10 ms (R37). -/
def execCancelMemoExpiry (s : State) : Host.Outcome State Fault Refusal :=
  let old := (s.memo.filter (fun m => m.2 + ms 10 ≤ s.now)).length
  .next (regBump { s with memo := s.memo.filter (fun m => ¬ m.2 + ms 10 ≤ s.now) } Reg.cancelMiss 0 16 old)

/-! ### The start of a job (R26, R27, R42) -/

/-- Whether the wake of a job is complete: its units are Active, the DRAM serves, its Aurora channels have passed their load
check, and its Virga runs of start 0 are calibrated (R26, R197, R253). -/
def awake (s : State) (d : Nat) : Bool :=
  let p := (getDom s d).payload
  decide ((getDom s d).readyAt ≤ s.now) && (jobUnits p).all (fun u => (getUnit s u).state = .active) && dramServing s &&
    (banksOf (jobAurs p)).all (fun n => (getAurora s n).enabled || (getAurora s n).cause ≠ 0) &&
    (virgaChannels s d).all (fun ch => (getVirga s ch).stamping || fld (getVirga s ch).entry 7 1 = 1)

/-- The microarchitecture of a flow as its engines start: IR and EC are open until the first dispatch (R84), scratch and
flags are clear (R85). -/
def startMicro (s : State) : Micro × State :=
  let a := drawFree s
  let b := drawFree a.2
  let c := drawFree b.2
  ({ Micro.init with ir := BitVec.ofNat 128 (a.1 + b.1 * 2 ^ 64), ec := c.1 % 65536, sc := List.replicate 8 0 }, c.2)

/-- The engines of a flow start at control-store address 0x000: NSA is the entry, and SA is open (R42, R84). -/
def startFlow (s : State) (d fi : Nat) : State :=
  let m := startMicro s
  let a := drawFree m.2
  let p := (getDom s d).payload
  setFlow a.2 d fi { Flow.init with sa := a.1 % 256, nsa := progEntry (seqImage s p), micro := m.1, tset := fld (timImage s p) 0x10 1 }

/-- The Cumulus of a job take its image: each generator holds its base (R124). -/
def startCums (s : State) (p : Bytes) : State :=
  (banksOf (jobCumBanks p)).foldl (fun s b =>
    let base := [0, 1, 2].map (fun g => fld (cumImage s p) (0x14 + 16 * g) 4)
    setCum s b { getCum s b with gen := base, shown := base, fed := 0 }) s

/-- The clock of a slot counts anew from the start of its engines, `c` ECLK after its admission: what its Squalls, Aurora
channels and MARK_OUT outputs hold by the old count follows. -/
def rebaseUnits (s : State) (d c : Nat) : State :=
  let t : Int := (c * 8192 : Nat)
  { s with
    squalls := tmap Squall.init (fun _ q => if q.dom = some d then { q with
      arrivals := q.arrivals.filterMap (fun a => match a with
        | .event n e => if c < e then some (.event n (e - c)) else none
        | a => some a) } else q) s.squalls
    auroras := tmap Aurora.init (fun _ a => if a.dom = some d then { a with
      ball := a.ball - t, due := a.due.map (fun r => (r.1, r.2 - t)), requests := a.requests.map (fun r => (r.1, r.2 - t)) } else a)
      s.auroras
    marks := tmap MarkOut.init (fun n m => if bit (jobMarks (getDom s d).payload) n then
      { pending := m.pending.map (· - t), rise := m.rise.map (· - t) } else m) s.marks }

/-- ENGINE_START: the engines of a domain begin 5 ECLK before vector 0, and its event latches are cleared, but for an event whose
latch sets at this start or later (R42, R58). A timed start begins with the NCLK period that holds its grid point. -/
def execEngineStart (d : Fin 16) (s : State) : Host.Outcome State Fault Refusal :=
  let x := getDom s d
  let due : Bool := !jobTimed x.payload || startGrid x.payload ≤ zUnits s.zenith.time + 2 * Config.nclkNs * 4294967296
  if x.phase = .admitted ∧ x.ended = none ∧ ¬ x.engines ∧ awake s d ∧ due then
    let s := setDom s d { x with
      engines := true, idle := 0, lead := 0, eclk := 0, tickAt := 0, tickOff := (x.idle - x.tickAt) * 8192 + x.tickOff }
    let s := (List.range x.sites).foldl (fun s k =>
      setSite s d k { Site.init with latches := keptLatches (getSite s d k) x.idle }) s
    let s := rebaseUnits s d x.idle
    .next (startCums ((flowList x).foldl (fun s fi => startFlow s d fi) s) x.payload)
  else .next s

/-- The stamp of vector 0: that of the REFCLK edge of a timed start, which lies the grid offset from its grid point, or the
Zenith time of its ECLK (R303, R311, R312). -/
def startStamp (s : State) (x : Dom) : ZTime :=
  let p := x.payload
  if jobTimed p then zTime ((startGrid p : Int) + s.zenith.grid * 65536).toNat else eclkTime s x (clock x)

/-- JOB_START: vector 0 starts, five ECLK after the engines (R26, R27, R42); also of a job that has ended in that lead and plays
what is queued. -/
def execJobStart (d : Fin 16) (s : State) : Host.Outcome State Fault Refusal :=
  let x := getDom s d
  let due : Bool := !jobTimed x.payload || startGrid x.payload < zUnits s.zenith.time + Config.nclkNs * 4294967296
  if x.phase = .admitted ∧ ¬ x.halted ∧ x.engines ∧ x.lead = 5 ∧ due then
    let t := startStamp s x
    .next (setDom s d { x with
      phase := if x.ended = none then .running else .ending, startAt := t, tickAt := clock x
      tickOff := (zUnits t - zUnits s.zenith.time) / 524288 })
  else .next s

/-- TIMED_START_RECHECK: 10 µs before a timed start the sync check is repeated (R27). -/
def execTimedStartRecheck (d : Fin 16) (s : State) : Host.Outcome State Fault Refusal :=
  let x := getDom s d
  if x.phase = .admitted ∧ x.ended = none ∧ jobTimed x.payload ∧
      startGrid x.payload ≤ zUnits s.zenith.time + us 10 * 4294967296 ∧ ¬ synced s then
    .next (endUnsynced s d 0x20)
  else .next s

/-! ### The end of a job (R28 to R32) -/

/-- The written contexts of a range, grouped in runs of consecutive contexts of at most 2,047 (R184, R295). -/
def contextRuns (s : State) (p : Bytes) : List (Nat × List Ctx) :=
  ((List.range (jobRange p)).foldl (fun (acc : List (Nat × List Ctx)) i =>
    let ix := jobBase p + i
    let c := getCtx s ix
    if ¬ c.status.getLsbD 0 then acc
    else match acc with
      | (a, l) :: r => if a + l.length = ix ∧ l.length < 2047 then (a, l ++ [c]) :: r else (ix, [c]) :: (a, l) :: r
      | [] => [(ix, [c])]) []).reverse

/-- A context as 32 bytes (R174). -/
def ctxBytes (c : Ctx) : Bytes :=
  le 1 c.status.toNat ++ le 1 c.commits ++ le 2 c.scratch.toNat ++ le 4 c.failCount ++ le 6 c.firstFail ++ le 6 c.lastFail ++
    le 4 c.signature.toNat ++ le 8 c.firstAddr

/-- Send the Virga records of a slot, at most 64 per frame (R204, R295). -/
def sendVirgas : Nat → State → Nat → List Nat → State
  | 0, s, _, _ => s
  | fuel + 1, s, d, chs =>
    if chs = [] then s
    else
      let out := chs.take 64
      let s := commitFrame s (19 + d) 0x42 0 (getDom s d).tag
        (resultHead 2 d 0xFF out.length 0 0 ++ (out.map (virgaRecord s)).flatten)
      sendVirgas fuel s d (chs.drop 64)

/-- Whether every vector of a slot's job has been judged and every commit performed, and its pins stand parked. A job that
writes no further record waits for no judgement (R91, R134). -/
def quiet (s : State) (d : Nat) : Bool :=
  let x := getDom s d
  allParked s d && (silent x || !judging x) && (List.range x.sites).all (fun k => (getSite s d k).commits.isEmpty)

/-- LEDGER_RESULT_SEND: the written contexts and the Virga records leave as RESULT frames (R184, R204); a shadow sends none
(R439). Where the readback meets a parity error, the job ends as after a machine check with source 0x0501 (R390). -/
def execLedgerResultSend (d : Fin 16) (parity : Bool) (s : State) : Host.Outcome State Fault Refusal :=
  let x := getDom s d
  if x.phase = .ending ∧ (x.ended.map Ending.reports).getD false ∧ quiet s d ∧ ¬ x.sent ∧ s.anvil.state = .running then
    if parity then .next (unitCheck s d 0x0501)
    else
      let s := if shadow s then s
        else
          let s := (contextRuns s x.payload).foldl (fun s r =>
            commitFrame s (19 + d) 0x42 0 x.tag (resultHead 1 d 0xFF r.2.length r.1 0 ++ (r.2.map ctxBytes).flatten)) s
          sendVirgas 4 s d (virgaChannels s d)
      .next (setDom s d { getDom s d with sent := true })
  else .next s

/-- Whether a rail dips and the job ended in the dip, so that its JOB_STATUS is held (R365). -/
def dipHolds (s : State) (x : Dom) : Bool :=
  [s.power.dipCore, s.power.dipTim].any (fun o => match o with
    | some y => zUnits y.stamp ≤ zUnits x.endAt
    | none => false)

/-- Whether the repairs that a job's end waits for are done: reloads (R93) and Cumulus rewrites (R141). -/
def repaired (s : State) (d : Nat) : Bool :=
  let p := (getDom s d).payload
  (jobPins p).all (fun ch => !s.store.reload.contains ch) && s.cums.all (fun c => c.2.dom ≠ some d || !c.2.parity)

/-- Whether the other frames of a job are committed (R29): results, fail records and captures. -/
def framesOut (s : State) (d : Nat) (e : Ending) : Bool :=
  let x := getDom s d
  (!(e.reports || e.logs) || x.records.isEmpty) && (!e.reports || (x.sent &&
    s.squalls.all (fun q => q.2.dom ≠ some d || (q.2.closed.isEmpty && q.2.record = none && q.2.seg = none))))

/-- A shadow at its job boundary becomes the owner (R445). -/
def tryTakeover (s : State) : State :=
  if s.takeover ∧ allFree s then
    let s := regBump { s with takeover := false, owner := true } Reg.paiCount 24 8 1
    raiseEvent s 0x1102 (le 4 0)
  else s

/-- After a slot is freed: the fence, a takeover, the LOADs held, and the waiting jobs. -/
def afterFree (s : State) : State :=
  let s := tryTakeover (tryFence s)
  reexamine (drainLoads s.held1.length s)

/-- Commit the JOB_STATUS of slot `d` (R29, R30) and free the slot. -/
def commitStatus (s : State) (d : Nat) (e : Ending) : State :=
  let x := getDom s d
  let status := finalStatus s d e
  let s := stopAuroras s d
  let s := commitFrame s 16 0x41 0 x.tag
    (statusPayload status e.reason x.flags.toNat d x.sites e.endVector e.starveCh (failingSites s d) x.waitUs x.admitAt
      x.startAt x.endAt)
  let s := noteDone s x.tag
  let s := if status = 2 ∨ status = 6 ∨ (status = 7 ∧ e.reason ≠ 0x11) then tellAbsent s x.tag status else s
  afterFree (freeSlot s d)

/-- JOB_STATUS_COMMIT: after the job's end and all of its other frames, JOB_STATUS is committed, which frees the slot and the
tag (R18, R29). A pair job that is compared first sends its final digest and waits for its comparison (R442). -/
def execJobStatusCommit (d : Fin 16) (s : State) : Host.Outcome State Fault Refusal :=
  let x := getDom s d
  match x.ended with
  | none => .next s
  | some e =>
    if x.phase = .ending ∧ quiet s d ∧ repaired s d ∧ framesOut s d e ∧ ¬ dipHolds s x ∧ s.anvil.state = .running then
      if e.reports ∧ x.startAt ≠ .zero ∧ compared s x ∧ ¬ x.pair.final then
        if x.pair.own.any (fun g => g.kind = 2) then .next s
        else .next (sendDigest s d 2 (windowOf (jobPeriod s x.payload) e.endVector))
      else .next (commitStatus s d e)
    else .next s

end Sys2Proof.Machine
end

