-- ==== Sys2Proof/Machine/Boot.lean ====
section
/-! DEFINITION. The twelve steps of a start (R420): the checks of the image, the descriptor and the capsules, what each step
does and records, boot-halt and ready. The commands that begin a start stand in Sys2Proof/Machine/Daybreak.lean. -/

namespace Sys2Proof.Machine

/-! ### The flash image (R415 to R417) -/

/-- Type, offset and length of directory entry `i`. -/
def dirType (h : Bytes) (i : Nat) : Nat := fld h (0x80 + 64 * i) 1
def dirOffset (h : Bytes) (i : Nat) : Nat := fld h (0x84 + 64 * i) 4
def dirLength (h : Bytes) (i : Nat) : Nat := fld h (0x88 + 64 * i) 4

/-- One directory entry in use: its reserved fields, its place, and the fixed lengths of R416. -/
def dirOk (h : Bytes) (i : Nat) : Bool :=
  decide (1 ≤ dirType h i ∧ dirType h i ≤ 4) && zeros h (0x81 + 64 * i) 3 && zeros h (0x8C + 64 * i) 4 &&
    decide (dirOffset h i % 64 = 0 ∧ 0x2E0 ≤ dirOffset h i ∧ dirOffset h i + dirLength h i ≤ fld h 0x10 4) &&
    (dirType h i ≠ 2 || dirLength h i = 20484) && (dirType h i ≠ 4 || dirLength h i = 512)

/-- Two entries agree: no type twice, no overlap. -/
def dirApart (h : Bytes) (i j : Nat) : Bool :=
  dirType h i ≠ dirType h j &&
    decide (dirOffset h i + dirLength h i ≤ dirOffset h j ∨ dirOffset h j + dirLength h j ≤ dirOffset h i)

/-- Whether a header has a section of a type. -/
def hasSection (h : Bytes) (ty : Nat) : Bool := (List.range (min (fld h 5 1) 8)).any (fun i => dirType h i = ty)

/-- The header checks of R417, with the ranges of R415. -/
def headerOk (h : Bytes) : Bool :=
  let n := fld h 5 1
  h.length = 736 && fld h 0 4 = 0x4B425944 && fld h 4 1 = 1 && decide (3 ≤ n ∧ n ≤ 8) && zeros h 6 2 &&
    fld h 8 4 = 0xB1 && fld h 0xC 4 ≠ 0 && fld h 0xC 4 ≠ 0xFFFFFFFF && decide (736 ≤ fld h 0x10 4 ∧ fld h 0x10 4 ≤ 14680064) &&
    zeros h 0x14 12 && (List.range n).all (dirOk h) && zeros h (0x80 + 64 * n) (64 * (8 - n)) &&
    (List.range n).all (fun i => (List.range i).all (dirApart h i)) && hasSection h 1 && hasSection h 2 && hasSection h 4

/-- The header of an image copy. -/
def imageHeader (c : Bytes) : Bytes := c.take 736

/-- The bytes of directory entry `i`'s section. -/
def sectionBytes (c : Bytes) (i : Nat) : Bytes := (c.drop (dirOffset (imageHeader c) i)).take (dirLength (imageHeader c) i)

/-- The directory entry of the section of a type. -/
def sectionIx (c : Bytes) (ty : Nat) : Option Nat :=
  (List.range (min (fld c 5 1) 8)).find? (fun i => dirType (imageHeader c) i = ty)

/-- The section of a type; empty without one. -/
def sectionOf (c : Bytes) (ty : Nat) : Bytes := ((sectionIx c ty).map (sectionBytes c)).getD []

/-- Whether the digest of directory entry `i` is that of its section (R415). -/
def digestOk (c : Bytes) (i : Nat) : Bool := fld c (0x90 + 64 * i) 48 = (Config.sha384 (sectionBytes c i)).toNat

/-- Whether a copy passes step 4 (R417): the header, the key hash, the signature over bytes 0x000 to 0x27F, and the digest of
every section. -/
def copyOk (c : Bytes) : Bool :=
  let h := imageHeader c
  headerOk h && Config.sha384 ((h.drop 0x20).take 96) = keyHash &&
    ecdsaP384 ((h.drop 0x20).take 96) (Config.sha384 (h.take 0x280)) ((h.drop 0x280).take 96) &&
    (List.range (fld h 5 1)).all (digestOk c)

/-! ### The board descriptor (R418, R419, R431) -/

/-- Whether a field lies in a range. -/
def within (b : Bytes) (off n lo hi : Nat) : Bool := decide (lo ≤ fld b off n ∧ fld b off n ≤ hi)

/-- The check of step 5. Queue sizes are judged at step 9. -/
def descriptorOk (b : Bytes) : Bool :=
  b.length = 512 && fld b 0 1 = 1 && zeros b 1 3 && within b 4 1 0 6 && within b 5 1 0 (fld b 4 1 + 4) && zeros b 6 2 &&
    (List.range 10).all (fun i => within b (8 + i) 1 0 2) && zeros b 0x12 2 &&
    (fld b 0x14 1 % 2 = 0 && decide (fld b 0x14 1 < 16)) && zeros b 0x15 3 &&
    (List.range 20).all (fun i => within b (0x18 + i) 1 0 19) && zeros b 0x2C 4 && zeros b 0x44 4 &&
    within b 0x48 4 1 1000000 && within b 0x4C 4 1 3600000 && within b 0x50 2 0 60000 && within b 0x52 2 0 10000 &&
    within b 0x54 2 0 3600 && within b 0x56 2 100 10000 && within b 0x58 1 0 3 && zeros b 0x59 1 && within b 0x5A 2 1 800 &&
    within b 0x5C 2 0 475 && zeros b 0x5E 2 && within b 0x60 1 0 1 && zeros b 0x61 1 && within b 0x62 2 8 400 &&
    within b 0x64 4 60 604800 && within b 0x68 4 0 1000000 && within b 0x6C 2 10 10080 && zeros b 0x6E 2 && zeros b 0x70 16 &&
    within b 0x100 1 0 31 && within b 0x101 1 1 32 && decide (fld b 0x100 1 < fld b 0x101 1) &&
    decide (fld b 0x102 1 < fld b 0x101 1) && decide (fld b 0x103 1 < fld b 0x101 1) && within b 0x104 1 0 1 && zeros b 0x105 3 &&
    within b 0x108 2 100 10000 && zeros b 0x10A 54 && zeros b 0x140 192

/-! ### Records and the boot log (R422, R424) -/

/-- Enter a step in the record. -/
def noteStep (s : State) (b : BootInput) (k attempts result fallback : Nat) (detail : Bytes) : State :=
  let r := s.boot.record
  let e : StepEntry := { attempts := min attempts 255, result := result, fallback := fallback, duration := b.durations.getD (k - 1) 0, detail := detail }
  { s with boot := { s.boot with step := k, record := { r with entries := tset StepEntry.init r.entries k e } } }

/-- Enter a step that passed, with fallback where a bit is set. -/
def passStep (s : State) (b : BootInput) (k attempts fallback : Nat) (detail : Bytes) : State :=
  noteStep s b k attempts (if fallback = 0 then 1 else 2) fallback detail

/-- The latest entry of the boot log. -/
def latestEntry (s : State) : Option LogEntry := s.boot.log.getLast?

/-- The latest entry, while its image is that of the copy that governs (R425). -/
def sameImage (s : State) : Option LogEntry := (latestEntry s).filter (fun e => e.imageId = s.boot.imageId)

/-- The slot of an entry in the flash, 0 to 16,127. -/
def logSlot (e : LogEntry) : Nat := (e.seq - 1) % 16128

/-- Append an entry: the sector it enters is erased first if it holds data. Where no training ended in this start, the bins logged
before stand while the image is the same (R425). -/
def appendLog (s : State) : State :=
  let t := s.boot
  let old := sameImage s
  let bins : Nat × Nat := if s.dram.state ≠ .training then
      (s.dram.binA, if s.dram.bDisabled then 0xFF else s.dram.binB)
    else match old with
      | some e => (e.binA, e.binB)
      | none => (fld t.desc 4 1, fld t.desc 5 1)
  let e : LogEntry :=
    { record := t.record, imageId := t.imageId, capDigest := t.capDigest, binA := bins.1, binB := bins.2, skip := if t.saved ∧ (tget StepEntry.init t.record.entries 11).result = 0 then 0 else t.skip
      oneS := t.oneS, linkFb := t.linkFb, seq := ((latestEntry s).map LogEntry.seq).getD 0 + 1 }
  let kept := if logSlot e % 256 = 0 then t.log.filter (fun x => logSlot x / 256 ≠ logSlot e / 256) else t.log
  { s with boot := { t with log := kept ++ [e], saved := false } }

/-- The fault sources Anvil has taken, to tell whether one was taken since. -/
def faultTally (a : Anvil) : Nat := a.faultSeq * 2 ^ 32 + a.mergeCount * 2 ^ 16 + a.overflowCount

/-- Whether a fault source was taken during the start. -/
def faultInStart (s : State) : Bool := faultTally s.anvil ≠ s.boot.faultsAt

/-- The flags of the RECOVERY_NOTICE that ends a start (R427). -/
def startFlags (s : State) : Nat := b2n (s.boot.record.kind ≠ 1) + 2 * b2n s.boot.outLost

/-- Close a merge window that no FAULT_NOTICE closes: the deferred frames follow. -/
def closeWindow (s : State) : State :=
  releaseDeferred { s with anvil := { s.anvil with window := false } }

/-- The start halts (R426): a fault source taken during it leaves as FAULT_NOTICE where a window stands open, RECOVERY_NOTICE
carries result 0x04, port H comes up where JET_PLL_0 and JET_PLL_1 lock, and the log takes an entry. After a level 2 or
3 recovery the device stays Faulted (R407). -/
def haltStart (s : State) (b : BootInput) (k : Nat) : State :=
  let t := s.boot
  let r := t.record
  let e := tget StepEntry.init r.entries k
  let entries := tset StepEntry.init r.entries k
    { e with attempts := max e.attempts 1, result := 4, duration := b.durations.getD (k - 1) 0 }
  let s := { s with boot := { t with
    step := k, state := 2, input := none, record := { r with state := 2, halt := k, entries := entries } } }
  let s := if s.anvil.window ∧ faultInStart s then faultNotice s
    else { s with anvil := { s.anvil with window := false } }
  let s := if t.level = 0 then s else { s with anvil := { s.anvil with state := .faulted } }
  let s := releaseDeferred (recoveryNotice s 4 t.level (startFlags s))
  let locks (n : Fin 10) : Bool := s.refPresent && decide (b.pllFails.count n < 2)
  let s := if locks 5 ∧ locks 6 then
      let s := [5, 6].foldl (fun s n => setPll s n { getPll s n with state := .locked, lost := false, pdRef := 0 }) s
      bringUp s .host s.boot.linkFb
    else s
  appendLog s

/-- Go on with a start that neither halted nor waits; a fault source taken meanwhile halts it. -/
def goOn (s : State) (b : BootInput) (k : State → State) : State :=
  if s.boot.state ≠ 0 ∨ s.boot.input.isSome then s
  else if faultInStart s then haltStart s b s.boot.step
  else k s

/-! ### Steps 1 to 5 -/

/-- Step 1: NCLK runs from REFCLK where it is present (R339). -/
def step1 (b : BootInput) (s : State) : State := passStep { s with nclkOsc := !s.refPresent } b 1 1 0 []

/-- Step 2: the fuses. -/
def step2 (b : BootInput) (s : State) : State :=
  if b.fusesOk then passStep { s with boot := { s.boot with lab := b.lab } } b 2 1 0 []
  else haltStart (noteStep s b 2 1 4 0 []) b 2

/-- Step 3: the flash probe, in 1S-1S-1S first where the latest entry says so. -/
def step3 (b : BootInput) (s : State) : State :=
  let first : Bool := ((latestEntry s).map LogEntry.oneS).getD false
  let s := { s with boot := { s.boot with oneS := !first && !b.probe8d } }
  if first then
    if b.probe1s then passStep s b 3 1 0 (le 1 1)
    else if b.probe8d then passStep s b 3 2 0 (le 1 0)
    else haltStart (noteStep { s with boot := { s.boot with oneS := true } } b 3 2 4 1 []) b 3
  else if b.probe8d then passStep s b 3 1 0 (le 1 0)
  else if b.probe1s then passStep s b 3 2 1 (le 1 1)
  else haltStart (noteStep s b 3 2 4 1 []) b 3

/-- The copy a start tries first: the one that passed at the latest start of the log. -/
def firstCopyB (s : State) : Bool := (latestEntry s).map (fun e => e.record.copy) = some 1

/-- A copy governs: the log's failed digest and restore skips hold while the image is the same (R425). -/
def govern (s : State) (b : BootInput) (useB : Bool) : State :=
  let c := if useB then b.copyB else b.copyA
  let s := { s with boot := { s.boot with
    copyB := useB, image := c, imageId := BitVec.ofNat 32 (fld c 0xC 4), record := { s.boot.record with copy := b2n useB } } }
  let old := sameImage s
  { s with boot := { s.boot with
    capDigest := (old.map LogEntry.capDigest).getD (le 8 0), skip := (old.map LogEntry.skip).getD 0 } }

/-- Step 4: image authentication (R417). -/
def step4 (b : BootInput) (s : State) : State :=
  let first := firstCopyB s
  let c (useB : Bool) : Bytes := if useB then b.copyB else b.copyA
  if copyOk (c first) then passStep (govern s b first) b 4 1 0 []
  else if copyOk (c (!first)) then passStep (govern s b (!first)) b 4 2 1 []
  else haltStart (noteStep { s with boot := { s.boot with imageId := 0, capDigest := le 8 0, skip := 0 } } b 4 2 4 1 []) b 4

/-- Step 5: the board descriptor. -/
def step5 (b : BootInput) (s : State) : State :=
  let d := sectionOf s.boot.image 4
  if descriptorOk d then passStep { s with boot := { s.boot with desc := d } } b 5 1 0 []
  else passStep { s with boot := { s.boot with desc := builtIn } } b 5 1 1 []

/-! ### Step 6: PLLs (R341, R344, R348) -/

/-- PLL `n` starts: a HALO_PLL that fails once retires its banks, any other is retried once. The descriptor's reference is
ignored for DDR_PLL (R341), and each failure counts (R349). -/
def startPll (b : BootInput) (s : State) (n : Nat) : State :=
  let fails := b.pllFails.count (Fin.ofNat 10 n)
  let x : Pll := { Pll.init with pdRef := if n = 4 then 0 else desc s (8 + n) 1, since := s.now, base := s.now + 2300 }
  if n = 1 ∨ n = 2 then
    if fails = 0 then lockedCount (setPll s n { x with state := .locked }) n
    else retireHalo (regBump (setPll s n { x with state := .failed, fails := 1 }) (Reg.clkPllStat n) 16 8 1) n
  else
    let s := regBump s (Reg.clkPllStat n) 16 8 (min fails 2)
    if fails < 2 then lockedCount (setPll s n { x with state := .locked }) n
    else setPll s n { x with state := .failed, fails := 2 }

/-- Step 6. It waits for REFCLK. -/
def step6 (b : BootInput) (s : State) : State :=
  if ¬ s.refPresent then { s with boot := { s.boot with step := 6, input := some b } }
  else
    let count (n : Nat) : Nat := b.pllFails.count (Fin.ofNat 10 n)
    let s := (List.range 10).foldl (startPll b) { s with nclkOsc := false }
    let halo : Bool := count 1 ≠ 0 || count 2 ≠ 0
    let others := [0, 3, 4, 5, 6, 7, 8, 9]
    let tries := if others.any (fun n => count n ≠ 0) then 2 else 1
    if others.any (fun n => 2 ≤ count n) then haltStart (noteStep s b 6 2 4 (b2n halo) []) b 6
    else passStep s b 6 tries (b2n halo) []

/-! ### Step 7: DRAM training (R336) -/

/-- The bins training begins at: those of the descriptor, or lower ones of the log while the image is the same. -/
def startBins (s : State) : Nat × Option Nat :=
  match sameImage s with
  | some e => (min (desc s 4 1) e.binA, if e.binB = 0xFF then none else some (min (desc s 5 1) e.binB))
  | none => (desc s 4 1, some (desc s 5 1))

/-- Event 0x0C05: a point trains at a lower bin than the descriptor asks. -/
def lowBin (s : State) (point asked got : Nat) : State :=
  if got < asked then raiseEvent s 0x0C05 (le 1 point ++ le 1 asked ++ le 1 got ++ le 1 0) else s

/-- Step 7. Point B never trains above point A (R315). -/
def step7 (b : BootInput) (s : State) : State :=
  let start := startBins s
  let logged : Bool := start ≠ (desc s 4 1, some (desc s 5 1))
  let s := { s with dram := { Dram.init with
    snapshot := s.dram.snapshot, snapHeld := s.dram.snapHeld, density := b.density, idleSince := s.now } }
  if start.1 < b.binsFailedA then
    haltStart (latchFault (noteStep s b 7 (start.1 + 1) 4 (b2n logged + 2) []) 0x0C06 0) b 7
  else
    let binA := start.1 - b.binsFailedA
    let startB := start.2.map (fun n => min n (binA + 4))
    let gotB : Option Nat := startB.bind (fun n => if n < b.binsFailedB then none else some (n - b.binsFailedB))
    let triesB := match startB with
      | none => 0
      | some n => min b.binsFailedB n + 1
    let failed : Bool := b.binsFailedA ≠ 0 || (startB.isSome && b.binsFailedB ≠ 0)
    let s := { s with dram := { s.dram with
      state := .service, binA := binA, binB := gotB.getD 0, bDisabled := gotB.isNone } }
    let s := lowBin s 0 (desc s 4 1) binA
    let s := match gotB with
      | some n => lowBin s 1 (desc s 5 1) n
      | none => s
    passStep s b 7 (b.binsFailedA + 1 + triesB) (b2n logged + 2 * b2n failed + 4 * b2n gotB.isNone)
      (le 1 binA ++ le 1 (gotB.getD 0xFF))

/-! ### Step 8: the control store (R81, R94 to R97) -/

/-- Whether the reserved function bits and codes of a microword are zero (R79 to R81). -/
def codesOk (w : Microword) : Bool :=
  let f := funcBits w
  bits f 117 66 = 0 && decide (bits f 12 10 ≤ 6 ∧ bits f 19 18 ≤ 2 ∧ bits f 22 20 ≤ 6 ∧ bits f 24 23 ≤ 2 ∧ bits f 26 25 ≤ 2 ∧
    bits f 29 27 ≤ 5 ∧ bits f 31 30 ≤ 2 ∧ bits f 33 32 ≤ 2 ∧ bits f 36 35 ≤ 2 ∧ bits f 47 46 ≤ 2 ∧ bits f 53 50 ≤ 11)

/-- The plaintext entry at offset `o` of a capsule's body (R94): its address, its word, and whether its reserved fields are
zero. -/
def capEntry (b : Bytes) (o : Nat) : Nat × Microword × Bool :=
  (fld b o 2 % 1024, BitVec.ofNat 160 (fld b (o + 2) 20), decide (fld b o 2 < 1024) && zeros b (o + 22) 2)

/-- The plaintext entries of a capsule's body. -/
def capEntries (b : Bytes) (n : Nat) : List (Nat × Microword × Bool) := (List.range n).map (fun i => capEntry b (24 * i))

/-- The entries of a capsule: addresses strictly ascending, reserved fields zero, odd parity, legal codes. -/
def entriesOk : List (Nat × Microword × Bool) → Nat → Bool
  | [], _ => true
  | (a, w, z) :: r, lo => decide (lo ≤ a ∧ a < 1024) && z && badGroups w = 0 && codesOk w && entriesOk r (a + 1)

/-- The entries of a capsule as its count gives them, and the parts that stand behind its head (R94). -/
def capCount (c : Bytes) : Nat := fld c 6 2
def capHead (c : Bytes) : Bytes := c.take 0x90
def capBody (c : Bytes) : Bytes := (c.drop 0x90).take (24 * capCount c)
def capTag (c : Bytes) : Bytes := (c.drop (0x90 + 24 * capCount c)).take 16
def capSignature (c : Bytes) : Bytes := (c.drop (0xA0 + 24 * capCount c)).take 96
def capKey (c : Bytes) : Bytes := (c.drop 0x30).take 96
def capSeq (c : Bytes) : Nat := fld c 0x14 4
def capSv (c : Bytes) : Nat := fld c 0x10 1

/-- The plaintext of a capsule's body, where its tag is right (R95). -/
def capPlain (c : Bytes) : Option Bytes := gcmOpen steppingKey ((c.drop 0x1C).take 12) (capHead c) (capBody c) (capTag c)

/-- The entries a capsule brings; none where it does not open. -/
def capWords (c : Bytes) : List (Nat × Microword × Bool) := match capPlain c with
  | some b => capEntries b (capCount c)
  | none => []

/-- The checks of one capsule (R95 to R97). -/
def capsuleOk (baseId : Word) (fuses : Nat) (c : Bytes) : Bool :=
  let n := capCount c
  fld c 0 4 = 0x50434943 && fld c 4 1 = 1 && zeros c 5 1 && decide (1 ≤ n ∧ n ≤ 1024) && fld c 8 4 = 0xB1 &&
    fld c 0xC 4 = baseId.toNat && zeros c 0x11 3 && fld c 0x18 4 = 24 * n && zeros c 0x28 8 && c.length = 256 + 24 * n &&
    Config.sha384 (capKey c) = keyHash && ecdsaP384 (capKey c) (Config.sha384 (capHead c ++ capBody c)) (capSignature c) &&
    decide (fuses ≤ capSv c ∧ capSv c ≤ 64) && (capPlain c).isSome && entriesOk (capWords c) 0

/-- The capsules of a capsule section from byte `o` on, each on an 8-byte boundary (R416). -/
def capsulesFrom : Nat → Bytes → Nat → List Bytes
  | 0, _, _ => []
  | n + 1, b, o =>
    let len := 256 + 24 * fld b (o + 6) 2
    (b.drop o).take len :: capsulesFrom n b (o + (len + 7) / 8 * 8)

/-- The capsules of a capsule section (R416). -/
def capsulesOf (b : Bytes) : List Bytes := capsulesFrom (min (fld b 0 4) 65) b 8

/-- Insert a capsule by ascending seq. -/
def insertSeq (c : Bytes) : List Bytes → List Bytes
  | [] => [c]
  | d :: r => if capSeq c ≤ capSeq d then c :: d :: r else d :: insertSeq c r

/-- The capsules in ascending seq. -/
def bySeq (l : List Bytes) : List Bytes := l.foldr insertSeq []

/-- Whether a capsule set passes: 1 to 64 capsules, no seq twice, every capsule right. -/
def setOk (baseId : Word) (fuses : Nat) (l : List Bytes) : Bool :=
  decide (1 ≤ l.length ∧ l.length ≤ 64) && decide ((l.map capSeq).Nodup) && l.all (capsuleOk baseId fuses)

/-- The base control store of a section of type 2 (R416). -/
def baseStore (b : Bytes) : Tbl Microword :=
  (List.range 1024).foldl (fun t a => tset 0 t a (BitVec.ofNat 160 (fld b (4 + 20 * a) 20))) []

/-- A base image with the entries of the capsules in their order. -/
def stageStore (base : Tbl Microword) (l : List Bytes) : Tbl Microword :=
  (bySeq l).foldl (fun t c => (capWords c).foldl (fun t e => tset 0 t e.1 e.2.1) t) base

/-- Step 8. A set whose digest the log names as failed is skipped without a check. -/
def step8 (b : BootInput) (s : State) : State :=
  let c := s.boot.image
  let base := sectionOf c 2
  let baseId := BitVec.ofNat 32 (fld base 0 4)
  let caps := capsulesOf (sectionOf c 3)
  let present : Bool := (sectionIx c 3).isSome
  let digest := ((sectionIx c 3).map (fun i => (c.drop (0x90 + 64 * i)).take 8)).getD (le 8 0)
  let skipped : Bool := present && s.boot.capDigest ≠ le 8 0 && s.boot.capDigest = digest
  let passed : Bool := present && !skipped && setOk baseId s.boot.fuses caps
  let used := if passed then caps else []
  let degraded : Bool := present && !passed
  let s := { s with
    store := { Store.init with image := stageStore (baseStore base) used, svMax := (used.map capSv).foldl max 0 }
    boot := { s.boot with capDigest := if degraded then digest else le 8 0 } }
  let bad := (b.badStores.map Fin.val).filter (fun ch => !s.anvil.retiredCh.contains ch)
  let s := regSet s Reg.ucodeStat (BitVec.ofNat 32 (min used.length 255 + 256 * b2n degraded + 512 * b2n bad.isEmpty))
  let s := regSet s Reg.ucodeBase baseId
  let s := bad.foldl (fun s ch => raiseEvent (retireChannel s ch) 0x0103 (le 2 ch ++ le 2 0)) s
  passStep s b 8 1 (b2n (degraded && !skipped) + 2 * b2n skipped + 4 * b2n (!bad.isEmpty))
    (le 1 used.length ++ (if present then digest.take 7 else le 7 0))

/-! ### Step 9: queues, plan and configuration (R279, R324, R368) -/

/-- The size a descriptor gives a queue, in KiB. -/
def queueKiB (d : Bytes) (q : Nat) : Nat := 4 * fld d (0x80 + 2 * q) 2

/-- Whether the queue sizes of a descriptor meet R279 and R419. -/
def queuesOk (d : Bytes) : Bool :=
  (List.range 64).all (fun q => match queueRange q with
    | some r => decide (r.2.1 ≤ queueKiB d q ∧ queueKiB d q ≤ r.2.2)
    | none => queueKiB d q = 0) &&
    decide (((List.range 64).filter (fun q => decide (1024 < queueKiB d q))).length ≤ 8) &&
    decide (((List.range 64).map (fun q => min (queueKiB d q) 1024)).sum ≤ 48 * 1024)

/-- The queues that have a DRAM part, in ascending order (R279). -/
def dramQueues (kib : Nat → Nat) : List Nat := (List.range 56).filter (fun q => decide (1024 < kib q))

/-- The size of a queue in KiB: queues 56 to 63 hold the DRAM parts, which go to them in ascending order of their queues
(R279). -/
def partKiB (kib : Nat → Nat) (q : Nat) : Nat :=
  if q < 56 then kib q
  else match (dramQueues kib)[q - 56]? with
    | some o => kib o - 1024
    | none => 0

/-- Give every queue a size: its packets stay. -/
def sizeQueues (s : State) (kib : Nat → Nat) : State :=
  (List.range 64).foldl (fun s q =>
    setQueue s q { getQueue s q with lines := 32 * partKiB kib q, dram := q < 56 && decide (1024 < kib q) }) s

/-- The settings the descriptor supplies (R305, R337, R356, R381). -/
def configure (s : State) : State :=
  let z := s.zenith
  let z := { z with interval := desc s 0x5A 2, asym := desc s 0x5C 2 }
  let z := if z.parent = desc s 0x58 1 then z else { z with parent := desc s 0x58 1, lastAccept := none, t1 := none, asked := false }
  let s := { s with
    zenith := z
    power := { s.power with
      idleUs := desc s 0x48 4, dozeMs := desc s 0x4C 4, linkIdleMs := desc s 0x50 2, telemMs := desc s 0x52 2
      telemS := desc s 0x54 2, graceMs := desc s 0x56 2 }
    horizon := { s.horizon with bgEnable := desc s 0x60 1 = 1, bgDelta := desc s 0x62 2, bgInterval := desc s 0x64 4 } }
  regPut (regPut s Reg.drmIdle 0 20 (desc s 0x68 4)) Reg.drmScrub 0 14 (desc s 0x6C 2)

/-- Step 9. -/
def step9 (b : BootInput) (s : State) : State :=
  let ok := queuesOk s.boot.desc
  let s := sizeQueues s (if ok then queueKiB s.boot.desc else queueDefault)
  passStep (configure (writePlan s)) b 9 1 (b2n (!ok)) []

/-! ### Step 10: links (R265) -/

/-- Port H comes up with the lanes of `mask` live, at the end of Fallback where these are not all, while its partner sends the
LIVE byte `partner` (R265, R267). -/
def hostUp (s : State) (mask partner : BitVec 8) : State :=
  let s := (portLanes .host).foldl (fun s j =>
    if mask.getLsbD j then setLane s j { getLane s j with live := true, cdr := true, signal := true, good := 2, bad := 0 } else s) s
  let s := setPort s .host { getPort s .host with
    fallbackUsed := (getPort s .host).fallbackUsed || mask ≠ 0xFF, partnerLive := partner }
  let s := portUp s .host
  let tx := chooseSet .host partner
  let rx := chooseSet .host (BitVec.ofNat 8 (liveByte s .host))
  setWidths s .host tx.1 tx.2 rx.1 rx.2

/-- Every port that is not unused begins its bring-up. -/
def bringUpPorts (s : State) : State :=
  [Port.host, .east, .west, .pair].foldl (fun s p =>
    if portUnused s p then s else bringUp s p s.boot.linkFb) s

/-- Step 10 as far as the wait for port H. -/
def step10 (b : BootInput) (s : State) : State :=
  let fb := s.boot.linkFb
  let s := { bringUpPorts s with boot := { s.boot with step := 10 } }
  match b.portHUp.filter (fun l => l.1 ≠ 0) with
  | some l =>
    let s := hostUp s l.1 l.2
    passStep { s with boot := { s.boot with linkFb := false } } b 10 1 (b2n fb) []
  | none => { s with boot := { s.boot with input := some b } }

/-- The wait for port H ends: 100 ms passed without it (R423), or it came up meanwhile. -/
def endStep10 (b : BootInput) (s : State) : State :=
  let fb := b2n s.boot.linkFb
  let s := { s with boot := { s.boot with input := none } }
  if (getPort s .host).state = .up then passStep { s with boot := { s.boot with linkFb := false } } b 10 1 fb []
  else noteStep { s with boot := { s.boot with linkFb := true } } b 10 1 3 (fb + 2) []

/-! ### Step 11: calibration (R374, R383, R384) -/

/-- The block `k` of the NVM region. -/
def nvmPart (s : State) (k : Nat) : Bytes := (s.boot.nvm.drop (2048 * k)).take 2048

/-- Why a block fails its restore: 1 header, 2 check, 3 a value out of range; 0 where it is right. -/
def blockFault (x : Bytes) (k : Nat) : Nat :=
  let v (i j : Nat) : Int := signed 16 (fld x (0x10 + 8 * i + 2 * j) 2)
  if ¬ (fld x 0 4 = 0x3832314E ∧ fld x 4 2 = 3 ∧ fld x 6 2 = 128 ∧ fld x 8 2 = 128 * k ∧ zeros x 0xA 6) then 1
  else if fld x 0x410 4 ≠ (crc32 (x.take 0x410)).toNat then 2
  else if (List.range 128).all (fun i =>
    decide (-4096 ≤ v i 0 ∧ v i 0 ≤ 4095 ∧ -4096 ≤ v i 1 ∧ v i 1 ≤ 4095 ∧ -28672 ≤ v i 2 ∧ v i 2 ≤ 28671 ∧
      -28672 ≤ v i 3 ∧ v i 3 ≤ 28671)) then 0
  else 3

/-- Restore the deskew of a block's usable channels. -/
def restoreBlock (s : State) (k : Nat) : State :=
  let x := nvmPart s k
  (List.range 128).foldl (fun s i =>
    let ch := 128 * k + i
    let v (j : Nat) : Int := signed 16 (fld x (0x10 + 8 * i + 2 * j) 2)
    if s.anvil.retiredCh.contains ch then s
    else stageChan s ch { stagedChan s ch with
      valid := true, restored := true, driveDie := v 0, compareDie := v 1, driveBoard := v 2, compareBoard := v 3 }) s

/-- The blocks of step 11 as (restored, failed, skipped) masks, with the events of the failures. -/
def restoreBlocks (s : State) : State × Nat × Nat × Nat :=
  [0, 1].foldl (fun (r : State × Nat × Nat × Nat) k =>
    let s := r.1
    if bit s.boot.skip k then (s, r.2.1, r.2.2.1, r.2.2.2 + 2 ^ k)
    else
      let c := blockFault (nvmPart s k) k
      if c = 0 then (restoreBlock s k, r.2.1 + 2 ^ k, r.2.2.1, r.2.2.2)
      else (raiseEvent s 0x0F04 (le 1 k ++ le 1 c ++ le 2 0), r.2.1, r.2.2.1 + 2 ^ k, r.2.2.2)) (s, 0, 0, 0)

/-- The attempts the measurements make of an item. -/
def runsOf (b : BootInput) (item : CalItem) : List (List Int × List Int) :=
  match b.runs.find? (fun e => e.1 = item) with
  | some e => e.2
  | none => match item with
    | .deskew _ => b.deskewRuns
    | .linearity _ => b.linRuns
    | .aurora _ => b.auroraRuns
    | .diode => b.diodeRuns

/-- Measure an item in at most `n` further attempts (R371, R372). An attempt that gives no runs disagrees. -/
def tryItem : Nat → List (List Int × List Int) → CalItem → State → State
  | 0, _, item, s => failItem s item
  | n + 1, l, item, s =>
    let x := l.head?.getD ([], [])
    let s := runCalibration s item x.1
    if runsAgree item x.1 x.2 then noteAccept (stageItem s item x.1 x.2) item
    else tryItem n l.tail item (regBump s Reg.hznFail 0 16 1)

/-- Whether the unit of an item is retired. -/
def itemRetired (s : State) : CalItem → Bool
  | .deskew ch => s.anvil.retiredCh.contains ch.val
  | .linearity ch => s.anvil.retiredCh.contains ch.val
  | .aurora n => s.anvil.retiredAur.contains n.val
  | .diode => false

/-- Measure an item of a unit that is not retired, in at most three attempts. -/
def measureItem (b : BootInput) (s : State) (item : CalItem) : State :=
  if itemRetired s item then s else tryItem 3 (runsOf b item) item s

/-- The items of step 11 (R374): deskew of the channels whose block is not restored, linearity, Aurora and the diode. -/
def bootItems (restored : Nat) : List CalItem :=
  ((List.finRange 256).filter (fun ch => !bit restored (ch.val / 128))).map .deskew ++ (List.finRange 256).map .linearity ++
    (List.finRange 8).map .aurora ++ [.diode]

/-- The diode reading and the ring-oscillator trims that follow the items (R359, R374). They are judged as any reading (R363), and
the items measured count from the estimates they give. Without a valid reading no trim and no estimate is taken. -/
def bootReadings (b : BootInput) (s : State) : State :=
  let s := takeDiode s b.diode
  if s.power.diodeOk then
    let acc := s.horizon.accepted
    let s := takeRings (trimRings { s with horizon := { s.horizon with accepted := [] } } b.ro) b.ro
    { s with horizon := { s.horizon with accepted := acc.map (fun e => (e.1, e.2.1, itemTemp s e.1)) } }
  else s

/-- Step 11. The results come into force at its end, which counts as a fence; a fault taken meanwhile ends the step before it. -/
def step11 (b : BootInput) (s : State) : State :=
  let s := { s with boot := { s.boot with step := 11 } }
  let r := if compat s then restoreBlocks s else (s, 0, 0, 0)
  let s := bootReadings b ((bootItems r.2.1).foldl (measureItem b) r.1)
  let skip := (if s.boot.saved then 0 else r.2.2.2) + r.2.2.1
  let s := { s with
    boot := { s.boot with skip := skip }
    horizon := { s.horizon with restoredAtBoot := r.2.1 ≠ 0, vacantTrim := s.now } }
  if faultInStart s then s
  else passStep (doFence { s with anvil := { s.anvil with usable := true } }) b 11 1
    (b2n (r.2.2.1 ≠ 0) + 2 * b2n (r.2.2.2 ≠ 0)) (le 1 r.2.1)

/-! ### Step 12: ready (R427) -/

/-- After a Nimbus fault: FAULT_NOTICE with the tags of the domain slots, unless one was sent before (R404). -/
def nimbusNotice (s : State) : State :=
  let a := s.anvil
  if a.window ∧ a.nimbus then
    let a := { a with window := false, discarded := a.tags.length }
    enqueue { s with anvil := a } 16 0x47 0 0 (faultPayload a a.tags)
  else s

/-- Every unit that is neither retired nor unused stands Active; the others are Off. -/
def wakeAll (s : State) : State :=
  (List.range 22).foldl (fun s u =>
    let off : Bool := unitRetired s u || (decide (16 ≤ u ∧ u ≤ 19) && portUnused s (unitPort u))
    setUnit s u { PowUnit.init with state := if off then .off else .active, since := s.now }) s

/-- Step 12. Deferred frames follow RECOVERY_NOTICE. -/
def step12 (b : BootInput) (s : State) : State :=
  let t := s.boot
  let s := passStep { s with boot := { t with fuses := max t.fuses s.store.svMax } } b 12 1 0 []
  let t := s.boot
  let s := { s with boot := { t with state := 1, record := { t.record with state := 1 } } }
  let s := nimbusNotice s
  let a := s.anvil
  let s := { s with
    dram := { s.dram with snapHeld := false }
    anvil := { a with
      state := .running, window := false, tags := [], watchdog := true
      recoveries := if t.level = 0 then a.recoveries else (a.recoveries + 1) % 65536 } }
  let s := releaseDeferred (recoveryNotice s 0 t.level (startFlags s))
  appendLog (startTwinkle (syncPlls (wakeAll s)))

/-! ### The order of the steps -/

def from11 (b : BootInput) (s : State) : State := goOn (step11 b s) b (step12 b)
def from10 (b : BootInput) (s : State) : State := goOn (step10 b s) b (from11 b)
def from9 (b : BootInput) (s : State) : State := goOn (step9 b s) b (from10 b)
def from8 (b : BootInput) (s : State) : State := goOn (step8 b s) b (from9 b)
def from7 (b : BootInput) (s : State) : State := goOn (step7 b s) b (from8 b)
def from6 (b : BootInput) (s : State) : State := goOn (step6 b s) b (from7 b)
def from5 (b : BootInput) (s : State) : State := goOn (step5 b s) b (from6 b)
def from4 (b : BootInput) (s : State) : State := goOn (step4 b s) b (from5 b)
def from3 (b : BootInput) (s : State) : State := goOn (step3 b s) b (from4 b)
def from2 (b : BootInput) (s : State) : State := goOn (step2 b s) b (from3 b)
def from1 (b : BootInput) (s : State) : State := goOn (step1 b s) b (from2 b)

end Sys2Proof.Machine
end

