-- ==== Sys2Proof/Machine/Daybreak.lean ====
section
/-! DEFINITION. Resets, starts and recoveries (chapters 18 and 19): what each keeps (R429), the commands that begin or resume
a start, and the end of a level 1 recovery. -/

namespace Sys2Proof.Machine

/-! ### What survives (R429) -/

/-- The bits of a stored register whose field is kept, or counts since power-on. -/
def keptMask (a : Nat) : Nat :=
  if a = Reg.mcInfo then 0xFFFF0000
  else if a = Reg.halSepCount then 0xFFFF
  else if a = Reg.hznFail then 0xFF000000
  else if (List.range 16).any (fun n => a = Reg.domEndPos n || a = Reg.strDry n) then 0xFFFF0000
  else 0

/-- Set the stored registers that `sel` selects to their reset values but for the kept fields. -/
def resetRegs (s : State) (sel : Nat → Bool) : State :=
  { s with regs := s.regs.filterMap (fun e =>
      if sel e.1 then
        let v := e.2 &&& BitVec.ofNat 32 (keptMask e.1)
        if v = 0 then none else some (e.1, v)
      else some e) }

/-- The state a power-on start begins with: the flash, the fuses, the sampled straps and the pins stay. DRAM components stay
marked until the training of step 7 (R337), and REFCLK is found present anew (R339). -/
def powerOnState (s : State) : State :=
  { State.reset with
    pending := s.pending, now := s.now, free := s.free, ownIn := s.ownIn, straps := s.straps
    dram := { Dram.init with marked := s.dram.marked }
    boot := { Boot.init with
      log := s.boot.log, nvm := s.boot.nvm, saved := s.boot.saved, fuses := s.boot.fuses, lab := s.boot.lab } }

/-- What a port keeps: its sequence series. -/
def keepPort (x : PortSt) : PortSt := { PortSt.init with seqOut := x.seqOut, seqIn := x.seqIn }

/-- The state a warm start or a level 2 or 3 recovery begins with. The descriptor and the image in force stay for the steps
that read them. -/
def warmState (s : State) : State :=
  let z := s.zenith
  let a := s.anvil.retiring.foldl withBank s.anvil
  resetRegs { State.reset with
    pending := s.pending, now := s.now, free := s.free, regs := s.regs
    ports := tmap PortSt.init (fun _ x => keepPort x) s.ports
    zenith := { z with jump := none, pendingSet := [], t1 := none, asked := false, stepped := false, launches := [] }
    dram := { Dram.init with marked := s.dram.marked, snapshot := s.dram.snapshot, snapHeld := s.dram.snapHeld }
    refPresent := s.refPresent, refAbsent := s.refAbsent, nclkOsc := s.nclkOsc
    power := { Power.init with
      dipCore := s.power.dipCore, dipTim := s.power.dipTim, cautions := s.power.cautions, telemCount := s.power.telemCount }
    horizon := { Horizon.init with fences := s.horizon.fences, fenceTime := s.horizon.fenceTime, retired := s.horizon.retired }
    anvil := { a with
      state := if a.state = .recovering then .faulted else a.state
      window := a.window && a.stopped, deferred := if a.stopped then a.deferred else [], stopped := false, retiring := []
      level := 0, pendingRec := none, drainUntil := 0, twinkle := false, twinkleOn := false, usable := false, watchdog := false }
    boot := { s.boot with input := none }
    launchId := s.launchId, ownIn := s.ownIn, straps := s.straps
    jtag := { s.jtag with scope := 0, result := 0 } } (fun _ => true)

/-- Whether a host queue holds lines that have not left. -/
def outboundLeft (s : State) : Bool := (List.range 27).any (fun i => !(getQueue s (16 + i)).packets.isEmpty)

/-- A start begins (R421, R422): the record becomes the previous one, and the queues are empty at their default sizes until
step 9. Level 2 keeps entries 1 to 5 and what step 4 and step 5 left. -/
def begin_ (s : State) (kind level : Nat) (lost : Bool) : State :=
  let t := s.boot
  let r := t.record
  let again : Bool := kind = 5
  let last := t.log.getLast?
  let record : StepRec :=
    { seq := (r.seq + 1) % 2 ^ 32, kind := kind, copy := if again then r.copy else 0xFF, state := 0, halt := 0, time := s.zenith.time
      entries := if again then r.entries.filter (fun e => e.1 ≤ 5) else [] }
  sizeQueues { s with boot := { t with
    step := if again then 6 else 1, state := 0, record := record, prev := r, level := level, outLost := lost
    warm := if 2 ≤ kind ∧ kind ≤ 4 then min (t.warm + 1) 0xFFFF else t.warm
    copyB := again && t.copyB, imageId := if again then t.imageId else 0
    capDigest := if again then t.capDigest else le 8 0, skip := if again then t.skip else 0
    oneS := (last.map LogEntry.oneS).getD false, linkFb := (last.map LogEntry.linkFb).getD false
    faultsAt := faultTally s.anvil } } queueDefault

/-- A power-on start (R421). The straps are sampled as PORST_N rises (R462). -/
def powerOn (s : State) (b : BootInput) : State :=
  from1 b (begin_ { powerOnState s with straps := b.straps, ownIn := b.ownIn } 1 0 false)

/-- A warm start, of kind 2, 3 or 4. -/
def warmStart (s : State) (kind : Nat) (b : BootInput) : State :=
  from1 b (begin_ { warmState s with ownIn := b.ownIn } kind 0 (outboundLeft s))

/-- Whether a start has begun since power-on. -/
def started (s : State) : Bool := decide (0 < s.boot.record.seq)

/-- POWER_ON_RESET. -/
def execPowerOnReset (boot : BootInput) (s : State) : Host.Outcome State Fault Refusal := .next (powerOn s boot)

/-- RESET_N: low for 1 µs; also during a start, a recovery or boot-halt (R428). -/
def execResetN (boot : BootInput) (s : State) : Host.Outcome State Fault Refusal :=
  if started s then .next (warmStart s 2 boot) else .next s

/-- Handle POWER_WARM_RESET: the reply is committed, and the warm start follows (R357), also in boot-halt (R426). -/
def doPowerWarmReset (f : Frame) (boot : BootInput) (s : State) : State :=
  let b := f.payload
  request s f true (resetChecks b)
    (fun s => warmStart (reply s f 0 0 []) 3 boot)

/-- POWER_WARM_RESET: the frame arrives, and Nimbus handles it, at once where it is right and a start runs (R428). -/
def execPowerWarmReset (f : Frame) (boot : BootInput) (s : State) : Host.Outcome State Fault Refusal :=
  let b := f.payload
  if b ≠ [] ∧ (otherOps 5 4).contains (fld b 0 1) then .next s
  else .next (arrive s f 0x0A (some boot) (decide (firstFault (resetChecks b) = none)) (doPowerWarmReset f boot))

/-- SUPPLY_RESET: a rail reaches its reset level: a power-on reset and its start (R365, R421). -/
def execSupplyReset (boot : BootInput) (s : State) : Host.Outcome State Fault Refusal := .next (powerOn s boot)

/-! ### Waits of a start -/

/-- REFCLK_PRESENT: REFCLK is present again after 4,096 edges, and NCLK returns to it (R339). Sync is regained by later
exchanges (R304). A start that waits for it at step 6 goes on. -/
def execRefclkPresent (s : State) : Host.Outcome State Fault Refusal :=
  let s := { s with refPresent := true, refAbsent := false, nclkOsc := false, zenith := { s.zenith with lastAccept := none } }
  match s.boot.input with
  | some b =>
    if s.boot.step = 6 then .next (goOn { s with boot := { s.boot with input := none } } b (from6 b)) else .next s
  | none => .next s

/-- REFCLK_WAIT_TIMEOUT: REFCLK absent 1 s into step 6 (R426). -/
def execRefclkWaitTimeout (s : State) : Host.Outcome State Fault Refusal :=
  match s.boot.input with
  | some b => if s.boot.step = 6 then .next (haltStart (noteStep s b 6 1 4 0 []) b 6) else .next s
  | none => .next s

/-! ### Faults and recoveries -/

/-- NIMBUS_DRAIN_END: the drain of at most 10 ms is over, and Anvil raises a warm reset (R404). -/
def execNimbusDrainEnd (boot : BootInput) (s : State) : Host.Outcome State Fault Refusal :=
  if s.anvil.stopped ∧ s.boot.state = 1 then
    .next (warmStart { s with anvil := { s.anvil with tagsIncomplete := true } } 4 boot)
  else .next s

/-- RECOVERY_DRAIN_END: the drain of R406 is over; what remains is discarded, and a level 2 or 3 restart begins. -/
def execRecoveryDrainEnd (boot : BootInput) (s : State) : Host.Outcome State Fault Refusal :=
  let a := s.anvil
  if a.state = .recovering ∧ a.level = 2 then
    let s' := warmState s
    .next (from6 boot (begin_ { s' with anvil := { s'.anvil with state := .recovering }, ownIn := boot.ownIn } 5 2 (outboundLeft s)))
  else if a.state = .recovering ∧ a.level = 3 then
    let s' := warmState s
    .next (from1 boot (begin_ { s' with anvil := { s'.anvil with state := .recovering }, ownIn := boot.ownIn } 6 3 (outboundLeft s)))
  else .next s

/-- Whether a register belongs to a block that a fault halts: Cirrus, Stratus, Cumulus, Halo, compare, Virga, Squall and
Aurora, but for what boot step 8 and a diagnostic read leave. -/
def haltedReg (a : Nat) : Bool :=
  [2, 3, 4, 5, 6, 0xA, 0xB, 0xC].contains (a / 65536) && a ≠ Reg.ucodeStat && a ≠ Reg.ucodeBase

/-- Every halted block is re-initialised (R406, R429). -/
def reinit (s : State) : State :=
  resetRegs { s with
    cums := [], squalls := [], virgas := [], rings := [], buckets := [], turns := [], marks := []
    auroras := tmap Aurora.init (fun _ a => { Aurora.init with image := a.image }) s.auroras
    pins := tmap Pin.init (fun _ p => { parkPin p with dom := none }) s.pins } haltedReg

/-- The PLLs that `fails` names and that have not locked 100 µs after their restart fail R344 in a level 1 recovery. A HALO_PLL
that fails retires its banks; another ends the recovery with its source counted (R395, R407), and the later ones are left as they
are. -/
def failPlls (s : State) (fails : List (Fin 10)) : State :=
  (List.range 10).foldl (fun s n =>
    let x := getPll s n
    if fails.contains (Fin.ofNat 10 n) ∧ x.state = .bypass ∧ x.since + us 100 ≤ s.now ∧ s.anvil.state = .recovering then
      let t := failPll s n
      if n = 1 ∨ n = 2 then failHalo t n else latchFault t (failSource n) n
    else s) s

/-- Whether every PLL that must run has locked, or has failed (R406). -/
def pllsSettled (s : State) : Bool :=
  (List.range 10).all (fun n => !pllNeeded s n || (getPll s n).state = .locked || (getPll s n).state = .failed)

/-- The device is Running again after a level 1 recovery (R406, R408). In boot-halt TWINKLE stays low (R426). -/
def endRecovery (s : State) : State :=
  let s := reinit s
  let a := s.anvil
  let s := { s with
    suspended := false
    dram := { s.dram with snapHeld := false }
    anvil := { a with state := .running, recoveries := (a.recoveries + 1) % 65536 } }
  let s := recoveryNotice s 0 1 0
  afterFree (if s.boot.state = 1 then startTwinkle s else s)

/-- RECOVERY_COMPLETE: a level 1 recovery ends, once every PLL that restarted has locked or failed (R406 to R408). -/
def execRecoveryComplete (pllFails : List (Fin 10)) (s : State) : Host.Outcome State Fault Refusal :=
  if s.anvil.state = .recovering ∧ s.anvil.level = 1 then
    let s := failPlls s pllFails
    .next (if s.anvil.state = .recovering ∧ pllsSettled s then endRecovery s else s)
  else .next s

end Sys2Proof.Machine
end

