-- ==== Sys2Proof/Machine/Ring.lean ====
section
/-! DEFINITION. Ring and pair operation (chapter 20): GLOBAL_EVENT, the digests of a pair, and the change of owner. -/

namespace Sys2Proof.Machine

/-! ### The ring (R434) -/

/-- Whether a GLOBAL_EVENT is accepted: `last` is the last id accepted from its origin, plus 1. -/
def acceptsEvent (own origin last id : Nat) : Bool :=
  origin ≠ own && (last = 0 || (let n := (id + 65536 - (last - 1)) % 65536
                                decide (1 ≤ n ∧ n ≤ 32767)))

/-- The opposite port of the ring and its outbound queue. -/
def opposite : Port → Port × Nat
  | .east => (.west, 49) | _ => (.east, 48)

/-- Forward a frame with hops left; a port without a live lane takes none (R435). -/
def forwardEvent (s : State) (f : Frame) : State :=
  let b := f.payload
  let o := opposite f.port
  if 1 < fld b 1 1 ∧ portHasLive s o.1 then
    commitFrame (regBump s Reg.ringFwd 0 32 1) o.2 0x81 f.flags f.tag (b.take 1 ++ le 1 (fld b 1 1 - 1) ++ b.drop 2)
  else s

/-- The port logic passes an event it received: accepted or counted stale, and forwarded. It goes on whatever Nimbus does (R434,
R435). -/
def passEvent (f : Frame) (s : State) : State :=
  let b := f.payload
  let origin := fld b 2 1
  let id := fld b 4 2
  let s := if acceptsEvent (deviceId s) origin (tget 0 s.originIds origin) id then
      setEvent { s with originIds := tset 0 s.originIds origin (id + 1) } (8 + fld b 0 1) 0
    else regBump s Reg.ringCount 16 16 1
  forwardEvent s f

/-- Handle GLOBAL_EVENT: its lines are freed once Nimbus takes it (R281, R287). -/
def doGlobalEvent (f : Frame) (s : State) : State := freeLines s f

/-- GLOBAL_EVENT: the frame arrives and waits for Nimbus, and the port logic passes the event (R434). -/
def execGlobalEvent (f : Frame) (s : State) : Host.Outcome State Fault Refusal :=
  let t := onFrame s f 0x81 (doGlobalEvent f)
  .next (if (getPort s f.port).state = .up ∧ discardReason s f = 0 ∧ f.ty = 0x81 then passEvent f t else t)

/-! ### The pair (R442 to R446) -/

/-- The slot that holds a tag. -/
def slotOf (s : State) (t : Word) : Option Nat :=
  (List.range 16).find? (fun d => (getDom s d).phase ≠ .free && (getDom s d).tag = t)

/-- A kind 3 frame: the partner holds no running copy (R443). An owner goes on without comparison; a shadow ends its copy. -/
def partnerAbsent (s : State) (d : Nat) : State :=
  if shadow s then unitCheck s d 0x1101
  else
    let x := getDom s d
    if x.pair.alone then s
    else regBump (setDom s d { x with pair := { x.pair with alone := true } }) Reg.paiUnshadowed 0 16 1

/-- The digest a PAIR_DIGEST carries (R441). -/
def readDigest (s : State) (b : Bytes) : Digest :=
  { at_ := s.now, kind := fld b 0 1, window := fld b 8 4, vectors := fld b 0x10 6,
    drive := BitVec.ofNat 32 (fld b 0x18 4), fail := BitVec.ofNat 32 (fld b 0x1C 4) }

/-- Handle PAIR_DIGEST: a partner's digest is compared, or tells that the partner's copy is absent or diverged (R442, R443). -/
def doPairDigest (f : Frame) (s : State) : State :=
  let s := freeLines s f
  let g := readDigest s f.payload
  match slotOf s (BitVec.ofNat 32 (fld f.payload 4 4)) with
  | none => s
  | some d =>
    let x := getDom s d
    if ¬ pairEnable s ∨ discarded x then s
    else if g.kind = 3 then partnerAbsent s d
    else if g.kind = 4 then diverge s d
    else settleDigests (setDom s d { x with pair := { x.pair with partner := x.pair.partner ++ [g] } }) d

/-- PAIR_DIGEST: the frame arrives, and Nimbus handles it. -/
def execPairDigest (f : Frame) (s : State) : Host.Outcome State Fault Refusal :=
  .next (onFrame s f 0x82 (doPairDigest f))

/-- DIGEST_TIMEOUT: the partner's digest has not arrived digest_timeout_us after the device's own was sent (R442). -/
def execDigestTimeout (d : Fin 16) (window : Nat) (s : State) : Host.Outcome State Fault Refusal :=
  let x := getDom s d
  if x.phase ≠ .free ∧ compared s x ∧
      x.pair.own.any (fun g => g.window = window && decide (g.at_ + us (digestTimeoutUs s) ≤ s.now)) then
    .next (diverge s d)
  else .next s

/-- Handle PAIR_TAKEOVER: information only (R444). -/
def doPairTakeover (f : Frame) (s : State) : State :=
  freeLines s f

/-- PAIR_TAKEOVER: the frame arrives, and Nimbus handles it. -/
def execPairTakeover (f : Frame) (s : State) : Host.Outcome State Fault Refusal :=
  .next (onFrame s f 0x83 (doPairTakeover f))

/-- PAIR_OWN_IN_LOW: PAIR_OWN_IN has been low for 1 µs. A shadow discards its copies without kind 4 and becomes the owner
at the job boundary (R445). -/
def execPairOwnInLow (s : State) : Host.Outcome State Fault Refusal :=
  let s := { s with ownIn := false }
  if shadow s ∧ ready s then
    let s := (List.range 16).foldl (fun s d => if (getDom s d).phase = .free then s else unitCheck s d 0x1101) s
    .next (tryTakeover { s with takeover := true })
  else .next s

/-- PAIR_OWN_CONFLICT: PAIR_OWN_IN and PAIR_OWN_OUT have both been high for 1 µs (R446). -/
def execPairOwnConflict (s : State) : Host.Outcome State Fault Refusal :=
  let s := { s with ownIn := true }
  if s.owner then .next (latchFault s 0x1103 0) else .next s

/-- OWNER_CLAIM: a device whose PAIR_ROLE is low and that has seen PAIR_OWN_IN low for 10 µs drives PAIR_OWN_OUT high
(R438). -/
def execOwnerClaim (s : State) : Host.Outcome State Fault Refusal :=
  if pairEnable s ∧ ready s ∧ ¬ s.straps.getLsbD 1 then .next { s with ownIn := false, owner := true } else .next s

end Sys2Proof.Machine
end

