-- ==== Sys2Proof/Machine/Registers.lean ====
section
/-! DEFINITION. The register tables: the value every register shows, what a read clears, what a write sets, REG_READ and
REG_WRITE (R294), and the words of the control ports (R459, R460). -/

namespace Sys2Proof.Machine

/-! ### Values -/

/-- The index of an address in an array of registers. -/
def index (a base stride count : Nat) : Option Nat :=
  if base ≤ a ∧ a < base + stride * count ∧ (a - base) % stride = 0 then some ((a - base) / stride) else none

/-- The first of two values that is there. -/
def firstOf (a b : Option Nat) : Option Nat := match a with
  | some v => some v
  | none => b

/-- The value of an array of registers at an address. -/
def arr (a base stride count : Nat) (f : Nat → Nat) (rest : Option Nat) : Option Nat := firstOf ((index a base stride count).map f) rest

/-- The value of one register at an address. -/
def one (a at_ v : Nat) (rest : Option Nat) : Option Nat := if a = at_ then some v else rest

/-- The stored value of a register as a number. -/
def stored (s : State) (a : Nat) : Nat := (regGet s a).toNat

/-- The code of a slot's state (R39). -/
def phaseCode : Phase → Nat
  | .free => 0 | .admitted => 1 | .running => 2 | .ending => 3

/-- Whether a slot holds a running job. -/
def runs (s : State) (d : Option Nat) : Bool := match d with
  | some d => (getDom s d).phase = .running
  | none => false

/-- Device-wide registers (R39, R447, R470). -/
def sysValue (s : State) (a : Nat) : Option Nat :=
  one a Reg.admitStat (min s.window.length 16 + 32 * b2n (decide (16 ≤ s.window.length)) +
      256 * ((s.window.head?.map Waiting.reason).getD 0)) <|
  one a Reg.cancelMiss (stored s a) <|
  arr a (Reg.domState 0) 8 16 (fun n => let x := getDom s n
    phaseCode x.phase + 4 * b2n (x.phase ≠ .free && jobFree x.payload) + 256 * x.sites) <|
  arr a (Reg.domTag 0) 8 16 (fun n => let x := getDom s n
    if x.phase = .free then 0 else x.tag.toNat) <|
  one a Reg.ringStat (if s.boot.desc = [] then 0x20 else
    deviceId s + 32 * ringSize s + 2048 * hopsE s + 65536 * hopsW s) <|
  one a Reg.ringCount (stored s a) <| one a Reg.ringFwd (stored s a) <|
  one a Reg.test (stored s a) <| one a Reg.testStat (stored s a) <| one a Reg.markStat (stored s a) <|
  arr a (Reg.pecWr 0) 4 32 (fun _ => 0) <|
  arr a (Reg.pecStat 0) 4 32 (fun n => stored s a + (getPec s n).queue.length) none

/-- Registers of Cirrus and Stratus (R75, R98, R121). -/
def cirValue (s : State) (a : Nat) : Option Nat :=
  arr a (Reg.domEnd 0) 4 32 (fun _ => stored s a) <|
  arr a Reg.ucodeStat 4 5 (fun _ => stored s a) <|
  arr a Reg.csAddr 4 6 (fun _ => stored s a) <|
  arr a (Reg.strDry 0) 4 16 (fun _ => stored s a) <|
  arr a (Reg.strBank 0) 4 8 (fun b =>
    let held := (List.range 16).filter (fun d => (getDom s d).phase = .running)
    stored s a + (held.map (fun d => jobStoreClaim (getDom s d).payload b)).sum +
      256 * (s.rings.filter (fun r => r.1 / 32 = b ∧ r.2.size ≠ 0)).length) <|
  arr a (Reg.strBorrow 0) 4 8 (fun _ => stored s a) none

/-- Registers of Cumulus and Halo (R142, R162). -/
def halValue (s : State) (a : Nat) : Option Nat :=
  arr a (Reg.cumStat 0) 0x20 8 (fun n => let c := getCum s n
    stored s a + c.dom.getD 0 + 16 * b2n (runs s c.dom) + 32 * b2n c.running + 64 * b2n c.barrier + 256 * c.shownPc) <|
  arr a (Reg.cumOps 0) 0x20 8 (fun _ => stored s a) <|
  arr a (Reg.cumFailRec 0) 0x20 8 (fun _ => stored s a) <|
  arr a (Reg.cumGen 0 0) 0x20 8 (fun n => (getCum s n).shown.getD 0 0) <|
  arr a (Reg.cumGen 0 1) 0x20 8 (fun n => (getCum s n).shown.getD 1 0) <|
  arr a (Reg.cumGen 0 2) 0x20 8 (fun n => (getCum s n).shown.getD 2 0) <|
  arr a (Reg.cumStat 0 + 0x18) 0x20 8 (fun _ => 0) <| arr a (Reg.cumStat 0 + 0x1C) 0x20 8 (fun _ => 0) <|
  arr a (Reg.halPerLo 0) 8 16 (fun n => let x := getDom s n
    if x.phase = .free then 0 else jobPeriod s x.payload % 2 ^ 32) <|
  arr a (Reg.halPerHi 0) 8 16 (fun n => let x := getDom s n
    if x.phase = .free then 0 else
      jobPeriod s x.payload / 2 ^ 32 + 256 * b2n (timFast (getImage s (jobTiming x.payload)).data) + 512) <|
  arr a Reg.halSepStat 4 4 (fun _ => stored s a) <|
  arr a (Reg.halTset 0) 4 256 (fun n => let p := getPin s n
    p.tset + 256 * b2n (runs s p.dom)) none

/-- Registers of compare and the Ledger (R186). -/
def cmpValue (s : State) (a : Nat) : Option Nat :=
  arr a (Reg.cmpRet 0) 4 16 (fun n => let x := getDom s n
    if x.phase = .free then 0 else x.ret % 65536 + 65536) <|
  arr a (Reg.cmpStop 0) 4 32 (fun _ => stored s a) <|
  one a Reg.cmpInvalid (stored s a) <| one a Reg.ledCommits (stored s a) <|
  arr a (Reg.ledScratch 0) 4 32768 (fun k => (getCtx s (2 * k)).scratch.toNat + 65536 * (getCtx s (2 * k + 1)).scratch.toNat) none

/-- Registers of Virga, Squall and Aurora (R206, R229, R256). -/
def sqlValue (s : State) (a : Nat) : Option Nat :=
  arr a (Reg.virCal 0) 4 256 (fun _ => stored s a) <| arr a (Reg.virLost 0) 4 256 (fun _ => stored s a) <|
  one a Reg.virStat (stored s a) <|
  arr a (Reg.sqlStat 0) 0x20 8 (fun n => let q := getSquall s n
    stored s a + q.dom.getD 0 + 16 * b2n (runs s q.dom) + 32 * b2n q.record.isSome + 64 * b2n q.seg.isSome +
      128 * b2n (q.halted || !q.armed) + 256 * q.state) <|
  arr a (Reg.sqlTrig 0) 0x20 8 (fun _ => stored s a) <| arr a (Reg.sqlMissed 0) 0x20 8 (fun _ => stored s a) <|
  arr a (Reg.sqlSegs 0) 0x20 8 (fun _ => stored s a) <| arr a (Reg.sqlFifo 0) 0x20 8 (fun _ => stored s a) <|
  arr a (Reg.sqlStat 0 + 0x14) 0x20 8 (fun _ => 0) <| arr a (Reg.sqlStat 0 + 0x18) 0x20 8 (fun _ => 0) <|
  arr a (Reg.sqlStat 0 + 0x1C) 0x20 8 (fun _ => 0) <|
  arr a (Reg.aurStat 0) 0x20 8 (fun n => let x := getAurora s n
    stored s a + x.dom.getD 0 + 16 * b2n (runs s x.dom) + 32 * b2n x.armed + 64 * b2n x.playing + 256 * (if x.started then x.step else 0) + 2 ^ 20 * x.cause) <|
  arr a (Reg.aurStopLo 0) 0x20 8 (fun n => (getAurora s n).stopAt % 2 ^ 32) <|
  arr a (Reg.aurStopHi 0) 0x20 8 (fun n => (getAurora s n).stopAt / 2 ^ 32 % 65536) <|
  arr a (Reg.aurReq 0) 0x20 8 (fun _ => stored s a) <|
  arr a (Reg.aurRing 0) 0x20 8 (fun n => min (lowFill s n) (2 ^ 17 - 1)) <|
  arr a (Reg.aurStat 0 + 0x14) 0x20 8 (fun _ => 0) <| arr a (Reg.aurStat 0 + 0x18) 0x20 8 (fun _ => 0) <|
  arr a (Reg.aurStat 0 + 0x1C) 0x20 8 (fun _ => 0) none

/-- The code of a port's state (R273). -/
def portCode : PortState → Nat
  | .off => 0 | .deepIdle => 1 | .mainPath => 2 | .fallback => 3 | .up => 4 | .exiting => 5

/-- The port of an index. -/
def portAt (n : Nat) : Port := unitPort (16 + n)

/-- The deskew delay applied to a lane: how much later than its own the latest live lane's marker arrives, at most 31 (R264,
R273). -/
def deskew (s : State) (lane : Nat) : Nat :=
  let p := lanePort lane
  let lanes := ((portLanes p).map (fun j => getLane s (portFirst p + j))).filter Lane.live
  if (getLane s lane).live then min ((lanes.foldl (fun m l => max m l.late) 0) - (getLane s lane).late) 31 else 0

/-- Registers of Jetstream (R273). -/
def jetValue (s : State) (a : Nat) : Option Nat :=
  arr a (Reg.jetPortStat 0) 0x10 4 (fun n => let p := portAt n
    let x := getPort s p
    portCode x.state + 8 * b2n x.reversed + 16 * b2n x.fallbackUsed + 32 * b2n (narrowed p x) + 256 * x.width +
      4096 * x.rxWidth + 65536 * liveByte s p + 2 ^ 24 * x.partnerLive.toNat) <|
  arr a (Reg.jetPortErr 0) 0x10 4 (fun _ => stored s a) <| arr a (Reg.jetPortRxf 0) 0x10 4 (fun _ => stored s a) <|
  arr a (Reg.jetPortTxf 0) 0x10 4 (fun _ => stored s a) <|
  arr a (Reg.jetLane 0) 4 20 (fun n => let l := getLane s n
    stored s a + 4096 * b2n l.live + 8192 * b2n l.inverted + 16384 * b2n l.cdr + 32768 * b2n l.signal + 65536 * deskew s n) none

/-- The lines a queue holds: its packets, and the frames that wait at its head. -/
def heldLines (s : State) (q : Nat) : Nat :=
  usedLines (getQueue s q) + ((waitingFrames s q).map (fun f => frameLines f.length)).sum

/-- Registers of Drift (R300). -/
def dftValue (s : State) (a : Nat) : Option Nat :=
  arr a (Reg.dftStat 0) 0x10 64 (fun q => let x := getQueue s q
    let n := heldLines s q
    n + 2 ^ 24 * b2n (n = 0) + 2 ^ 25 * b2n x.underrun + 2 ^ 26 * b2n (x.lines ≠ 0 && decide (x.lines ≤ n + (x.writing.map Prod.fst).getD 0 + 1)) +
      2 ^ 27 * b2n (gapOpen x) + 2 ^ 28 * b2n (decide (smallLines < x.lines ∨ (56 ≤ q ∧ x.lines ≠ 0)))) <|
  arr a (Reg.dftCfg 0) 0x10 64 (fun q => let x := getQueue s q
    x.lines / 128 + 65536 * b2n x.dram + 2 ^ 17 * b2n x.jtag) <|
  arr a (Reg.dftDrop 0) 0x10 64 (fun _ => stored s a) <| arr a (Reg.dftCorr 0) 0x10 64 (fun _ => stored s a) <|
  one a Reg.dftPop (stored s a) <| arr a (Reg.dftLine 0) 4 8 (fun _ => stored s a) none

/-- Registers of Zenith (R314). -/
def zenValue (s : State) (a : Nat) : Option Nat :=
  let z := s.zenith
  one a Reg.zenSecLo (z.snap.s % 2 ^ 32) <| one a Reg.zenSecHi (z.snap.s / 2 ^ 32) <| one a Reg.zenNs z.snap.ns <|
  one a Reg.zenFrac z.snap.frac <|
  one a Reg.zenStat (b2n (synced s) + 2 * b2n (z.parent = 0) + 4 * b2n s.nclkOsc + 8 * b2n z.gridFault + 16 * z.parent +
    64 * b2n z.stepped) <|
  one a Reg.zenQual (min ((quality s).getD 0xFFFFFFFF) 0xFFFFFFFF) <|
  one a Reg.zenGrid (unsigned 32 z.grid) <| one a Reg.zenCorr (unsigned 32 (z.c / 65536)) <|
  one a Reg.zenXchg (stored s a) <| one a Reg.zenLate (stored s a) none

/-- The code of the DRAM state (R337). -/
def dramCode : DramState → Nat
  | .training => 0 | .service => 1 | .selfRefresh => 2 | .changing => 3 | .frozen => 4

/-- The code of a PLL's state (R349). -/
def pllCode : PllState → Nat
  | .off => 0 | .bypass => 1 | .locked => 2 | .failed => 3

/-- Registers of DRAM and clocks (R337, R349). -/
def drmValue (s : State) (a : Nat) : Option Nat :=
  let d := s.dram
  one a Reg.drmStat (dramCode d.state + 8 * b2n d.pointB + 16 * d.binA + 256 * d.binB + 4096 * b2n d.bDisabled + 65536 * d.density) <|
  one a Reg.drmScrub (stored s a) <| one a Reg.drmIdle (stored s a) <| one a Reg.drmSr (stored s a) <|
  arr a (Reg.drmPlan 0) 4 8 (fun _ => stored s a) <| one a Reg.drmPlanAux (stored s a) <|
  arr a (Reg.drmSub 0) 8 8 (fun n => stored s a + (match markedComp s n with
    | some m => m + 8
    | none => 0)) <|
  arr a (Reg.drmCorr 0) 8 8 (fun _ => stored s a) <|
  arr a (Reg.clkPllStat 0) 4 10 (fun n => let x := getPll s n
    stored s a + pllCode x.state + 4 * x.pdRef + 16 * b2n s.refAbsent) <|
  arr a (Reg.clkPllCount 0) 4 10 (fun n => (getPll s n).count) <|
  one a Reg.clkRefStat (stored s a + b2n s.refPresent + 2 * b2n s.nclkOsc) none

/-- Registers of power, temperature and supply (R368). -/
def pwrValue (s : State) (a : Nat) : Option Nat :=
  let p := s.power
  let units (n k : Nat) : Nat := ((List.range k).map (fun i => uCode (getUnit s (n + i)).state * 4 ^ i)).sum
  one a Reg.pwrUnitLo (units 0 16) <| one a Reg.pwrUnitHi (units 16 6) <| one a Reg.pwrIdle p.idleUs <|
  one a Reg.pwrDoze p.dozeMs <| one a Reg.pwrLink (p.linkIdleMs + 65536 * p.graceMs) <|
  one a Reg.pwrTelem (p.telemMs + 65536 * p.telemS) <|
  one a Reg.pwrTherm (unsigned 16 p.diode + 65536 * unsigned 16 p.hot) <|
  one a Reg.pwrThrot (stored s a + throttleCode p.throttle + 4 * (if p.throttle = .enforced then p.cap else 15) + 64 * p.interval +
    256 * b2n (p.throttle ≠ .normal) + 512 * b2n p.diodeOk) <|
  arr a (Reg.pwrBankT 0) 4 8 (fun b => unsigned 16 (bankTemp s b)) <|
  one a Reg.pwrSupply (stored s a + b2n (railLow s .core) + 2 * b2n (railLow s .tim)) <|
  one a Reg.pwrCaution (stored s a) <|
  one a Reg.pwrPsum (if p.throttle = .enforced then p.pE else 0) none

/-- The due code of a channel (R386). -/
def dueCode (s : State) (ch : Nat) : Nat :=
  let c := ((s.horizon.due.filter (fun x => match x.item with
    | .deskew c => c.val = ch
    | .linearity c => c.val = ch
    | _ => false)).map Due.cause).foldl (fun m x => if m = 0 then x else min m x) 0
  if c = 0 then 0 else if c ≤ 2 then 1 else if c = 3 then 2 else 3

/-- Registers of Horizon and Anvil (R386, R412). -/
def anvValue (s : State) (a : Nat) : Option Nat :=
  let h := s.horizon
  let v := s.anvil
  one a Reg.hznStat (b2n (stagedPending s) + 2 * b2n (h.due.any Due.active) + 4 * b2n (compat s) + 8 * b2n h.trimFailed +
    65536 * (h.fences % 65536)) <|
  one a Reg.hznFail (stored s a) <|
  arr a (Reg.hznChan 0) 4 256 (fun n => let r := chanRec s n
    chanStatus s n r + 16 * chanAttempts s n + 64 * dueCode s n + 256 * (r.calCount % 2 ^ 24)) <|
  one a Reg.anvStat (anvCode v.state + 4 * b2n v.valid + 8 * b2n v.overflow + 16 * b2n v.tagsIncomplete + 256 * v.mergeCount +
    65536 * v.overflowCount) <|
  one a Reg.anvSource (v.source + 65536 * v.minLevel) <| one a Reg.anvSeq (v.faultSeq % 65536 + 65536 * v.recoveries) <|
  one a Reg.anvJobErr (stored s a) <| one a Reg.anvEvent (stored s a) <|
  arr a (Reg.anvUseCh 0) 4 8 (fun k => if v.usable then usableMask v.retiredCh 256 / 2 ^ (32 * k) % 2 ^ 32 else 0) <|
  one a Reg.anvUseUnit (if v.usable then
    usableMask v.retiredBank 8 + 256 * usableMask v.retiredAur 8 + 2 ^ 16 * usableWidth s .host + 2 ^ 20 * usableWidth s .east +
      2 ^ 24 * usableWidth s .west + 2 ^ 28 * usableWidth s .pair else 0) none

/-- Steps with a fallback in the latest start. -/
def fallbackSteps (s : State) : Nat :=
  (s.boot.record.entries.map (fun e => if e.2.fallback = 0 then 0 else 2 ^ (e.1 - 1))).sum

/-- Registers of Daybreak and the pair (R430, R447). -/
def dbkValue (s : State) (a : Nat) : Option Nat :=
  let t := s.boot
  one a Reg.dbkStat (t.step + 16 * t.state + 64 * b2n t.copyB + 65536 * (t.record.seq % 65536)) <|
  one a Reg.dbkReset (t.record.kind + 65536 * t.warm) <| one a Reg.dbkFallback (fallbackSteps s) <|
  one a Reg.paiStat (b2n (pairEnable s) + 2 * b2n (s.straps.getLsbD 1) + 4 * b2n s.owner + 8 * b2n s.ownIn +
    16 * b2n (portHasLive s .pair) + 256 * ((List.range 16).filter (fun d =>
      (getDom s d).phase = .running && compared s (getDom s d))).length) <|
  one a Reg.paiCount (stored s a) <| one a Reg.paiUnshadowed (stored s a) none

/-- The value a register shows; none where no register lies at the address. -/
def regValue (s : State) (a : Nat) : Option Nat :=
  let b := a / 65536
  if b = 0 then sysValue s a
  else if b ≤ 3 then cirValue s a
  else if b ≤ 5 then halValue s a
  else if b ≤ 9 then cmpValue s a
  else if b ≤ 0xC then sqlValue s a
  else if b = 0xD then jetValue s a
  else if b = 0xE then dftValue s a
  else if b = 0xF then zenValue s a
  else if b ≤ 0x11 then drmValue s a
  else if b = 0x12 then pwrValue s a
  else if b ≤ 0x14 then anvValue s a
  else dbkValue s a

/-! ### Read side effects (R7) -/

/-- Whether an address lies in an array of registers. -/
def isAt (a base stride count : Nat) : Bool := (index a base stride count).isSome

/-- The RC bits of a stored register. -/
def rcMask (a : Nat) : Nat :=
  let low := 0xFFFF
  let high := 0xFFFF0000
  let all := 0xFFFFFFFF
  if a = Reg.cancelMiss ∨ a = Reg.testStat ∨ a = Reg.mcCount ∨ a = Reg.halSepCount ∨ a = Reg.cmpInvalid ∨ a = Reg.virStat ∨
      isAt a (Reg.virLost 0) 4 256 ∨ a = Reg.zenLate ∨ a = Reg.pwrCaution ∨ a = Reg.paiUnshadowed then low
  else if isAt a (Reg.strBank 0) 4 8 ∨ a = Reg.drmScrub ∨ a = Reg.pwrThrot ∨ a = Reg.anvEvent then high
  else if a = Reg.ringCount ∨ a = Reg.ringFwd ∨ a = Reg.markStat ∨ isAt a (Reg.strBorrow 0) 4 8 ∨ isAt a (Reg.cumOps 0) 0x20 8 ∨
      isAt a (Reg.cumFailRec 0) 0x20 8 ∨ a = Reg.ledCommits ∨ isAt a (Reg.sqlTrig 0) 0x20 8 ∨ isAt a (Reg.sqlMissed 0) 0x20 8 ∨
      isAt a (Reg.sqlSegs 0) 0x20 8 ∨ isAt a (Reg.aurReq 0) 0x20 8 ∨ isAt a (Reg.jetPortErr 0) 0x10 4 ∨
      isAt a (Reg.jetPortRxf 0) 0x10 4 ∨ isAt a (Reg.jetPortTxf 0) 0x10 4 ∨ isAt a (Reg.dftDrop 0) 0x10 64 ∨
      isAt a (Reg.dftCorr 0) 0x10 64 ∨ a = Reg.zenXchg ∨ a = Reg.drmSr ∨ isAt a (Reg.drmCorr 0) 8 8 ∨ a = Reg.paiCount then all
  else if isAt a (Reg.pecStat 0) 4 32 ∨ a = Reg.clkRefStat then 0xFF00
  else if isAt a (Reg.sqlFifo 0) 0x20 8 then 0x1FFFF
  else if isAt a (Reg.jetLane 0) 4 20 then 0xFF000FFF
  else if isAt a (Reg.drmSub 0) 8 8 then 0xFFFF00
  else if isAt a (Reg.clkPllStat 0) 4 10 then 0xFF0000
  else if a = Reg.pwrSupply then 0x1FF0000
  else if a = Reg.hznFail then 0xFFFFFF
  else if a = Reg.anvJobErr then 0xFFF00000
  else 0

/-- The W1C bits of a stored register. -/
def w1cMask (a : Nat) : Nat :=
  if a = Reg.mcStat ∨ a = Reg.halSepStat then 0xC0000000
  else if isAt a (Reg.cumStat 0) 0x20 8 ∨ isAt a (Reg.pecStat 0) 4 32 then 0x80
  else if isAt a (Reg.sqlStat 0) 0x20 8 then 0x3000
  else if isAt a (Reg.aurStat 0) 0x20 8 then 0x800000
  else 0

/-- Clear bits of a stored register. -/
def clearBits (s : State) (a mask : Nat) : State :=
  if mask = 0 then s else regSet s a (regGet s a &&& ~~~(BitVec.ofNat 32 mask))

/-- Read a register: its value and the state after its side effects (R7, R314); none outside the register space. The highest
fill of a Squall's buffer since a read begins at its present fill (R229). -/
def readReg (s : State) (a : Nat) : Option (Nat × State) :=
  let s := if a = Reg.zenSecLo then { s with zenith := { s.zenith with snap := s.zenith.time } } else s
  match regValue s a with
  | none => none
  | some v =>
    let s := clearBits s a (rcMask a)
    some (v, match index a (Reg.aurRing 0) 0x20 8, index a (Reg.sqlFifo 0) 0x20 8 with
      | some n, _ => setAurora s n { getAurora s n with minFill := none }
      | none, some b => regPut s a 0 17 (ceilDiv (getSquall s b).fill 8)
      | none, none => s)

/-! ### Control ports (R458 to R461) -/

/-- Whether a control-port word has a legal op. -/
def pecOk (w : Nat) : Bool := decide (1 ≤ bits w 31 28 ∧ bits w 31 28 ≤ 3)

/-- A port that is still sends its next word. -/
def pecStart (x : Pec) : Pec :=
  match x.busy, x.queue with
  | none, w :: r => { queue := r, busy := some w, repeated := false }
  | _, _ => x

/-- A word enters the queue of a port; a shadow discards it unsent (R461). -/
def pecPut (s : State) (o : Nat) (w : Word) : State :=
  if shadow s then s else setPec s o (pecStart { getPec s o with queue := (getPec s o).queue ++ [w] })

/-- Whether the queue of a port is full. -/
def pecFull (s : State) (o : Nat) : Bool := decide (64 ≤ (getPec s o).queue.length)

/-! ### Writes (R294) -/

/-- The bits of `mask` set to `value`. -/
def merge (old value mask : Nat) : Nat := (old &&& (0xFFFFFFFF - mask)) ||| (value &&& mask)

/-- What a register write does: it is done, it waits for a control port, or it fails with a status. -/
inductive WriteResult where
  | done (s : State)
  | wait
  | fail (status : Nat)
  deriving DecidableEq, Repr

/-- Write a register that is not refused. -/
def writePlain (s : State) (a value mask : Nat) : State :=
  let m := merge (stored s a) value mask
  let s := clearBits s a (value &&& mask &&& w1cMask a)
  if a = Reg.csAddr then startDiag s (BitVec.ofNat 32 m)
  else if a = Reg.dftPop then popToLines s ((value &&& mask) % 64)
  else if a = Reg.drmScrub then regPut s a 0 14 m
  else if a = Reg.drmIdle then regPut s a 0 20 m
  else if a = Reg.zenStat then
    if bit (value &&& mask) 6 then { s with zenith := { s.zenith with stepped := false } } else s
  else match index a (Reg.dftStat 0) 0x10 64 with
    | some q => if bit (value &&& mask) 25 then setQueue s q { getQueue s q with underrun := false } else s
    | none =>
      match index a (Reg.dftCfg 0) 0x10 64 with
      | some q =>
        if ¬ bit mask 17 then s
        else
          let s := if (getQueue s q).jtag ∧ ¬ bit value 17 then jtagLeaves s q else s
          setQueue s q { getQueue s q with jtag := bit value 17 }
      | none =>
        match index a (Reg.ledScratch 0) 4 32768 with
        | some k =>
          let w := merge ((getCtx s (2 * k)).scratch.toNat + 65536 * (getCtx s (2 * k + 1)).scratch.toNat) value mask
          let s := setCtx s (2 * k) { getCtx s (2 * k) with scratch := BitVec.ofNat 16 w }
          setCtx s (2 * k + 1) { getCtx s (2 * k + 1) with scratch := BitVec.ofNat 16 (w / 65536) }
        | none => s

/-- SYS_TEST is written (R469): only through DEBUG, and only while no domain is admitted. -/
def writeTest (s : State) (value mask : Nat) : State :=
  let m := merge (stored s Reg.test) value mask
  let s := regSet s Reg.test (BitVec.ofNat 32 (m % 64))
  if bit (value &&& mask) 6 then
    regPut (regPut { s with bist := true } Reg.testStat 16 1 0) Reg.testStat 17 1 0
  else s

/-- Write one register, from a frame or through DEBUG. -/
def writeReg (s : State) (debug : Bool) (a value mask : Nat) : WriteResult :=
  match regValue s a with
  | none => .fail 7
  | some _ =>
    if a = Reg.test then
      if ¬ debug then .fail 6 else if allFree s then .done (writeTest s value mask) else .fail 6
    else if (index a (Reg.dftCfg 0) 0x10 64).isSome ∧ bit mask 17 ∧ ¬ debug then .fail 6
    else match index a (Reg.pecWr 0) 4 32 with
      | some o =>
        if ¬ pecOk (value &&& mask) then .fail 1
        else if pecFull s o then .wait
        else .done (pecPut s o (BitVec.ofNat 32 (value &&& mask)))
      | none => .done (writePlain s a value mask)

/-! ### Queue 3 (R289, R294) -/

/-- The offset of the length fault of a request of entries of `k` bytes; none where the length is right (R277). -/
def entryFault (b : Bytes) (k : Nat) : Option Nat :=
  if b.length = 0 then some 0
  else if 1024 * k < b.length then some (1024 * k)
  else if b.length % k ≠ 0 then some (b.length / k * k)
  else none

/-- Handle the entries of a REG_WRITE from entry `i` on: the reply's status and detail, or none where entry `i` waits, with
the number of entries done. -/
def writeEntries : Nat → State → Bytes → Nat → State × Nat × Option (Nat × Nat)
  | 0, s, _, i => (s, i, some (0, 0))
  | fuel + 1, s, b, i =>
    if b.length ≤ 12 * i then (s, i, some (0, 0))
    else match writeReg s false (fld b (12 * i) 4) (fld b (12 * i + 4) 4) (fld b (12 * i + 8) 4) with
      | .done s => writeEntries fuel s b (i + 1)
      | .wait => (s, i, none)
      | .fail 1 => (s, i, some (1, 12 * i + 4))
      | .fail n => (s, i, some (n, i))

/-- Read the entries of a REG_READ from entry `i` on: the data, or the status and the failing entry. -/
def readEntries : Nat → State → Bytes → Nat → Bytes → State × Option Nat × Bytes
  | 0, s, _, _, acc => (s, none, acc)
  | fuel + 1, s, b, i, acc =>
    if b.length ≤ 4 * i then (s, none, acc)
    else match readReg s (fld b (4 * i) 4) with
      | some r => readEntries fuel r.2 b (i + 1) (acc ++ le 4 r.1)
      | none => (s, some i, [])

/-- The first entry of a REG_READ that boot-halt does not reach: only DBK_ and ANV_ registers are read (R426). -/
def haltEntry (b : Bytes) : Option Nat :=
  (List.range (b.length / 4)).find? (fun i => let n := fld b (4 * i) 4 / 65536
                                              !(n = 0x14 || n = 0x15))

/-- Handle a REG_READ: the entries before one that fails have acted (R294). -/
def doRegRead (s : State) (f : Frame) : State :=
  let b := f.payload
  match entryFault b 4 with
  | some o => reply s f 1 o []
  | none =>
    match (if s.boot.state = 2 then haltEntry b else none) with
    | some i =>
      let r := readEntries i s b 0 []
      match r.2.1 with
      | some j => reply r.1 f 7 j []
      | none => reply r.1 f 6 i []
    | none =>
      let r := readEntries 1024 s b 0 []
      match r.2.1 with
      | some i => reply r.1 f 7 i []
      | none => reply r.1 f 0 0 r.2.2

/-- Handle a REG_WRITE as far as it goes; it is answered where it ends. -/
def doRegWrite (s : State) (f : Frame) : State × Bool :=
  match entryFault f.payload 12 with
  | some o => (reply s f 1 o [], true)
  | none =>
    if s.boot.state = 2 then (reply s f 6 0 [], true)
    else
      let r := writeEntries 1024 s f.payload s.written
      match r.2.2 with
      | some e => (reply { r.1 with written := 0 } f e.1 e.2 [], true)
      | none => ({ r.1 with written := r.2.1 }, false)

end Sys2Proof.Machine
end

