-- ==== Sys2Proof/Machine/Reads.lean ====
section
/-! DEFINITION. The READ spaces (R293) and the handling of queue 3: READ, REG_WRITE and REG_READ in order (R289, R290), with
the control-port frames that let a waiting REG_WRITE go on (R460). -/

namespace Sys2Proof.Machine

/-! ### The contents of the spaces -/

/-- Bytes `off` to `off + len − 1` of a string, zero past its end. -/
def slice (b : Bytes) (off len : Nat) : Bytes :=
  let l := (b.drop off).take len
  l ++ List.replicate (len - l.length) 0

/-- Bytes of a space made of equal records: record `i` has `size` bytes. -/
def recordBytes (size : Nat) (rec_ : Nat → Bytes) (off len : Nat) : Bytes :=
  let first := off / size
  let last := (off + len - 1) / size
  slice (((List.range (last + 1 - first)).map (fun i => rec_ (first + i))).flatten) (off % size) len

/-- A table of space 2 (R378): the device record, the Aurora records and the channel records, with zeros between. -/
def tableBytes (s : State) (staged : Bool) : Bytes :=
  let head := deviceBytes s (if staged then s.horizon.stagedDiode.getD s.horizon.diodeTrim else s.horizon.diodeTrim) ++
    ((List.range 8).map (fun n => aurBytes s n (if staged then stagedAurora s n else aurRec s n))).flatten
  slice head 0 0x400 ++
    ((List.range 256).map (fun ch => chanBytes s ch (if staged then stagedChan s ch else chanRec s ch))).flatten

/-- The size of a table of space 2. -/
def tableSize : Nat := 0x400 + 576 * 256

/-- A step record (R422). -/
def startRecBytes (r : StepRec) : Bytes :=
  le 4 r.seq ++ le 1 r.kind ++ le 1 r.copy ++ le 1 r.state ++ le 1 r.halt ++ time12 r.time ++ le 12 0 ++
    ((List.range 12).map (fun i =>
      let e := tget StepEntry.init r.entries (i + 1)
      le 1 e.attempts ++ le 1 e.result ++ le 2 e.fallback ++ le 4 e.duration ++ slice e.detail 0 8)).flatten

/-- A log entry as 256 bytes (R424). -/
def entryBytes (e : LogEntry) : Bytes :=
  let b := startRecBytes e.record ++ le 4 e.imageId.toNat ++ slice e.capDigest 0 8 ++ le 1 e.binA ++ le 1 e.binB ++ le 1 e.skip ++
    le 1 (b2n e.oneS + 2 * b2n e.linkFb) ++ le 4 e.seq ++ le 8 0
  b ++ le 4 (crc32 b).toNat

/-- The boot log's flash slot `i`: its entry, or erased bytes. -/
def logBytes (s : State) (i : Nat) : Bytes :=
  match s.boot.log.find? (fun e => logSlot e = i) with
  | some e => entryBytes e
  | none => List.replicate 256 0xFF

/-- A range of space 3, which may reach from the records into the log. -/
def bootBytes (s : State) (off len : Nat) : Bytes :=
  let n := min len (0x10000 - off)
  let head := if n = 0 then [] else slice (slice (startRecBytes s.boot.record) 0 0x100 ++ startRecBytes s.boot.prev) off n
  if len = n then head else head ++ recordBytes 256 (logBytes s) (off + n - 0x10000) (len - n)

/-- A range of space 4 (R330, R396). -/
def faultBytes (s : State) (off len : Nat) : Bytes :=
  slice (slice (latchRecord s.anvil) 0 0x1000 ++ slice s.dram.snapshot 0 640) off len

/-- The raw bursts of space 5 (R331). -/
def rawBytes (s : State) (off len : Nat) : Bytes := ((List.range (len / 80)).map (fun i => rawBurst s (off / 64 + i))).flatten

/-- Whether a READ meets its space: the alignment and the range. A raw read of a length outside 80 to 65,520 does not (R331). -/
def readOk (s : State) (space off len : Nat) : Bool :=
  if space = 1 then off % 32 = 0 && len % 32 = 0 && decide (off + len ≤ 32 * 65536)
  else if space = 2 then decide (off + len ≤ 0x40000 + tableSize)
  else if space = 3 then decide (off + len ≤ 0x10000 + 4128768)
  else if space = 4 then decide (off + len ≤ 0x1000 + 640)
  else off % 64 = 0 && len % 80 = 0 && decide (80 ≤ len ∧ len ≤ 65520 ∧ off / 64 + len / 80 ≤ burstCount s)

/-- The data of a READ. -/
def readData (s : State) (space off len : Nat) : Bytes :=
  if space = 1 then ((List.range (len / 32)).map (fun i => ctxBytes (getCtx s (off / 32 + i)))).flatten
  else if space = 2 then slice (slice (tableBytes s false) 0 0x40000 ++ tableBytes s true) off len
  else if space = 3 then bootBytes s off len
  else if space = 4 then faultBytes s off len
  else rawBytes s off len

/-- Whether a context lies in the range of a running job (R390). -/
def inRange_ (s : State) (ix : Nat) : Bool :=
  s.doms.any (fun d => d.2.phase ≠ .free && decide (jobBase d.2.payload ≤ ix ∧ ix < jobBase d.2.payload + jobRange d.2.payload))

/-- The checks of a READ payload (R293); the length of a raw read is judged with its space (R331). -/
def readChecks (b : Bytes) : List Check :=
  [lenIs b 16, (0, decide (1 ≤ fld b 0 1 ∧ fld b 0 1 ≤ 5)), rsv b 1 3,
    (4, decide (fld b 0 1 = 5 ∨ (1 ≤ fld b 4 4 ∧ fld b 4 4 ≤ 65520)))]

/-- A context that met a parity error holds free values until its next commit (R390). -/
def looseContext (s : State) (ix : Nat) : State :=
  let c := freeCtx s
  setCtx c.2 ix c.1

/-- The bytes a READ takes from the DRAM: the data bytes of the bursts of a raw read that is served (R331). A frozen DRAM serves
it with no bandwidth to share. -/
def rawWant (s : State) (f : Frame) : Nat :=
  let b := f.payload
  if fld b 0 1 = 5 ∧ firstFault (readChecks b) = none ∧ s.boot.state ≠ 2 ∧ readOk s 5 (fld b 8 8) (fld b 4 4) ∧
      s.dram.state ≠ .frozen then 64 * (fld b 4 4 / 80)
  else 0

/-- Handle a READ. `parity` is a context in which it meets a parity error: outside every running job's range an event
0x0502 tells of it, and its contents are unpredictable (R390). -/
def doRead (s : State) (f : Frame) (parity : Option Nat) : State :=
  let b := f.payload
  let space := fld b 0 1
  let len := fld b 4 4
  let off := fld b 8 8
  match firstFault (readChecks b) with
  | some o => reply s f 1 o []
  | none =>
    if s.boot.state = 2 ∧ ¬ (space = 3 ∨ space = 4) then reply s f 6 0 []
    else if ¬ readOk s space off len then reply s f 7 0 []
    else
      let hit : Option Nat := if space = 1 then parity.filter (fun ix => off / 32 ≤ ix ∧ ix < (off + len) / 32 ∧ ¬ inRange_ s ix) else none
      let s := match hit with
        | some ix => looseContext (raiseEvent s 0x0502 (le 2 ix ++ le 2 0)) ix
        | none => s
      reply s f 0 0 (readData s space off len)

/-! ### Queue 3 -/

/-- Handle one frame of queue 3; false where it waits. A raw read waits for the DRAM (R327, R333, R335). -/
def handle3 (s : State) (f : Frame) (parity : Option Nat) : State × Bool :=
  if f.ty = 0x04 then
    let w := rawWant s f
    let r := if w = 0 then (s, true) else hostDram s 3 w
    (if r.2 then doRead r.1 f parity else r.1, r.2)
  else if f.ty = 0x06 then (doRegRead s f, true)
  else doRegWrite s f

/-- Handle the frames of queue 3 in order until one waits (R460). -/
def drain3 : Nat → State → Option Nat → State
  | 0, s, _ => s
  | fuel + 1, s, parity =>
    match s.held3 with
    | [] => s
    | f :: r =>
      if nimbusStopped s 3 then s
      else
        let h := handle3 s f (if r = [] then parity else none)
        if h.2 then drain3 fuel (freeLines { h.1 with held3 := r } f) parity else h.1

/-- A frame joins queue 3. -/
def take3 (s : State) (f : Frame) (ty : Nat) (parity : Option Nat) : State :=
  onFrame s f ty (fun s => drain3 (s.held3.length + 1) { s with held3 := s.held3 ++ [f] } parity)

/-- READ (R293). -/
def execRead (f : Frame) (parity : Option (Fin 65536)) (s : State) : Host.Outcome State Fault Refusal :=
  .next (take3 s f 0x04 (parity.map Fin.val))

/-- REG_WRITE (R294). -/
def execRegWrite (f : Frame) (s : State) : Host.Outcome State Fault Refusal := .next (take3 s f 0x05 none)

/-- REG_READ (R294). -/
def execRegRead (f : Frame) (s : State) : Host.Outcome State Fault Refusal := .next (take3 s f 0x06 none)

/-! ### Control ports (R459, R460) -/

/-- SYS_PEC_WR: an entry for SYS_PEC_WR_o queues a word on the octet's port; one with a reserved op, or one that finds the
queue full, does not act here. -/
def execSysPecWr (o : Fin 32) (word : Word) (s : State) : Host.Outcome State Fault Refusal :=
  if pecOk word.toNat ∧ ¬ pecFull s o then .next (pecPut s o word) else .next s

/-- The five bytes a control-port frame sends: the word, most significant byte first, and its CRC-8 (R459). -/
def pecFrame (w : Word) : Bytes :=
  let b := (le 4 w.toNat).reverse
  b ++ [crc8 b]

/-- The level of PEC_DO in SCK cycle `k` of the frame in progress: the frame most significant bit first in cycles 0 to 39, low
after them and between frames (R458, R459). -/
def pecDo (x : Pec) (k : Nat) : Bool :=
  match x.busy with
  | some w => decide (k < 40) && ((pecFrame w).getD (k / 8) 0).getLsbD (7 - k % 8)
  | none => false

/-- The SCK cycles of a frame: 48, and 72 for a read (R459). -/
def pecCycles (w : Word) : Nat := if bits w.toNat 31 28 = 3 then 72 else 48

/-- Whether a control-port frame is accepted: status 0xA5, and for a read the CRC of its data, first byte first. -/
def pecAccepted (w : Word) (status : Byte) (data : BitVec 16) (crc : Byte) : Bool :=
  status = 0xA5 && (bits w.toNat 31 28 ≠ 3 ||
    crc = crc8 [BitVec.ofNat 8 (data.toNat / 256), BitVec.ofNat 8 data.toNat])

/-- PEC_FRAME_COMPLETE: the frame of a port ends. It is accepted, repeated once, or dropped with nacks counted; the next word
starts, and a REG_WRITE that waits goes on. -/
def execPecFrameComplete (o : Fin 32) (status : Byte) (data : BitVec 16) (crc : Byte) (s : State) :
    Host.Outcome State Fault Refusal :=
  let x := getPec s o
  match x.busy with
  | none => .next s
  | some w =>
    let ok := pecAccepted w status data crc
    if ¬ ok ∧ ¬ x.repeated then .next (setPec s o { x with repeated := true })
    else
      let s := setPec s o (pecStart { x with busy := none, repeated := false })
      let s := if ¬ ok then regBump s (Reg.pecStat o) 8 8 1
        else if bits w.toNat 31 28 = 3 then regPut (regPut s (Reg.pecStat o) 16 16 data.toNat) (Reg.pecStat o) 7 1 1
        else s
      .next (drain3 s.held3.length s none)

end Sys2Proof.Machine
end

