-- ==== Sys2Proof/Machine/Nimbus.lean ====
section
/-! DEFINITION. Nimbus as the consumer of the inbound queues (R281, R289): the frames that wait while a start runs or the JTAG
reader is the consumer are handled, by queue in order, once they may be. -/

namespace Sys2Proof.Machine

/-- Handle a frame by its type and, for a request, its op. An op that is none of its type is malformed, which any of them says
(R290). -/
def handleFrame (s : State) (e : Arrived) : State :=
  let f := e.frame
  let op := if f.payload = [] then 0 else fld f.payload 0 1
  match f.ty with
  | 0x02 => doJobCancel f s
  | 0x07 =>
    if op = 2 then doCalSetCalibrate f s
    else if op = 3 then doCalSetLoadChannelRecords f s
    else if op = 4 then doCalSetLoadAuroraRecords f s
    else if op = 5 then doCalSetSave f s
    else if op = 6 then doCalSetConfigure f s
    else doCalSetBoardTerms f s
  | 0x08 =>
    if op = 2 then doTimeSetConfigure f s
    else if op = 3 then doTimeSetLaunch f s
    else doTimeSetSet f s
  | 0x09 => doRecover f s
  | 0x0A =>
    if op = 2 then doPowerHold f s
    else if op = 3 then doPowerDramPoint f s
    else if op = 5 then doPowerConfigure f s
    else match op, e.boot with
      | 4, some b => doPowerWarmReset f b s
      | _, _ => doPowerSleep f s
  | 0x80 => if op = 2 then doSyncResponse f e.stamp e.at_ s else doSyncRequest f e.stamp s
  | 0x81 => doGlobalEvent f s
  | 0x82 => doPairDigest f s
  | _ => doPairTakeover f s

/-- The first element a test selects, and the list without it. -/
def takeFirst {α : Type} (sel : α → Bool) : List α → Option (α × List α)
  | [] => none
  | a :: r => if sel a then some (a, r) else (takeFirst sel r).map (fun x => (x.1, a :: x.2))

/-- Handle the waiting frames, oldest first, of every queue Nimbus reads. -/
def drainInbox : Nat → State → State
  | 0, s => s
  | n + 1, s =>
    match takeFirst (fun e => !nimbusStopped s (inQueue e.frame)) s.inbox with
    | some (e, r) => drainInbox n (handleFrame { s with inbox := r } e)
    | none => s

/-- Nimbus goes on with every inbound queue. -/
def resumeQueues (s : State) : State :=
  let s := reexamine (drainInbox s.inbox.length s)
  drain3 s.held3.length s none

/-! ### The DRAM comes back -/

/-- The LOADs and raw READs that wait for the DRAM go on once it is in service (R325, R333, R335). -/
def resumeDram (s : State) : State :=
  let s := drainLoads s.held1.length s
  drain3 s.held3.length s none

/-- UNIT_WAKE: a unit's wake completes (R351). -/
def execUnitWake (u : Fin 22) (s : State) : Host.Outcome State Fault Refusal :=
  .next (if u.val = 20 then resumeDram (unitWake s u) else unitWake s u)

/-- MODE_REGISTER_CHECK: a subchannel's mode registers are read back (R329); with the last check owed after a relock or a change
the DRAM returns to service (R333, R347). -/
def execModeRegisterCheck (sub : Fin 8) (bad : Option Byte) (s : State) : Host.Outcome State Fault Refusal :=
  .next (resumeDram (modeCheck s sub.val bad))

/-! ### The wait of step 10 -/

/-- PORT_H_WAIT_TIMEOUT: the 100 ms of step 10 are over (R423). A start whose port H came up while it waited goes on here as
well. -/
def execPortHWaitTimeout (s : State) : Host.Outcome State Fault Refusal :=
  match s.boot.input with
  | some b => if s.boot.step = 10 then .next (resumeQueues (goOn (endStep10 b s) b (from11 b))) else .next s
  | none => .next s

/-! ### FAULT_NOTICE -/

/-- FAULT_NOTICE: after the purge the notice is committed and the window closes (R397, R401). A fault in a start that waits
halts it (R426), and Nimbus goes on with the frames that waited, a RECOVER among them (R402); a Nimbus fault is left to its warm
start (R404). -/
def execFaultNotice (s : State) : Host.Outcome State Fault Refusal :=
  match s.boot.input with
  | some b => if faultInStart s then .next (resumeQueues (haltStart s b s.boot.step)) else .next s
  | none => if s.anvil.window ∧ ¬ s.anvil.stopped then .next (resumeQueues (faultNotice s)) else .next s

end Sys2Proof.Machine
end

