-- ==== Sys2Proof/Machine/Package.lean ====
section
/-! DEFINITION. The package (R448 to R453): which ball carries which signal or supply, by row and column. -/

namespace Sys2Proof.Machine

/-- The supply rails and VSS (R452, R453). -/
inductive Supply where
  | core | tim | cml | ddr | jet | aur | io | ng | vss
  deriving DecidableEq, Repr

/-- The nominal voltage of a rail in mV (R453). -/
def Supply.nominal : Supply → Nat
  | .core => 750 | .tim => 800 | .cml => 1200 | .ddr => 1100 | .jet => 900 | .aur => 1800 | .io => 1800 | .ng => 800 | .vss => 0

/-- The operating range of a rail about its nominal voltage, in percent (R453). -/
def Supply.range : Supply → Nat
  | .core | .tim | .jet => 2
  | .cml | .ddr | .aur => 3
  | .io | .ng => 5
  | .vss => 0

/-- The maximum current of a rail in mA (R453). -/
def Supply.maxCurrent : Supply → Nat
  | .core => 240000 | .tim => 45000 | .cml => 21000 | .ddr => 10000 | .jet => 8000 | .aur => 8000 | .io => 1000 | .ng => 200
  | .vss => 0

/-- A leg of a differential pair. -/
inductive Leg where
  | p | n
  deriving DecidableEq, Repr

/-- The four CML pairs of a channel (R160). -/
inductive PeSignal where
  | drv | den | cmph | cmpl
  deriving DecidableEq, Repr

/-- The four wires of a control port (R458). -/
inductive PecSignal where
  | sck | csn | do_ | di
  deriving DecidableEq, Repr

/-- The flash bus (R450). -/
inductive FlashSignal where
  | clk | csN | dqs | dq (i : Nat) | resetN
  deriving DecidableEq, Repr

/-- The JTAG port (R465). -/
inductive JtagSignal where
  | tck | tms | tdi | tdo | trstN
  deriving DecidableEq, Repr

/-- The remaining CMOS balls (R462). -/
inductive CmosSignal where
  | twinkle | throttleN | porstN | resetN | pairOwnIn | pairOwnOut | pairRole | calCompat
  deriving DecidableEq, Repr

/-- The signals of a DDR5 subchannel (R451). -/
inductive DdrSignal where
  | dq (comp bit : Nat) | dqs (comp : Nat) (leg : Leg) | ca (i : Nat) | ck (leg : Leg) | csN | alertN | resetN
  deriving DecidableEq, Repr

/-- What a ball carries. -/
inductive Ball where
  | pe (ch : Nat) (sig : PeSignal) (leg : Leg)
  | pec (octet : Nat) (sig : PecSignal)
  | aur (n : Nat) (leg : Leg)
  | refclk (leg : Leg)
  | thermd (leg : Leg)
  | xspi (sig : FlashSignal)
  | jtag (sig : JtagSignal)
  | extTrig (n : Nat)
  | markOut (n : Nat)
  | cmos (sig : CmosSignal)
  | reserved (n : Nat)
  | jetTx (lane : Nat) (leg : Leg)
  | jetRx (lane : Nat) (leg : Leg)
  | ddr (sub : Nat) (sig : DdrSignal)
  | supply (rail : Supply)
  deriving DecidableEq, Repr

/-- The leg at an even or odd place: P comes first. -/
def legAt (i : Nat) : Leg := if i % 2 = 0 then .p else .n

/-! ### The pin electronics (R449) -/

/-- The first row of an octet. -/
def octetRow (o : Nat) : Nat := (if o < 16 then 1 else 54) + 3 * ((o % 16) / 2)

/-- The first column of an octet. -/
def octetCol (o : Nat) : Nat := if o % 2 = 0 then 3 else 44

/-- The first column of an octet's control port. -/
def pecCol (o : Nat) : Nat := if o % 2 = 0 then 35 else 40

/-- The ball at row `r`, column `c` as octet `o` names it. -/
def octetBall (o r c : Nat) : Option Ball :=
  let m := c - octetCol o
  if octetCol o ≤ c ∧ m < 32 then
    let ch := 8 * o + m / 4
    if r = octetRow o then some (.pe ch (if m % 4 < 2 then .drv else .den) (legAt m))
    else if r = octetRow o + 1 then some (.pe ch (if m % 4 < 2 then .cmph else .cmpl) (legAt m))
    else if r = octetRow o + 2 then some (.supply .vss)
    else none
  else if r = octetRow o ∧ pecCol o ≤ c ∧ c < pecCol o + 4 then
    match c - pecCol o with
    | 0 => some (.pec o .sck)
    | 1 => some (.pec o .csn)
    | 2 => some (.pec o .do_)
    | _ => some (.pec o .di)
  else none

/-- The two octets that share the rows of row `r`, if any lie there. -/
def octetsAt (r : Nat) : List Nat :=
  let t (base first : Nat) : List Nat := let i := (r - first) / 3; [base + 2 * i, base + 2 * i + 1]
  if 1 ≤ r ∧ r ≤ 24 then t 0 1 else if 54 ≤ r ∧ r ≤ 77 then t 16 54 else []

/-- The ball at a position of rows 001 to 024 and 054 to 077. -/
def peBall (r c : Nat) : Option Ball := (octetsAt r).findSome? (fun o => octetBall o r c)

/-! ### The remaining signals (R450) -/

/-- The flash bus in column order. -/
def flashAt : Nat → FlashSignal
  | 0 => .clk | 1 => .csN | 2 => .dqs | 11 => .resetN | i => .dq (i - 3)

/-- The JTAG port in column order. -/
def jtagAt : Nat → JtagSignal
  | 0 => .tck | 1 => .tms | 2 => .tdi | 3 => .tdo | _ => .trstN

/-- The CMOS balls of row 028 in column order. -/
def cmosAt : Nat → CmosSignal
  | 0 => .twinkle | 1 => .throttleN | 2 => .porstN | 3 => .resetN | 4 => .pairOwnIn | 5 => .pairOwnOut | 6 => .pairRole
  | _ => .calCompat

/-- The ball at a position of the table of R450. -/
def otherBall (r c : Nat) : Option Ball :=
  let within (a b : Nat) : Bool := decide (a ≤ c ∧ c ≤ b)
  if r = 26 then
    if within 22 37 then some (.aur ((c - 22) / 2) (legAt (c - 22)))
    else if within 40 41 then some (.refclk (legAt (c - 40)))
    else if within 43 44 then some (.thermd (legAt (c - 43)))
    else none
  else if r = 27 then
    if within 20 31 then some (.xspi (flashAt (c - 20)))
    else if within 33 37 then some (.jtag (jtagAt (c - 33)))
    else if within 40 47 then some (.extTrig (c - 40))
    else if within 49 56 then some (.markOut (c - 49))
    else none
  else if r = 28 then
    if within 20 27 then some (.cmos (cmosAt (c - 20)))
    else if within 30 41 then some (.reserved (c - 30))
    else none
  else if r = 51 ∧ within 20 59 then some (.jetTx ((c - 20) / 2) (legAt (c - 20)))
  else if r = 52 ∧ within 20 59 then some (.jetRx ((c - 20) / 2) (legAt (c - 20)))
  else none

/-! ### The DRAM (R451) -/

/-- The first row and column of a subchannel's block. -/
def ddrBlock (sub : Nat) : Nat × Nat :=
  (if sub % 4 < 2 then 26 else 40, (if sub < 4 then 1 else 61) + 9 * (sub % 2))

/-- The ball at index `i` of a subchannel's block. -/
def ddrBall (sub i : Nat) : Ball :=
  if i < 50 then
    if i % 10 < 8 then .ddr sub (.dq (i / 10) (i % 10)) else .ddr sub (.dqs (i / 10) (legAt (i % 10)))
  else if i < 64 then .ddr sub (.ca (i - 50))
  else if i < 66 then .ddr sub (.ck (legAt i))
  else match i with
    | 66 => .ddr sub .csN
    | 67 => .ddr sub .alertN
    | 68 => .ddr sub .resetN
    | _ => .supply .vss

/-- The ball at a position of a subchannel's block. -/
def dramBall (r c : Nat) : Option Ball :=
  (List.range 8).findSome? (fun sub =>
    let b := ddrBlock sub
    if b.1 ≤ r ∧ r < b.1 + 10 ∧ b.2 ≤ c ∧ c < b.2 + 8 then some (ddrBall sub (8 * (r - b.1) + (c - b.2))) else none)

/-! ### The supplies (R452) -/

/-- The rail of a position that no signal takes: the first row of the table that names it. -/
def railAt (r c : Nat) : Supply :=
  let outer : Bool := decide (r ≤ 24 ∨ 54 ≤ r)
  let side : Bool := decide (c ≤ 18 ∨ 60 ≤ c)
  if outer ∧ (c = 1 ∨ c = 2 ∨ c = 76 ∨ c = 77) then .cml
  else if outer ∧ (octetsAt r).any (fun o => r = octetRow o + 1) ∧ 35 ≤ c ∧ c ≤ 43 then .tim
  else if outer then .vss
  else if r = 25 ∧ 22 ≤ c ∧ c ≤ 37 then .aur
  else if r = 28 ∧ (c = 42 ∨ c = 43) then .ng
  else if r = 28 ∧ 44 ≤ c ∧ c ≤ 59 then .io
  else if (r = 50 ∨ r = 53) ∧ 20 ≤ c ∧ c ≤ 59 then .jet
  else if side then (if (r + c) % 2 = 1 then .ddr else .vss)
  else if (r + c) % 2 = 0 then .core
  else .vss

/-- What the ball at row `r`, column `c` carries, both from 1 to 77 (R448). -/
def ballAt (r c : Nat) : Ball :=
  (((peBall r c).orElse (fun _ => otherBall r c)).orElse (fun _ => dramBall r c)).getD (.supply (railAt r c))

/-- Whether boundary scan covers a ball: every signal ball but supplies and RSVD_n (R465). -/
def scanned : Ball → Bool
  | .supply _ | .reserved _ => false
  | _ => true

end Sys2Proof.Machine
end

