-- ==== Sys2Proof/Machine/Pins.lean ====
section
/-! DEFINITION. Trigger and marker pins (R463, R464), the JTAG port with boundary scan, unlock and debug access (R465 to
R468), and the test modes (R469). -/

namespace Sys2Proof.Machine

/-! ### Triggers and markers -/

/-- EXT_TRIG: a rising edge sampled in an ECLK sets the latches of event n 6 ECLK later. -/
def execExtTrig (n : Fin 8) (s : State) : Host.Outcome State Fault Refusal := .next (setEvent s n 6)

/-- The 8 ns of a marker pulse and the 4 ns low that follow it, in ftu. -/
def markGap : Nat := 98304

/-- MARK_OUT: the first pending marker rises at its time, or at the first time allowed after the pulse before it, which
counts it as delayed. -/
def execMarkOut (n : Fin 8) (s : State) : Host.Outcome State Fault Refusal :=
  let m := getMark s n
  match m.pending with
  | [] => .next s
  | t :: r =>
    let at_ := match m.rise with
      | some u => max t (u + markGap)
      | none => t
    let s := setMark s n { pending := r, rise := some at_ }
    .next (if at_ = t then s else regBump s Reg.markStat 0 16 1)

/-! ### The instruction register (R465, R466) -/

/-- Load the JTAG instruction register at Update-IR. -/
def jtagLoad (s : State) (code : Nat) : State := { s with jtag := { s.jtag with ir := code } }

/-- Whether boundary scan holds the balls in place of the core. -/
def ballsTaken (s : State) : Bool := decide (3 ≤ s.jtag.ir ∧ s.jtag.ir ≤ 7)

/-! ### What the balls carry (R161, R438, R466, R469) -/

/-- Whether the core drives its outputs: the device is no shadow, and boundary scan leaves it the balls. -/
def coreDrives (s : State) : Bool := !shadow s && !ballsTaken s

/-- Whether the core drives a channel's DRV and DEN pairs from its pin: not in pe_loop, which leaves the balls parked. -/
def drivesPin (s : State) : Bool := coreDrives s && !bit (stored s Reg.test) 0

/-- The levels of a channel's DRV and DEN pairs, where boundary scan leaves them to the core: parked, both are 0. -/
def ballLevels (s : State) (ch : Nat) : Bool × Bool :=
  (drivesPin s && (getPin s ch).drv, drivesPin s && (getPin s ch).den)

/-- Whether MARK_OUT_n is high at `t` ftu: within the 8 ns of its latest pulse, and never on a shadow (R464). -/
def markHigh (s : State) (n : Nat) (t : Int) : Bool :=
  coreDrives s && (getMark s n).rise.any (fun u => decide (u ≤ t ∧ t < u + 65536))

/-- The level of a leg of a DRV or DEN pair as the core drives it (R160). -/
def ballLevel (s : State) : Ball → Option Bool
  | .pe ch .drv leg => some ((ballLevels s ch).1 = (leg = .p))
  | .pe ch .den leg => some ((ballLevels s ch).2 = (leg = .p))
  | _ => none

/-- BYPASS. -/
def execBypass (s : State) : Host.Outcome State Fault Refusal := .next (jtagLoad s 0xFF)

/-- IDCODE. -/
def execIdcode (s : State) : Host.Outcome State Fault Refusal := .next (jtagLoad s 0x01)

/-- SAMPLE/PRELOAD: the boundary cells take what was sampled or shifted in. -/
def execSamplePreload (cells : Bytes) (s : State) : Host.Outcome State Fault Refusal :=
  .next (jtagLoad { s with jtag := { s.jtag with cells := cells } } 0x02)

/-- EXTEST. -/
def execExtest (s : State) : Host.Outcome State Fault Refusal := .next (jtagLoad s 0x03)

/-- EXTEST_PULSE. -/
def execExtestPulse (s : State) : Host.Outcome State Fault Refusal := .next (jtagLoad s 0x04)

/-- EXTEST_TRAIN. -/
def execExtestTrain (s : State) : Host.Outcome State Fault Refusal := .next (jtagLoad s 0x05)

/-- CLAMP. -/
def execClamp (s : State) : Host.Outcome State Fault Refusal := .next (jtagLoad s 0x06)

/-- HIGHZ. -/
def execHighz (s : State) : Host.Outcome State Fault Refusal := .next (jtagLoad s 0x07)

/-! ### Unlock (R467) -/

/-- The Nolique makes a new challenge. -/
def newChallenge (s : State) : State :=
  let w := List.range 4
  let v := (w.map (fun i => (Config.freeWord (s.free + i)).toNat * 2 ^ (64 * i))).sum
  { s with free := s.free + 4, jtag := { s.jtag with challenge := v, issued := s.jtag.issued + 1 } }

/-- Whether the port is unlocked: the fuses are in lab state, or an unlock stands (R467). -/
def debugOpen (s : State) : Bool := s.boot.lab || s.jtag.scope ≠ 0

/-- Whether DEBUG may write: in lab state, or under scope 2 (R467, R468). -/
def debugWrites (s : State) : Bool := s.boot.lab || s.jtag.scope = 2

/-- UNLOCK: selects the unlock register and issues a challenge; after three failures it acts as BYPASS. -/
def execUnlock (s : State) : Host.Outcome State Fault Refusal :=
  .next (if 3 ≤ s.jtag.failures then jtagLoad s 0xFF else newChallenge (jtagLoad s 0x20))

/-- Whether an unlock is accepted (R467). -/
def unlockOk (s : State) (challenge : Bytes) (scope : Byte) (signature pubkey : Bytes) : Bool :=
  challenge = le 32 s.jtag.challenge && Config.sha384 pubkey = keyHash &&
    ecdsaP384 pubkey (Config.sha384 (challenge ++ [scope])) signature && (scope = 1 || scope = 2)

/-- UNLOCK_VERIFY: Update-DR with verify 1, while UNLOCK is loaded and has failed fewer than three times. -/
def execUnlockVerify (challenge : Bytes) (scope : Byte) (signature pubkey : Bytes) (s : State) :
    Host.Outcome State Fault Refusal :=
  if s.jtag.ir ≠ 0x20 ∨ 3 ≤ s.jtag.failures then .next s
  else
    let j := if unlockOk s challenge scope signature pubkey then { s.jtag with scope := scope.toNat }
      else { s.jtag with failures := s.jtag.failures + 1 }
    .next (newChallenge { s with jtag := j })

/-! ### Debug access (R468) -/

/-- DEBUG selects the debug register. -/
def execDebug (s : State) : Host.Outcome State Fault Refusal := .next (jtagLoad s 0x21)

/-- Set the result of a debug access: data, error, done. -/
def debugResult (s : State) (data : Nat) (error done : Bool) : State :=
  { s with jtag := { s.jtag with
      result := BitVec.ofNat 66 (data % 2 ^ 32 + 2 ^ 64 * b2n error + 2 ^ 65 * b2n done) } }

/-- A debug write of a register. One that finds the queue of a control port full has not run: done stays 0. -/
def debugWrite (s : State) (a value mask : Nat) : State :=
  if ¬ debugWrites s then debugResult s 0 true true
  else match writeReg s true a value mask with
    | .done s => debugResult s 0 false true
    | .wait => debugResult s 0 false false
    | .fail _ => debugResult s 0 true true

/-- A debug read of a register. -/
def debugRead (s : State) (a : Nat) : State :=
  if ¬ debugOpen s then debugResult s 0 true true
  else match readReg s a with
    | some r => debugResult r.2 r.1 false true
    | none => debugResult s 0 true true

/-- DEBUG_ACCESS: Update-DR of the debug register; with go 0 nothing runs. Where it makes Nimbus the consumer of an inbound
queue again, Nimbus goes on with it (R281). -/
def execDebugAccess (reg : BitVec 66) (s : State) : Host.Outcome State Fault Refusal :=
  let v := reg.toNat
  if s.jtag.ir ≠ 0x21 ∨ ¬ bit v 65 then .next s
  else if bit v 64 then
    let t := debugWrite s (bits v 63 32) (bits v 31 0) 0xFFFFFFFF
    .next (if (index (bits v 63 32) (Reg.dftCfg 0) 0x10 64).isSome then resumeQueues t else t)
  else .next (debugRead s (bits v 63 32))

/-- What Capture-DR loads into the selected register (R465, R467, R468): the identity, the unlock register, the result of the
debug access, the boundary cells; the bypass register reads 0. -/
def captureDr (s : State) : Nat :=
  let j := s.jtag
  if j.ir = 0x01 then 0x14E565B3
  else if 2 ≤ j.ir ∧ j.ir ≤ 5 then leVal j.cells
  else if j.ir = 0x20 ∧ j.failures < 3 then j.challenge + 2 ^ 1801 * b2n (j.scope ≠ 0) + 2 ^ 1802 * j.failures
  else if j.ir = 0x21 then j.result.toNat
  else 0

/-! ### Test modes (R469) -/

/-- Set a field of SYS_TEST through DEBUG. -/
def testField (s : State) (lo w v : Nat) : State :=
  if s.jtag.ir ≠ 0x21 then s else debugWrite s Reg.test (v % 2 ^ w * 2 ^ lo) ((2 ^ w - 1) * 2 ^ lo)

/-- PE_LOOP: DRV goes to CMPH and DEN to CMPL; the balls stay parked. -/
def execPeLoop (on : Bool) (s : State) : Host.Outcome State Fault Refusal := .next (testField s 0 1 (b2n on))

/-- JET_LOOP: near-end loopback on the named ports. -/
def execJetLoop (ports : BitVec 4) (s : State) : Host.Outcome State Fault Refusal := .next (testField s 1 4 ports.toNat)

/-- PRBS: PRBS31 on looped lanes; `errors` is how many bit errors the check finds. -/
def execPrbs (on : Bool) (errors : Nat) (s : State) : Host.Outcome State Fault Refusal :=
  let t := testField s 5 1 (b2n on)
  let runs : Bool := bit (stored t Reg.test) 5 && decide (bits (stored t Reg.test) 4 1 ≠ 0)
  .next (if runs then regBump t Reg.testStat 0 16 errors else t)

/-- BIST_GO: the SRAM test starts and suspends admission. -/
def execBistGo (s : State) : Host.Outcome State Fault Refusal := .next (testField s 6 1 1)

/-- BIST_COMPLETE: the SRAM test ends and admission resumes. -/
def execBistComplete (failed : Bool) (s : State) : Host.Outcome State Fault Refusal :=
  if s.bist then
    let s := regPut (regPut s Reg.testStat 16 1 1) Reg.testStat 17 1 (b2n failed)
    .next (reexamine { s with bist := false })
  else .next s

end Sys2Proof.Machine
end

