-- ==== Sys2Proof/Machine/Dispatch.lean ====
section
/-! DEFINITION. Each command's meaning, one arm per row of the table of operations and events. -/

namespace Sys2Proof.Machine

def exec (i : Instr) (s : State) : Host.Outcome State Fault Refusal :=
  match i with
  -- jobs (chapter 01)
  | .jobSubmit f => Sys2Proof.Machine.execJobSubmit f s
  | .jobCancel f => Sys2Proof.Machine.execJobCancel f s
  | .jobAdmit => Sys2Proof.Machine.execJobAdmit s
  | .admissionWaitExpiry tag => Sys2Proof.Machine.execAdmissionWaitExpiry tag s
  | .cancelMemoExpiry => Sys2Proof.Machine.execCancelMemoExpiry s
  | .timedStartRecheck d => Sys2Proof.Machine.execTimedStartRecheck d s
  | .engineStart d => Sys2Proof.Machine.execEngineStart d s
  | .jobStart d => Sys2Proof.Machine.execJobStart d s
  | .jobStatusCommit d => Sys2Proof.Machine.execJobStatusCommit d s
  | .ledgerResultSend d parity => Sys2Proof.Machine.execLedgerResultSend d parity s
  -- engines (chapters 02 and 03)
  | .microwordExecute d k upset => Sys2Proof.Machine.execMicrowordExecute d k upset s
  | .controlStoreReloadDone ch digestOk readbackOk => Sys2Proof.Machine.execControlStoreReloadDone ch digestOk readbackOk s
  | .nop d k => Sys2Proof.Machine.execNop d k s
  | .vec d k e => Sys2Proof.Machine.execVec d k e s
  | .rpt d k e reps => Sys2Proof.Machine.execRpt d k e reps s
  | .loop d k e count => Sys2Proof.Machine.execLoop d k e count s
  | .endl d k e => Sys2Proof.Machine.execEndl d k e s
  | .call d k e target => Sys2Proof.Machine.execCall d k e target s
  | .ret d k e => Sys2Proof.Machine.execRet d k e s
  | .jmp d k e target lpop => Sys2Proof.Machine.execJmp d k e target lpop s
  | .jsc d k e target lpop cond sense reduce => Sys2Proof.Machine.execJsc d k e target lpop cond sense reduce s
  | .jev d k e target lpop event keep => Sys2Proof.Machine.execJev d k e target lpop event keep s
  | .wordMatch d k e target lpop cond passes => Sys2Proof.Machine.execWordMatch d k e target lpop cond passes s
  | .wait d k e target lpop event passes => Sys2Proof.Machine.execWait d k e target lpop event passes s
  | .barr d k e => Sys2Proof.Machine.execBarr d k e s
  | .tset d k e set => Sys2Proof.Machine.execTset d k e set s
  | .fmask d k e entry => Sys2Proof.Machine.execFmask d k e entry s
  | .ledgSelect d k e inc item => Sys2Proof.Machine.execLedgSelect d k e inc item s
  | .ledgCommit d k e => Sys2Proof.Machine.execLedgCommit d k e s
  | .ledgCommitSelect d k e inc item => Sys2Proof.Machine.execLedgCommitSelect d k e inc item s
  | .ledgerCommit d k parity => Sys2Proof.Machine.execLedgerCommit d k parity s
  | .mark d k e aurora markOut squall ring code => Sys2Proof.Machine.execMark d k e aurora markOut squall ring code s
  | .capt d k e banks action => Sys2Proof.Machine.execCapt d k e banks action s
  | .apg d k e banks entry vcount => Sys2Proof.Machine.execApg d k e banks entry vcount s
  | .halt d k e => Sys2Proof.Machine.execHalt d k e s
  -- supply, generators, timing, compare (chapters 04 to 07)
  | .vectorPop d parity => Sys2Proof.Machine.execVectorPop d parity s
  | .keepAliveEnd d k => Sys2Proof.Machine.execKeepAliveEnd d k s
  | .compareReturn d readings => Sys2Proof.Machine.execCompareReturn d readings s
  | .refillRequest b borrow => Sys2Proof.Machine.execRefillRequest b borrow s
  | .refillLanding ch => Sys2Proof.Machine.execRefillLanding ch s
  | .cumulusInstruction b parity => Sys2Proof.Machine.execCumulusInstruction b parity s
  | .cumulusRewriteDone b readbackOk => Sys2Proof.Machine.execCumulusRewriteDone b readbackOk s
  -- Virga and Squall (chapters 08 and 09)
  | .virgaStamp ch kinds c r => Sys2Proof.Machine.execVirgaStamp ch kinds c r s
  | .virgaRunCalibration ch sum1 sum2 => Sys2Proof.Machine.execVirgaRunCalibration ch sum1 sum2 s
  | .virgaGapCalibration ch sum1 sum2 => Sys2Proof.Machine.execVirgaGapCalibration ch sum1 sum2 s
  | .eventWordArrival b word => Sys2Proof.Machine.execEventWordArrival b word s
  | .squallArm b v => Sys2Proof.Machine.execSquallArm b v s
  | .squallForceTrigger b v => Sys2Proof.Machine.execSquallForceTrigger b v s
  | .squallStop b v => Sys2Proof.Machine.execSquallStop b v s
  | .triggerExit b parity => Sys2Proof.Machine.execTriggerExit b parity s
  | .segmentClose b => Sys2Proof.Machine.execSegmentClose b s
  | .rearmGapEnd b => Sys2Proof.Machine.execRearmGapEnd b s
  | .pinStateRecordComplete b => Sys2Proof.Machine.execPinStateRecordComplete b s
  | .captureSend b parity => Sys2Proof.Machine.execCaptureSend b parity s
  -- Aurora (chapter 10)
  | .auroraStart n src ball => Sys2Proof.Machine.execAuroraStart n src ball s
  | .jumpRequestArrival n src sample => Sys2Proof.Machine.execJumpRequestArrival n src sample s
  | .jumpRequestRegister n => Sys2Proof.Machine.execJumpRequestRegister n s
  | .auroraJump n => Sys2Proof.Machine.execAuroraJump n s
  | .auroraStepEnd n => Sys2Proof.Machine.execAuroraStepEnd n s
  | .auroraUnderrun n sample => Sys2Proof.Machine.execAuroraUnderrun n sample s
  | .auroraRefillRequest n borrow sample => Sys2Proof.Machine.execAuroraRefillRequest n borrow sample s
  | .auroraRefillLanding n => Sys2Proof.Machine.execAuroraRefillLanding n s
  | .openLoadCheck n highLeg => Sys2Proof.Machine.execOpenLoadCheck n highLeg s
  | .complianceViolation n sample => Sys2Proof.Machine.execComplianceViolation n sample s
  -- Jetstream (chapter 11)
  | .markerSend p => Sys2Proof.Machine.execMarkerSend p s
  | .markerReceive lane groups inverted skew => Sys2Proof.Machine.execMarkerReceive lane groups inverted skew s
  | .cdrLockLoss lane signal => Sys2Proof.Machine.execCdrLockLoss lane signal s
  | .mainPathTimeout p => Sys2Proof.Machine.execMainPathTimeout p s
  | .fallbackTimeout p => Sys2Proof.Machine.execFallbackTimeout p s
  | .linkIdleExpiry p => Sys2Proof.Machine.execLinkIdleExpiry p s
  | .deepIdleEntry p => Sys2Proof.Machine.execDeepIdleEntry p s
  | .deepIdleExit p woken => Sys2Proof.Machine.execDeepIdleExit p woken s
  | .deepIdleExitTimeout p => Sys2Proof.Machine.execDeepIdleExitTimeout p s
  | .frameTransmit p columns elapsed => Sys2Proof.Machine.execFrameTransmit p columns elapsed s
  | .timestampBlockReceive p elapsed => Sys2Proof.Machine.execTimestampBlockReceive p elapsed s
  | .creditBlockReceive p q count bad => Sys2Proof.Machine.execCreditBlockReceive p q count bad s
  | .creditBlockSend p q elapsed => Sys2Proof.Machine.execCreditBlockSend p q elapsed s
  -- Drift (chapter 12)
  | .packetCommit q stage ty flags tag payload mismatch => Sys2Proof.Machine.execPacketCommit q stage ty flags tag payload mismatch s
  | .linePop q damage => Sys2Proof.Machine.execLinePop q damage s
  | .dftPop value => Sys2Proof.Machine.execDftPop value s
  | .failLogFrameCommit d => Sys2Proof.Machine.execFailLogFrameCommit d s
  | .read f parity => Sys2Proof.Machine.execRead f parity s
  | .regWrite f => Sys2Proof.Machine.execRegWrite f s
  | .regRead f => Sys2Proof.Machine.execRegRead f s
  | .loadOpen f => Sys2Proof.Machine.execLoadOpen f s
  | .loadData f => Sys2Proof.Machine.execLoadData f s
  | .loadClose f => Sys2Proof.Machine.execLoadClose f s
  | .loadFree f => Sys2Proof.Machine.execLoadFree f s
  | .loadAbort f => Sys2Proof.Machine.execLoadAbort f s
  -- Horizon requests (chapter 17)
  | .calSetBoardTerms f => Sys2Proof.Machine.execCalSetBoardTerms f s
  | .calSetCalibrate f => Sys2Proof.Machine.execCalSetCalibrate f s
  | .calSetLoadChannelRecords f => Sys2Proof.Machine.execCalSetLoadChannelRecords f s
  | .calSetLoadAuroraRecords f => Sys2Proof.Machine.execCalSetLoadAuroraRecords f s
  | .calSetSave f => Sys2Proof.Machine.execCalSetSave f s
  | .calSetConfigure f => Sys2Proof.Machine.execCalSetConfigure f s
  -- Zenith (chapter 13)
  | .timeSetSet f => Sys2Proof.Machine.execTimeSetSet f s
  | .timeSetConfigure f => Sys2Proof.Machine.execTimeSetConfigure f s
  | .timeSetLaunch f => Sys2Proof.Machine.execTimeSetLaunch f s
  | .timedLaunch => Sys2Proof.Machine.execTimedLaunch s
  | .syncRequest f => Sys2Proof.Machine.execSyncRequest f s
  | .syncResponse f => Sys2Proof.Machine.execSyncResponse f s
  | .syncExchangeStart => Sys2Proof.Machine.execSyncExchangeStart s
  | .syncExchangeTimeout => Sys2Proof.Machine.execSyncExchangeTimeout s
  | .syncQualityExpiry => Sys2Proof.Machine.execSyncQualityExpiry s
  | .zenTimeSnapshot => Sys2Proof.Machine.execZenTimeSnapshot s
  -- recovery and power requests (chapters 16 and 18)
  | .recover f => Sys2Proof.Machine.execRecover f s
  | .powerSleep f => Sys2Proof.Machine.execPowerSleep f s
  | .powerHold f => Sys2Proof.Machine.execPowerHold f s
  | .powerDramPoint f => Sys2Proof.Machine.execPowerDramPoint f s
  | .powerWarmReset f boot => Sys2Proof.Machine.execPowerWarmReset f boot s
  | .powerConfigure f => Sys2Proof.Machine.execPowerConfigure f s
  | .holdExpiry u => Sys2Proof.Machine.execHoldExpiry u s
  | .unitIdleTimeout u => Sys2Proof.Machine.execUnitIdleTimeout u s
  | .unitDozeTimeout u => Sys2Proof.Machine.execUnitDozeTimeout u s
  | .unitWake u => Sys2Proof.Machine.execUnitWake u s
  -- DRAM (chapter 14)
  | .refresh sub => Sys2Proof.Machine.execRefresh sub s
  | .patrolScrubRead fault => Sys2Proof.Machine.execPatrolScrubRead fault s
  | .dramRead port burst fault => Sys2Proof.Machine.execDramRead port burst fault s
  | .alertN sub writes persist => Sys2Proof.Machine.execAlertN sub writes persist s
  | .modeRegisterCheck sub bad => Sys2Proof.Machine.execModeRegisterCheck sub bad s
  | .selfRefreshEntry => Sys2Proof.Machine.execSelfRefreshEntry s
  | .selfRefreshExit => Sys2Proof.Machine.execSelfRefreshExit s
  -- clocks (chapter 15)
  | .refclkAbsent => Sys2Proof.Machine.execRefclkAbsent s
  | .refclkPresent => Sys2Proof.Machine.execRefclkPresent s
  | .pllWindowClose n count => Sys2Proof.Machine.execPllWindowClose n count s
  | .pllFeedbackTimeout n => Sys2Proof.Machine.execPllFeedbackTimeout n s
  | .pllLockTimeout n => Sys2Proof.Machine.execPllLockTimeout n s
  | .ddrPllRelockTimeout => Sys2Proof.Machine.execDdrPllRelockTimeout s
  -- temperature and supply (chapter 16)
  | .diodeReading value => Sys2Proof.Machine.execDiodeReading value s
  | .ringOscillatorRead raw => Sys2Proof.Machine.execRingOscillatorRead raw s
  | .throttleGraceExpiry => Sys2Proof.Machine.execThrottleGraceExpiry s
  | .bankCapDecrement => Sys2Proof.Machine.execBankCapDecrement s
  | .dipBegin r => Sys2Proof.Machine.execDipBegin r s
  | .dipEnd r samples => Sys2Proof.Machine.execDipEnd r samples s
  | .dipFault r => Sys2Proof.Machine.execDipFault r s
  | .supplyReset boot => Sys2Proof.Machine.execSupplyReset boot s
  | .telemetry => Sys2Proof.Machine.execTelemetry s
  -- Horizon (chapter 17)
  | .backgroundCalibrationStart => Sys2Proof.Machine.execBackgroundCalibrationStart s
  | .calibrationRunComplete item values => Sys2Proof.Machine.execCalibrationRunComplete item values s
  | .fence => Sys2Proof.Machine.execFence s
  -- Anvil (chapter 18)
  | .faultNotice => Sys2Proof.Machine.execFaultNotice s
  | .nimbusWatchdogExpiry => Sys2Proof.Machine.execNimbusWatchdogExpiry s
  | .nimbusDrainEnd boot => Sys2Proof.Machine.execNimbusDrainEnd boot s
  | .recoveryDrainEnd boot => Sys2Proof.Machine.execRecoveryDrainEnd boot s
  | .recoveryComplete pllFails => Sys2Proof.Machine.execRecoveryComplete pllFails s
  -- Daybreak (chapter 19)
  | .powerOnReset boot => Sys2Proof.Machine.execPowerOnReset boot s
  | .resetN boot => Sys2Proof.Machine.execResetN boot s
  | .refclkWaitTimeout => Sys2Proof.Machine.execRefclkWaitTimeout s
  | .portHWaitTimeout => Sys2Proof.Machine.execPortHWaitTimeout s
  -- ring and pair (chapter 20)
  | .globalEvent f => Sys2Proof.Machine.execGlobalEvent f s
  | .pairDigest f => Sys2Proof.Machine.execPairDigest f s
  | .digestTimeout d window => Sys2Proof.Machine.execDigestTimeout d window s
  | .pairTakeover f => Sys2Proof.Machine.execPairTakeover f s
  | .pairOwnInLow => Sys2Proof.Machine.execPairOwnInLow s
  | .pairOwnConflict => Sys2Proof.Machine.execPairOwnConflict s
  | .ownerClaim => Sys2Proof.Machine.execOwnerClaim s
  -- pins and test (chapter 21)
  | .extTrig n => Sys2Proof.Machine.execExtTrig n s
  | .markOut n => Sys2Proof.Machine.execMarkOut n s
  | .sysPecWr o word => Sys2Proof.Machine.execSysPecWr o word s
  | .pecFrameComplete o status data crc => Sys2Proof.Machine.execPecFrameComplete o status data crc s
  | .csDiagRead value => Sys2Proof.Machine.execCsDiagRead value s
  | .csDiagReadDone => Sys2Proof.Machine.execCsDiagReadDone s
  | .bypass => Sys2Proof.Machine.execBypass s
  | .idcode => Sys2Proof.Machine.execIdcode s
  | .samplePreload cells => Sys2Proof.Machine.execSamplePreload cells s
  | .extest => Sys2Proof.Machine.execExtest s
  | .extestPulse => Sys2Proof.Machine.execExtestPulse s
  | .extestTrain => Sys2Proof.Machine.execExtestTrain s
  | .clamp => Sys2Proof.Machine.execClamp s
  | .highz => Sys2Proof.Machine.execHighz s
  | .unlock => Sys2Proof.Machine.execUnlock s
  | .unlockVerify challenge scope signature pubkey => Sys2Proof.Machine.execUnlockVerify challenge scope signature pubkey s
  | .debug => Sys2Proof.Machine.execDebug s
  | .debugAccess reg => Sys2Proof.Machine.execDebugAccess reg s
  | .peLoop on => Sys2Proof.Machine.execPeLoop on s
  | .jetLoop ports => Sys2Proof.Machine.execJetLoop ports s
  | .prbs on errors => Sys2Proof.Machine.execPrbs on errors s
  | .bistGo => Sys2Proof.Machine.execBistGo s
  | .bistComplete failed => Sys2Proof.Machine.execBistComplete failed s
  | .nclkTick => Sys2Proof.Machine.execNclkTick s
  | .gridOffsetMeasurement elapsed => Sys2Proof.Machine.execGridOffsetMeasurement elapsed s
  | .cdrLock lane => Sys2Proof.Machine.execCdrLock lane s
  | .auroraParityError n sample testOk => Sys2Proof.Machine.execAuroraParityError n sample testOk s
  | .nimbusMemoryError => Sys2Proof.Machine.execNimbusMemoryError s
  | .bgIntervalExpiry item => Sys2Proof.Machine.execBgIntervalExpiry item s
  | .twinkleTransition => Sys2Proof.Machine.execTwinkleTransition s

end Sys2Proof.Machine
end

