-- ==== Sys2Proof/WellFormed.lean ====
section
/-! DEFINITION. Which commands the manual's encodings and ranges admit: the field widths of a frame (R274), the operand
ranges of a sequence word (R44), and the ranges of the physical outcomes an event carries. -/

namespace Sys2Proof

/-- A frame as the wire can carry it: 8-bit type and queue, a 32-bit length, at most 65,536 payload bytes (R274). -/
def Frame.wf (f : Frame) : Bool :=
  decide (f.ty < 256) && decide (f.queue < 256) && decide (f.length < 2 ^ 32) && decide (f.payload.length ≤ 65536)

/-- The emission of a word whose ecount lies in a range (R44). -/
def Emit.within (e : Emit) (lo hi : Nat) : Bool := decide (lo ≤ e.ecount.toNat) && decide (e.ecount.toNat ≤ hi)

/-- A count that is stored as value minus one in 32 bits (R44). -/
def count32 (n : Nat) : Bool := decide (1 ≤ n) && decide (n ≤ 2 ^ 32)

/-- A branch: a 16-bit target and at most eight levels to close (R41, R44). -/
def branchOk (target lpop : Nat) : Bool := decide (target < 65536) && decide (lpop ≤ 8)

/-- The conditions of a `JSC` that read site state: its ecount is 1 to 16 for them (R44, R57). -/
def siteCond (c : BitVec 7) : Bool := decide (c.toNat < 0x60)

/-- A source of an Aurora channel: an event number is below 24 (R58). -/
def AurSource.wf : AurSource → Bool
  | .mark _ => true
  | .event n => decide (n < 24)

/-- An event word as R190 lays it out: a 64-bit stamp and a 16-bit count of lost transitions. -/
def EventWord.wf (w : EventWord) : Bool := decide (w.stamp < 2 ^ 64) && decide (w.lost < 65536)

/-- An image copy: a 736-byte header at least, and at most the bytes a copy may have (R415). -/
def imageWf (b : Bytes) : Bool := decide (736 ≤ b.length) && decide (b.length ≤ 14680064)

/-- The outcomes of a start: both flash copies well formed, and a density that R315 supports. -/
def BootInput.wf (b : BootInput) : Bool := imageWf b.copyA && imageWf b.copyB && (b.density = 16 || b.density = 24 || b.density = 32)

/-- Whether a command is well formed. -/
def WellFormed : Instr → Bool
  | .jobSubmit f | .jobCancel f | .read f _ | .regWrite f | .regRead f | .loadOpen f | .loadData f | .loadClose f
  | .loadFree f | .loadAbort f | .calSetBoardTerms f | .calSetCalibrate f | .calSetLoadChannelRecords f
  | .calSetLoadAuroraRecords f | .calSetSave f | .calSetConfigure f | .timeSetSet f | .timeSetConfigure f
  | .timeSetLaunch f | .syncRequest f | .syncResponse f | .recover f | .powerSleep f | .powerHold f | .powerDramPoint f
  | .powerConfigure f | .globalEvent f | .pairDigest f | .pairTakeover f => f.wf
  | .powerWarmReset f b => f.wf && b.wf
  | .nimbusDrainEnd b | .recoveryDrainEnd b | .powerOnReset b | .resetN b | .supplyReset b => b.wf
  | .vec _ _ e => e.within 1 65535
  | .rpt _ _ e reps => e.within 1 16 && count32 reps
  | .loop _ _ _ count => count32 count
  | .call _ _ _ target => decide (target < 65536)
  | .jmp _ _ _ target lpop => branchOk target lpop
  | .jsc _ _ e target lpop cond _ _ => branchOk target lpop && (!siteCond cond || e.within 1 16)
  | .jev _ _ _ target lpop _ _ => branchOk target lpop
  | .wordMatch _ _ e target lpop _ passes => e.within 1 64 && branchOk target lpop && count32 passes
  | .wait _ _ e target lpop _ passes => e.within 1 16 && branchOk target lpop && count32 passes
  | .barr _ _ e => e.within 1 16
  | .apg _ _ e _ entry vcount => e.within 0 0 && decide (entry < 65536) && count32 vcount
  | .eventWordArrival _ w => w.wf
  | .auroraStart _ src _ | .jumpRequestArrival _ src _ => src.wf
  | .packetCommit _ _ ty _ _ payload _ => decide (ty < 256) && decide (payload.length ≤ 65536)
  | .linePop _ damage => match damage with
    | some m => decide (1 ≤ m) && decide (m ≤ 3)
    | none => true
  | .ringOscillatorRead raw => decide (raw.length = 8)
  | .unlockVerify challenge _ signature pubkey =>
    decide (challenge.length = 32) && decide (signature.length = 96) && decide (pubkey.length = 96)
  | .jobAdmit | .admissionWaitExpiry _ | .cancelMemoExpiry | .timedStartRecheck _ | .engineStart _ | .jobStart _
  | .jobStatusCommit _ | .ledgerResultSend _ _ | .microwordExecute _ _ _ | .controlStoreReloadDone _ _ _ | .nop _ _
  | .endl _ _ _ | .ret _ _ _ | .tset _ _ _ _ | .fmask _ _ _ _ | .ledgSelect _ _ _ _ _ | .ledgCommit _ _ _
  | .ledgCommitSelect _ _ _ _ _ | .ledgerCommit _ _ _ | .mark _ _ _ _ _ _ _ _ | .capt _ _ _ _ _ | .halt _ _ _
  | .vectorPop _ _ | .keepAliveEnd _ _ | .compareReturn _ _ | .refillRequest _ _ | .refillLanding _
  | .cumulusInstruction _ _ | .cumulusRewriteDone _ _ | .virgaStamp _ _ _ _ | .virgaRunCalibration _ _ _
  | .virgaGapCalibration _ _ _ | .squallArm _ _ | .squallForceTrigger _ _ | .squallStop _ _ | .triggerExit _ _
  | .segmentClose _ | .rearmGapEnd _ | .pinStateRecordComplete _ | .captureSend _ _ | .jumpRequestRegister _
  | .auroraJump _ | .auroraStepEnd _ | .auroraUnderrun _ _ | .auroraRefillRequest _ _ _ | .auroraRefillLanding _
  | .openLoadCheck _ _ | .complianceViolation _ _ | .markerSend _ | .markerReceive _ _ _ _ | .cdrLockLoss _ _
  | .mainPathTimeout _ | .fallbackTimeout _ | .linkIdleExpiry _ | .deepIdleEntry _ | .deepIdleExit _ _
  | .deepIdleExitTimeout _ | .frameTransmit _ _ _ | .timestampBlockReceive _ _ | .creditBlockReceive _ _ _ _
  | .creditBlockSend _ _ _ | .dftPop _ | .failLogFrameCommit _ | .timedLaunch | .syncExchangeStart
  | .syncExchangeTimeout | .syncQualityExpiry | .zenTimeSnapshot | .holdExpiry _ | .unitIdleTimeout _
  | .unitDozeTimeout _ | .unitWake _ | .refresh _ | .patrolScrubRead _ | .dramRead _ _ _ | .alertN _ _ _
  | .modeRegisterCheck _ _ | .selfRefreshEntry | .selfRefreshExit | .refclkAbsent | .refclkPresent
  | .pllWindowClose _ _ | .pllFeedbackTimeout _ | .pllLockTimeout _ | .ddrPllRelockTimeout | .diodeReading _
  | .throttleGraceExpiry | .bankCapDecrement | .dipBegin _ | .dipEnd _ _ | .dipFault _ | .telemetry
  | .backgroundCalibrationStart | .calibrationRunComplete _ _ | .fence | .faultNotice | .nimbusWatchdogExpiry
  | .recoveryComplete _ | .refclkWaitTimeout | .portHWaitTimeout | .digestTimeout _ _ | .pairOwnInLow
  | .pairOwnConflict | .ownerClaim | .extTrig _ | .markOut _ | .sysPecWr _ _ | .pecFrameComplete _ _ _ _
  | .csDiagRead _ | .csDiagReadDone | .bypass | .idcode | .samplePreload _ | .extest | .extestPulse | .extestTrain
  | .clamp | .highz | .unlock | .debug | .debugAccess _ | .peLoop _ | .jetLoop _ | .prbs _ _ | .bistGo
  | .bistComplete _ | .nclkTick | .gridOffsetMeasurement _ | .cdrLock _ | .auroraParityError _ _ _
  | .nimbusMemoryError | .bgIntervalExpiry _ | .twinkleTransition => true

end Sys2Proof
end

