-- ==== Sys2Proof/Safety.lean ====
section
/-! DEFINITION. The terms the statements use: what counts as a safe run, and the conditions on a state and a command's
operands under which the command has its effect. -/

namespace Sys2Proof.Machine

/-- A step stops where it answers a fault or a refusal. -/
def Stops (s : State) : Prop := ∀ t, step s ≠ .next t

/-- The flow that site `k` of slot `d` follows. -/
def flowOf (s : State) (d k : Nat) : Nat := flowIx (getDom s d).payload k

/-- The flow record of site `k` of slot `d`. -/
def theFlow (s : State) (d k : Nat) : Flow := getFlow s d (flowOf s d k)

/-- The ECLK of slot `d` now, counted from the start of its engines. -/
def theClock (s : State) (d : Nat) : Nat := clock (getDom s d)

/-- No event is pending in the sites of a flow (R86). -/
abbrev Undisturbed (s : State) (d fi : Nat) : Prop :=
  ∀ j ∈ flowActive s d fi,
    pending (getSite s d j).cancelDue (theClock s d) = false ∧ pending (getSite s d j).stopDue (theClock s d) = false

/-- The engine of site `k` dispatches the word `i`: the engines run, the site is in the program, the word before has pushed
its vectors and paid its cost, no event is pending, and NSA names `i` in the job's image (R43, R48, R84, R86). -/
abbrev Dispatches (s : State) (d : Fin 16) (k : Fin 256) (i : Instr) : Prop :=
  canDispatch s d (flowOf s d k) = true ∧ k < (getDom s d).sites ∧ Undisturbed s d (flowOf s d k) ∧
    (theFlow s d k).nsa < progWords (seqImage s (getDom s d).payload) ∧ spells s d k (theFlow s d k).nsa i = true

/-- The engine of site `k` stands in the word `i` of opcode `op`, first vector `v`, whose decision is open (R56, R60, R62). -/
abbrev Redispatches (s : State) (d : Fin 16) (k : Fin 256) (i : Instr) (op v : Nat) : Prop :=
  running (getDom s d) = true ∧ k < (getDom s d).sites ∧ flowActive s d (flowOf s d k) ≠ [] ∧
    spells s d k (theFlow s d k).sa i = true ∧ (theFlow s d k).waits = .word op v ∧ Undisturbed s d (flowOf s d k)

/-- The engine of site `k` has pushed the emission of the word `i` of opcode `op` and paid its cost, so that the word acts
(R46). -/
abbrev Finishes (s : State) (d : Fin 16) (k : Fin 256) (i : Instr) (op : Nat) : Prop :=
  running (getDom s d) = true ∧ k < (getDom s d).sites ∧ flowActive s d (flowOf s d k) ≠ [] ∧
    spells s d k (theFlow s d k).sa i = true ∧ (theFlow s d k).pushed = (theFlow s d k).nextV ∧ (theFlow s d k).costs = [] ∧
    inWord s d k op = true

/-- The engines of site `k` read a microword in the present ECLK: they run, the site is in the program and follows its flow, no
word command is under way, and they have executed none in this ECLK (R77). -/
abbrev Reads (s : State) (d : Fin 16) (k : Fin 256) : Prop :=
  running (getDom s d) = true ∧ k < (getDom s d).sites ∧ siteGone (getSite s d k) = false ∧ (getSite s d k).routine = none ∧
    flowActive s d (flowOf s d k) ≠ [] ∧
    (theFlow s d k).waits = .none ∧ (theFlow s d k).pushed = (theFlow s d k).nextV ∧ (theFlow s d k).costs = [] ∧
    (theFlow s d k).micro.ran ≠ theClock s d + 1

/-- A word advances SA and NSA and pushes `n` vectors of its source under the settings of `g` (R43, R45). -/
def Plays (f g : Flow) (e : Emit) (n : Nat) : Prop :=
  g.sa = f.nsa ∧ g.nextV = f.nextV + n ∧ (n = 0 → g.queue = f.queue) ∧
    (0 < n → ∃ r, g.queue = f.queue ++ [r] ∧ r.v = f.nextV ∧ r.count = n ∧ r.src = e.src ∧ r.sym = e.sym.toNat ∧
      r.tset = g.tset ∧ r.mask = g.mask ∧ r.item = g.item)

/-- The symbol that an emission plays on channel `ch` at offset `i` of its block, under the flow before the word (R43). -/
def sourceSym (str : Bytes) (f : Flow) (e : Emit) (ch i : Nat) : Nat :=
  match e.src with
  | .const => e.sym.toNat
  | .again => tget 0 f.last ch
  | .stream => strSym str ch (tget 0 f.pos ch + i)

/-- A frame of type `ty` arrives on a port that is Up, its port accepts it, and Nimbus takes it at once: no start runs, Nimbus
has not failed, the JTAG reader is not the consumer of its queue, no frame waits before it, and no merge window stands open
(R265, R278, R281, R289, R402, R404). -/
abbrev Arrives (s : State) (f : Frame) (ty : Nat) : Prop :=
  f.ty = ty ∧ (getPort s f.port).state = .up ∧ discardReason s f = 0 ∧ nimbusStopped s (inQueue f) = false ∧
    s.inbox.any (fun e => inQueue e.frame = inQueue f) = false ∧ s.anvil.window = false

/-- A frame committed to queue `q` with `n` bytes of payload joins it at once: the queue has storage and room, no merge window
stands open, and Nimbus has not failed (R280, R282, R394, R404). -/
abbrev Takes (s : State) (q n : Nat) : Prop :=
  s.anvil.window = false ∧ s.anvil.stopped = false ∧ (getQueue s q).lines ≠ 0 ∧ fits (openQueue s q) n = true

/-- The device handles requests: it is in service and Running, no earlier request is still owed its reply, and its reply queue
takes a READ_REPLY with `n` bytes of data (R282, R290, R403). -/
abbrev Serves (s : State) (n : Nat) : Prop :=
  s.boot.state = 1 ∧ s.anvil.state = .running ∧ s.owed = [] ∧ Takes s 17 (16 + n)

/-- A request is answered: one READ_REPLY joins queue 17 that carries its type, number and tag, the status, the detail
and the data (R291). -/
def Answers (s t : State) (f : Frame) (status detail : Nat) (data : Bytes) : Prop :=
  ∃ k, (getQueue t 17).packets = (getQueue s 17).packets ++ [k] ∧ k.ty = 0x49 ∧ k.tag = f.tag ∧
    k.payload = le 1 f.ty ++ le 1 status ++ le 2 0 ++ le 4 f.seq.toNat ++ le 4 data.length ++ le 4 detail ++ data

/-- A fault of source `src` stands latched, its merge window open, with every channel parked (R393, R397). -/
def Faulted (t : State) (src : Nat) : Prop :=
  t.anvil.state = .faulted ∧ t.anvil.valid = true ∧ t.anvil.source = src ∧ t.anvil.window = true ∧ t.owner = false ∧
    ∀ ch, (getPin t ch).drv = false ∧ (getPin t ch).den = false ∧ (getPin t ch).edges = []

/-- A Zenith time in range: nanoseconds below 10^9 and a fraction below one nanosecond (R301). -/
def ZTime.InRange (t : ZTime) : Prop := t.ns < 1000000000 ∧ t.frac < 4294967296

/-- What every step keeps: the counter and the times about to be set are in range (R301, R302), the cancel memo holds at most
16 tags (R37), JTAG has met at most three failed verifications and grants scope 0, 1 or 2 (R467), and the raw DRAM keeps its
canonical form. -/
structure Sound (s : State) : Prop where
  time     : s.zenith.time.InRange
  set      : ∀ p ∈ s.zenith.pendingSet, p.1.InRange
  memo     : s.memo.length ≤ 16
  failures : s.jtag.failures ≤ 3
  scope    : s.jtag.scope ≤ 2
  cells    : Memory.wf s.dram.cells

end Sys2Proof.Machine
end

