-- ==== Sys2Proof/Certificates/Slice0/Obligations.lean ====
section
/-! DEFINITION. The statements for the provers, chapter by chapter of the spec. A statement about a command has as its conclusion
that `exec` answers a next state, under hypotheses on the state and the command's operands alone; rules are named in the
docstrings, and each clause says as much of them as it states. -/

open Sys2Proof Sys2Proof.Machine

/-- A step takes the command at the front of the queue and runs it with the queue's rest; on an empty queue the block idles
(the model's choice: log entry 2). -/
def Obligations.StepRunsFront : Prop :=
  (∀ (c : Instr) (s : State), step { s with pending := c :: s.pending } = exec c s) ∧
  (∀ (c : Instr) (r : List Instr) (s : State), s.pending = c :: r → step s = exec c { s with pending := r }) ∧
  (∀ s : State, s.pending = [] → step s = .next s)

/-- No command stops the block, and none touches the commands that wait behind it: a condition the spec sets on an event
decides whether it has its effect, and the device's own faults (R387) are effects on the state. -/
def Obligations.NoCommandStops : Prop :=
  ∀ (c : Instr) (s : State), ∃ t, exec c s = .next t ∧ t.pending = s.pending

/-- After power-on and before the first start (R7, R161, R305, R368, R381, R388, R420): Zenith stands at second 0 without quality, every
channel is parked and unclaimed, the registers read their reset values, no fault is latched, no job, image or packet is
held, and the settings have their defaults. -/
def Obligations.ResetLeaves : Prop :=
  let s := State.reset
  s.pending = [] ∧ s.zenith.time = .zero ∧ s.zenith.lastAccept = none ∧ s.zenith.parent = 0 ∧ s.zenith.interval = 8 ∧
    s.zenith.asym = 100 ∧ s.anvil.state = .running ∧ s.anvil.valid = false ∧ s.anvil.faultSeq = 0 ∧
    s.power.idleUs = 10 ∧ s.power.dozeMs = 100 ∧ s.power.linkIdleMs = 20 ∧ s.power.graceMs = 2000 ∧
    s.horizon.bgEnable = true ∧ s.horizon.bgDelta = 40 ∧ s.horizon.bgInterval = 3600 ∧
    (∀ ch, (getPin s ch).drv = false ∧ (getPin s ch).den = false ∧ (getPin s ch).edges = [] ∧ (getPin s ch).dom = none) ∧
    (∀ d, (getDom s d).phase = .free) ∧ (∀ i, getCtx s i = .init) ∧ (∀ q, (getQueue s q).packets = []) ∧
    (∀ h, placed s h = false) ∧ regGet s Reg.drmScrub = 240 ∧ regGet s Reg.drmIdle = 1000 ∧
    (∀ a, a ≠ Reg.drmScrub → a ≠ Reg.drmIdle → regGet s a = 0)

/-- What holds of the block in every run from a sound state (R37, R301, R302, R467): every step keeps the Zenith counter
and a time about to be set in range, the cancel memo within 16 tags, the JTAG failures within 3 and the scope within 2,
and the raw DRAM in its canonical form. -/
def Obligations.EveryStepKeepsSound : Prop :=
  ∀ s t : State, Sound s → step s = .next t → Sound t

/-- The state after reset is sound. -/
def Obligations.ResetIsSound : Prop :=
  Sound State.reset

/-- JOB_SUBMIT and JOB_ADMIT (R9, R12, R21 to R25, R30, R104, R161, R175): with nothing waiting, a job that fails a check of 1 to 13 ends at once with the check's
status and reason; one that passes waits while admission is suspended; and one that passes every check is admitted to the
lowest free slot, with its pins claimed and parked, its rings sized and its contexts cleared but for scratch. -/
def Obligations.JobsAreJudgedAndAdmitted : Prop :=
  ∀ (s : State) (f : Frame),
    let p := f.payload
    let w : Waiting := { tag := f.tag, payload := p, entered := s.now, reason := 0, throttled := false }
    let admitted (t : State) (d : Nat) (w : Waiting) : Prop := (getDom t d).phase = .admitted ∧ (getDom t d).tag = w.tag ∧
      (getDom t d).payload = w.payload ∧ (getDom t d).sites = jobSites w.payload ∧ (getDom t d).admitAt = s.zenith.time ∧ t.window = [] ∧
      (∀ ch ∈ jobPins w.payload, (getPin t ch).dom = some d ∧ (getPin t ch).drv = false ∧ (getPin t ch).den = false ∧
        (getRing t ch).size = ringBytes s w.payload ch) ∧
      (∀ ch, ch ∉ jobPins w.payload → getPin t ch = getPin s ch) ∧
      (∀ i, i < jobRange w.payload → getCtx t (jobBase w.payload + i) =
        { Ctx.init with scratch := (getCtx s (jobBase w.payload + i)).scratch }) ∧
      (∀ i, i < jobBase w.payload ∨ jobBase w.payload + jobRange w.payload ≤ i → getCtx t i = getCtx s i) ∧
      (∀ e, e ≠ d → getDom t e = getDom s e)
    let may (w : Waiting) (d : Nat) : Prop := admits s = true ∧ waitReason s w.payload = 0 ∧ freeSlotOf s = some d ∧
      (jobTimed w.payload = true → zUnits s.zenith.time + us 100 * 4294967296 ≤ startGrid w.payload)
    (Arrives s f 0x01 → f.port = .host → readsWork s = true → s.held0 = [] → s.held1 = [] → s.memo = [] → s.window = [] →
      pairEnable s = false →
      (∀ status reason sites, rejects s f.tag p = some (status, reason, sites) → Takes s 16 64 → ∃ t k, exec (.jobSubmit f) s = .next t ∧
          (getQueue t 16).packets = (getQueue s 16).packets ++ [k] ∧ k.ty = 0x41 ∧ k.tag = f.tag ∧
          k.payload = statusPayload status reason 0 0xFF sites 0 0xFFFF 0 0 .zero .zero s.zenith.time ∧
          t.window = [] ∧ t.doms = s.doms ∧ t.ledger = s.ledger ∧ t.pins = s.pins) ∧
      (rejects s f.tag p = none → admits s = false → ∃ t, exec (.jobSubmit f) s = .next t ∧ t.window = [w] ∧ t.doms = s.doms ∧
        t.ledger = s.ledger ∧ t.pins = s.pins ∧ t.queues = (freeLines (acceptFrame s f) f).queues) ∧
      (∀ d, rejects s f.tag p = none → may w d → ∃ t, exec (.jobSubmit f) s = .next t ∧ admitted t d w)) ∧
    (∀ v d, s.window = [v] → s.held0 = [] → s.held1 = [] → may v d → ∃ t, exec .jobAdmit s = .next t ∧ admitted t d v)

/-- Cancels and waits (R24, R28, R35 to R37): a cancel of a waiting job ends it CANCELLED, of an admitted one ends it without a vector, of
a running one reaches every site in the present ECLK, of one whose JOB_STATUS is committed has no effect, and of an unknown tag
stands in the cancel memo; a job whose wait is over ends with 0x04 and 0x14, and a memo entry expires after 10 ms. -/
def Obligations.CancelsAndWaitsEnd : Prop :=
  ∀ (s : State) (f : Frame) (w : Waiting) (d : Fin 16),
    let tag := BitVec.ofNat 32 (fld f.payload 0 4)
    let x := getDom s d
    let status (t : State) (st reason : Nat) : Prop := t.window = [] ∧ t.doms = s.doms ∧ t.ledger = s.ledger ∧ t.pins = s.pins ∧
      ∃ k, (getQueue t 16).packets = (getQueue s 16).packets ++ [k] ∧ k.ty = 0x41 ∧ k.tag = w.tag ∧
        fld k.payload 0 1 = st ∧ fld k.payload 1 1 = reason
    let only : Prop := ∀ e, e < 16 → e ≠ d.val → (getDom s e).tag ≠ tag
    pairEnable s = false → s.held0 = [] → s.held1 = [] → tag ≠ 0xFFFFFFFF →
    (Arrives s f 0x02 → f.port = .host → readsWork s = true →
      (s.window = [w] → w.tag = tag → Takes s 16 64 → (∀ e, e < 16 → (getDom s e).tag ≠ tag) →
        ∃ t, exec (.jobCancel f) s = .next t ∧ status t 2 0x30) ∧
      (s.window = [] → x.phase = .admitted → x.tag = tag → x.ended = none → only → ∃ t, exec (.jobCancel f) s = .next t ∧
        (getDom t d).phase = .ending ∧ (getDom t d).ended.map Ending.status = some 2 ∧ (getDom t d).halted = true ∧
        t.ledger = s.ledger ∧ t.pins = s.pins) ∧
      (s.window = [] → x.phase = .running → x.tag = tag → only → ∃ t, exec (.jobCancel f) s = .next t ∧
        (∀ k ∈ activeSites s d, (getSite t d k).cancelDue = some (theClock s d)) ∧ t.doms = s.doms ∧ t.ledger = s.ledger ∧ t.pins = s.pins) ∧
      (s.window = [] → tagHeld s tag = false → (∀ e, e < 16 → (getDom s e).tag = tag → (getDom s e).phase = .free) →
        (completed s tag = true → ∃ t, exec (.jobCancel f) s = .next t ∧ t.memo = s.memo ∧ t.doms = s.doms ∧ t.ledger = s.ledger) ∧
        (completed s tag = false → s.memo.length < 16 → s.memo.all (fun m => m.1 ≠ tag) = true →
          ∃ t, exec (.jobCancel f) s = .next t ∧ t.memo = s.memo ++ [(tag, s.now)] ∧ t.doms = s.doms ∧ t.ledger = s.ledger))) ∧
    (s.window = [w] → jobMaxWait w.payload ≠ 0 → w.entered + us (jobMaxWait w.payload) ≤ s.now → s.anvil.state = .running → Takes s 16 64 →
      ∃ t, exec (.admissionWaitExpiry w.tag) s = .next t ∧ status t 4 0x14) ∧
    (exec .cancelMemoExpiry s = .next (regBump { s with memo := s.memo.filter (fun m => ¬ m.2 + ms 10 ≤ s.now) } Reg.cancelMiss 0 16
      (s.memo.filter (fun m => m.2 + ms 10 ≤ s.now)).length))

/-- The start of a job (R26, R27, R42, R58, R84): once the job is awake its engines start at the entry word with their loops clear and
their latches clear but for an event whose latch sets after the start; vector 0 starts
after the lead, which is the job's start; and a timed job whose device is not synced 10 µs before its start ends UNSYNCED. -/
def Obligations.JobsStart : Prop :=
  ∀ (s : State) (d : Fin 16),
    let x := getDom s d
    x.phase = .admitted →
    (x.ended = none → x.engines = false → awake s d = true →
      (jobTimed x.payload = true → startGrid x.payload ≤ zUnits s.zenith.time + 2 * 50 * 4294967296) → x.sites ≤ 256 →
      ∃ t, exec (.engineStart d) s = .next t ∧ getDom t d = { x with
          engines := true, idle := 0, lead := 0, eclk := 0, tickAt := 0, tickOff := (x.idle - x.tickAt) * 8192 + x.tickOff } ∧
        (∀ k, k < x.sites → getSite t d k = { Site.init with latches := keptLatches (getSite s d k) x.idle }) ∧ t.ledger = s.ledger ∧ t.pins = s.pins ∧ t.queues = s.queues ∧
        (∀ fi ∈ flowList x, fi < 256 → (getFlow t d fi).nsa = progEntry (seqImage s x.payload) ∧ (getFlow t d fi).loops = [] ∧
          (getFlow t d fi).stack = [] ∧ (getFlow t d fi).queue = [] ∧ (getFlow t d fi).nextV = 0)) ∧
    (x.engines = true → x.halted = false → x.lead = 5 →
      (jobTimed x.payload = true → startGrid x.payload < zUnits s.zenith.time + 50 * 4294967296) →
      exec (.jobStart d) s = .next (setDom s d { x with
        phase := if x.ended = none then .running else .ending, startAt := startStamp s x, tickAt := theClock s d
        tickOff := (zUnits (startStamp s x) - zUnits s.zenith.time) / 524288 })) ∧
    (x.ended = none → jobTimed x.payload = true → startGrid x.payload ≤ zUnits s.zenith.time + us 10 * 4294967296 → synced s = false →
      ∃ t, exec (.timedStartRecheck d) s = .next t ∧ (getDom t d).phase = .ending ∧
        (getDom t d).ended.map (fun e => (e.status, e.reason)) = some (6, 0x20) ∧ t.ledger = s.ledger ∧ t.pins = s.pins)

/-- The end of a job (R18, R29 to R31, R184, R390): the written contexts leave in RESULT frames, unless their readback meets a parity
error, which ends the job DISCARDED; and after all its other frames JOB_STATUS is committed, which frees the slot. -/
def Obligations.JobsComplete : Prop :=
  ∀ (s : State) (d : Fin 16) (e : Ending),
    let x := getDom s d
    let q := getQueue s (19 + d)
    x.ended = some e → x.phase = .ending → quiet s d = true → pairEnable s = false → s.anvil.state = .running →
    s.anvil.window = false → s.anvil.stopped = false →
    (e.reports = true → x.sent = false →
      (∃ t, exec (.ledgerResultSend d false) s = .next t ∧ (getDom t d).sent = true ∧ t.ledger = s.ledger ∧ t.pins = s.pins) ∧
      (∀ first l, contextRuns s x.payload = [(first, l)] → virgaChannels s d = [] → q.lines ≠ 0 →
        fits (openQueue s (19 + d)) (16 + 32 * l.length) = true → ∃ t k, exec (.ledgerResultSend d false) s = .next t ∧
          (getQueue t (19 + d)).packets = q.packets ++ [k] ∧ k.ty = 0x42 ∧ k.tag = x.tag ∧
          k.payload = resultHead 1 d 0xFF l.length first 0 ++ (l.map ctxBytes).flatten) ∧
      (governs x (theClock s d) 1 true = true → ∃ t, exec (.ledgerResultSend d true) s = .next t ∧ (getDom t d).ended.map Ending.status = some 7 ∧
        regField t Reg.anvJobErr 0 16 = 0x0501)) ∧
    (repaired s d = true → framesOut s d e = true → dipHolds s x = false → s.window = [] → s.held0 = [] → s.held1 = [] →
      Takes s 16 64 → ∃ t k rest, exec (.jobStatusCommit d) s = .next t ∧
        (getQueue t 16).packets = (getQueue s 16).packets ++ k :: rest ∧ k.ty = 0x41 ∧ k.tag = x.tag ∧
        k.payload = statusPayload (finalStatus s d e) e.reason x.flags.toNat d x.sites e.endVector e.starveCh (failingSites s d)
          x.waitUs x.admitAt x.startAt x.endAt ∧
        (getDom t d).phase = .free ∧ x.tag ∈ t.done ∧ (∀ j, j ≠ d.val → (getDom t j).phase = (getDom s j).phase) ∧ t.ledger = s.ledger)

/-- `NOP`, `VEC` and `RPT` (R44, R45, R48, R50): where an engine dispatches, each advances the engine by one word and pushes exactly
its emission: `VEC` its ecount vectors once, `RPT` its block of ecount vectors reps times in a row, each playing the
symbols of its source; a stream moves on by ecount however often the block plays. `NOP` pushes nothing and costs one
ECLK. Loop levels, call stack, settings and the rest of the machine stay as they were. -/
def Obligations.EmissionWordsPlay : Prop :=
  ∀ (s : State) (d : Fin 16) (k : Fin 256) (e : Emit),
    let f := theFlow s d k
    let fi := flowOf s d k
    let n := e.ecount.toNat
    let same (g : Flow) : Prop := g.nsa = f.nsa + 1 ∧ g.loops = f.loops ∧ g.stack = f.stack ∧ g.tset = f.tset ∧
      g.mask = f.mask ∧ g.item = f.item ∧ g.acts = f.acts ∧ g.waits = .none
    let plays (g : Flow) (count : Nat) : Prop := ∃ r, g.queue = f.queue ++ [r] ∧
      ∀ str ch i, i < count → runSym str r ch (f.nextV + i) = sourceSym str f e ch (i % n)
    let streams (g : Flow) : Prop :=
      g.pos = if e.src = .stream then advance (flowPins (getDom s d).payload fi) n f.pos else f.pos
    (Dispatches s d k (.nop d k) → ∃ g, exec (.nop d k) s = .next (setFlow s d fi g) ∧ same g ∧ Plays f g e 0 ∧
      g.costs = [(f.nextV, 1)] ∧ g.pos = f.pos ∧ g.last = f.last) ∧
    (Dispatches s d k (.vec d k e) → 1 ≤ n → ∃ g, exec (.vec d k e) s = .next (setFlow s d fi g) ∧ same g ∧ Plays f g e n ∧
      plays g n ∧ streams g ∧ g.costs = []) ∧
    (∀ reps, Dispatches s d k (.rpt d k e reps) → 1 ≤ n → 1 ≤ reps → ∃ g, exec (.rpt d k e reps) s = .next (setFlow s d fi g) ∧
      same g ∧ Plays f g e (n * reps) ∧ plays g (n * reps) ∧ streams g ∧ g.costs = [])

/-- `LOOP`, `ENDL`, `CALL`, `RET` and `JMP` (R46, R51 to R54): the emission is pushed first; once it is in the slots, or at once
where there is none, the loop levels, the call stack and NSA change as each word says. Nothing outside the flow changes but the
decoders that `ENDL` rewinds to the marks of its level (R111). -/
def Obligations.ControlWordsAct : Prop :=
  ∀ (s : State) (d : Fin 16) (k : Fin 256) (e : Emit),
    let f := theFlow s d k
    let fi := flowOf s d k
    let pins := flowPins (getDom s d).payload fi
    let same (g : Flow) : Prop := g.tset = f.tset ∧ g.mask = f.mask ∧ g.item = f.item ∧ g.acts = f.acts
    let opens (i : Instr) (op : Nat) : Prop := Dispatches s d k i → e.ecount ≠ 0 → ∃ g, exec i s = .next (setFlow s d fi g) ∧
      Plays f g e e.ecount.toNat ∧ g.waits = .word op f.nextV ∧ g.nsa = f.nsa + 1 ∧ g.loops = f.loops ∧ g.stack = f.stack ∧ same g
    let acts (i : Instr) (op : Nat) (rewinds : Option Loop) (does : Nat → Nat → Flow → Prop) : Prop :=
      let ends (g : Flow) : Prop := ∃ ri, exec i s = .next (setFlow { s with rings := ri } d fi g) ∧ same g ∧ g.waits = .none ∧
        (rewinds = none → ri = s.rings) ∧
        ∀ l, rewinds = some l → (∀ ch, ch ∉ pins → tget .init ri ch = getRing s ch) ∧
          ∀ ch ∈ pins, tget .init ri ch = rewindRing (getRing s ch) (tget 0 l.marks ch) ∧ tget 0 g.pos ch = tget 0 l.marks ch
      (Dispatches s d k i → e.ecount = 0 → ∃ g, ends g ∧ Plays f g e 0 ∧ does f.nsa (f.nsa + 1) g) ∧
      (Finishes s d k i op → ∃ g, ends g ∧ g.sa = f.sa ∧ g.queue = f.queue ∧ g.nextV = f.nextV ∧ does f.sa f.nsa g)
    (∀ count, opens (.loop d k e count) 0x04 ∧ (f.loops.length < 8 → acts (.loop d k e count) 0x04 none (fun a next g =>
      g.loops = { count := count, addr := a + 1, marks := f.pos } :: f.loops ∧ g.stack = f.stack ∧ g.nsa = next))) ∧
    (opens (.endl d k e) 0x05 ∧ ∀ l r, f.loops = l :: r → frameBase f < f.loops.length →
      (l.count ≤ 1 → acts (.endl d k e) 0x05 none (fun _ next g => g.loops = r ∧ g.stack = f.stack ∧ g.nsa = next)) ∧
      (1 < l.count → acts (.endl d k e) 0x05 (some l) (fun _ _ g =>
        g.loops = { l with count := l.count - 1 } :: r ∧ g.stack = f.stack ∧ g.nsa = l.addr))) ∧
    (∀ target, opens (.call d k e target) 0x08 ∧ (f.stack.length < 16 → acts (.call d k e target) 0x08 none (fun a _ g =>
      g.stack = (a + 1, f.loops.length) :: f.stack ∧ g.loops = f.loops ∧ g.nsa = target))) ∧
    (opens (.ret d k e) 0x09 ∧ ∀ a r, f.stack = (a, f.loops.length) :: r → acts (.ret d k e) 0x09 none (fun _ _ g =>
      g.stack = r ∧ g.loops = f.loops ∧ g.nsa = a)) ∧
    (∀ target lpop, opens (.jmp d k e target lpop) 0x0A ∧ (lpop ≤ f.loops.length →
      acts (.jmp d k e target lpop) 0x0A none (fun _ _ g => g.stack = f.stack ∧ g.loops = f.loops.drop lpop ∧ g.nsa = target)))

/-- `TSET`, `FMASK`, `LEDG` select, `MARK` and `CAPT` (R46, R64 to R68): the setting is in force for the word's own emission,
a marker or capture action is attached to the word's first vector, and nothing outside the flow changes. Of two `LEDG`
words of ecount 0 at one vector the later wins: it takes back what the earlier one did.
`LEDG` commit (R46, R66): each site still in the program that follows the flow has a commit issued that takes effect at the
word's first vector and covers the item then current; commit-and-select then selects. Of two `LEDG` words of ecount 0 at one
vector the earlier one's commit is taken back. -/
def Obligations.SettingWordsAct : Prop :=
  (∀ (s : State) (d : Fin 16) (k : Fin 256) (e : Emit),
     let f := theFlow s d k
     let fi := flowOf s d k
     let p := (getDom s d).payload
     let n := e.ecount.toNat
     let held : Nat := match f.ledg with
       | some (v, i, _) => if e.ecount = 0 ∧ v = f.nextV then i else f.item
       | none => f.item
     let undone : Prop := e.ecount = 0 ∧ ∃ i, f.ledg = some (f.nextV, i, true)
     let same (g : Flow) : Prop := g.nsa = f.nsa + 1 ∧ g.loops = f.loops ∧ g.stack = f.stack ∧ g.waits = .none
     (∀ set : BitVec 8, Dispatches s d k (.tset d k e set) → timSetIx (timImage s p) set.toNat ≠ none →
       ∃ g, exec (.tset d k e set) s = .next (setFlow s d fi g) ∧
         Plays f g e n ∧ same g ∧ g.tset = set.toNat ∧ g.mask = f.mask ∧ g.item = f.item ∧ g.acts = f.acts) ∧
     (∀ entry : BitVec 8, Dispatches s d k (.fmask d k e entry) → ∃ g, exec (.fmask d k e entry) s = .next (setFlow s d fi g) ∧
       Plays f g e n ∧ same g ∧ g.tset = f.tset ∧ g.mask = entry.toNat + 1 ∧ g.item = f.item ∧ g.acts = f.acts) ∧
     (∀ (inc : Bool) (item : BitVec 16), Dispatches s d k (.ledgSelect d k e inc item) →
       (if inc then held + 1 else item.toNat) < 2 ^ jobItemBits p →
       ∃ g si, exec (.ledgSelect d k e inc item) s = .next (setFlow { s with sites := si } d fi g) ∧ Plays f g e n ∧ same g ∧
         g.tset = f.tset ∧ g.mask = f.mask ∧ g.item = (if inc then held + 1 else item.toNat) ∧ g.acts = f.acts ∧
         (¬ undone → si = s.sites) ∧ (undone → ∀ j ∈ flowActive s d fi,
           (getSite { s with sites := si } d j).commits = dropCommit (getSite s d j).commits f.nextV)) ∧
     (∀ (aurora markOut squall : BitVec 8) (ring : Option (Fin 8)) (code : BitVec 8),
       Dispatches s d k (.mark d k e aurora markOut squall ring code) →
       aurora.toNat &&& jobAurs p = aurora.toNat → markOut.toNat &&& jobMarks p = markOut.toNat →
       squall.toNat &&& jobSquBanks p = squall.toNat →
       ∃ g, exec (.mark d k e aurora markOut squall ring code) s = .next (setFlow s d fi g) ∧ Plays f g e n ∧ same g ∧
         g.tset = f.tset ∧ g.mask = f.mask ∧ g.item = f.item ∧
         Act.mark f.nextV (e.ecount = 0) aurora.toNat markOut.toNat squall.toNat (ring.map Fin.val) code ∈ g.acts) ∧
     (∀ (banks : BitVec 8) (action : CaptAction), Dispatches s d k (.capt d k e banks action) →
       banks.toNat &&& jobSquBanks p = banks.toNat →
       ∃ g, exec (.capt d k e banks action) s = .next (setFlow s d fi g) ∧ Plays f g e n ∧ same g ∧
         g.tset = f.tset ∧ g.mask = f.mask ∧ g.item = f.item ∧ Act.capt f.nextV (e.ecount = 0) banks.toNat action ∈ g.acts)) ∧
  (∀ (s : State) (d : Fin 16) (k : Fin 256) (e : Emit),
     let f := theFlow s d k
     let fi := flowOf s d k
     let p := (getDom s d).payload
     let n := e.ecount.toNat
     let held : Nat := match f.ledg with
       | some (v, i, _) => if e.ecount = 0 ∧ v = f.nextV then i else f.item
       | none => f.item
     let undone : Prop := e.ecount = 0 ∧ ∃ i, f.ledg = some (f.nextV, i, true)
     let issued (t : State) : Prop := (∃ si, t = { s with sites := si }) ∧ ∀ j ∈ flowActive s d fi,
       (¬ undone → (getSite t d j).commits = (getSite s d j).commits ++ [{ v := f.nextV, item := held }]) ∧
       (undone → (getSite t d j).commits = dropCommit (getSite s d j).commits f.nextV ++ [{ v := f.nextV, item := held }])
     (Dispatches s d k (.ledgCommit d k e) → ∃ t g, exec (.ledgCommit d k e) s = .next (setFlow t d fi g) ∧ issued t ∧
       Plays f g e n ∧ g.item = held ∧ g.nsa = f.nsa + 1) ∧
     (∀ (inc : Bool) (item : BitVec 16), Dispatches s d k (.ledgCommitSelect d k e inc item) →
       (if inc then held + 1 else item.toNat) < 2 ^ jobItemBits p →
       ∃ t g, exec (.ledgCommitSelect d k e inc item) s = .next (setFlow t d fi g) ∧ issued t ∧ Plays f g e n ∧
         g.item = (if inc then held + 1 else item.toNat) ∧ g.nsa = f.nsa + 1))

/-- `JSC` (R56, R57): with a condition 0x60 to 0x7F it plays its emission once and, once that is in the slots, branches where the
reduced condition equals sense; with a site condition it plays its block ⌈R ÷ ecount⌉ times and stays in the word; its second
command decides once the interlock is complete, and until then changes nothing.
`JEV` (R59): once its emission is in the slots it branches where the site's latch is set, which it clears in the sites of the
flow unless keep is 1; otherwise the next word follows. -/
def Obligations.BranchWordsDecide : Prop :=
  (∀ (s : State) (d : Fin 16) (k : Fin 256) (e : Emit) (target lpop : Nat) (cond : BitVec 7) (sense : Bool) (reduce : Reduce),
     let f := theFlow s d k
     let fi := flowOf s d k
     let c := cond.toNat
     let i : Instr := .jsc d k e target lpop cond sense reduce
     let free := jobFree (getDom s d).payload
     let decided (g : Flow) (next : Nat) : Prop := g.stack = f.stack ∧
       if reduced s d k c reduce = sense then g.loops = f.loops.drop lpop ∧ g.nsa = target
       else g.loops = f.loops ∧ g.nsa = next
     let opens (n : Nat) : Prop := ∃ g, exec i s = .next (setFlow s d fi g) ∧ Plays f g e n ∧ g.waits = .word 0x0B f.nextV ∧
       g.nsa = f.nsa + 1 ∧ g.loops = f.loops ∧ g.stack = f.stack
     let acts : Prop := lpop ≤ f.loops.length → ∃ g, exec i s = .next (setFlow s d fi g) ∧ g.waits = .none ∧
       g.nextV = f.nextV ∧ g.queue = f.queue ∧ decided g f.nsa
     (Dispatches s d k i → 0x60 ≤ c → (free = true ∨ reduce ≠ .own ∨ c ≠ 0x62) →
       (e.ecount = 0 → lpop ≤ f.loops.length → ∃ g, exec i s = .next (setFlow s d fi g) ∧ Plays f g e 0 ∧ g.waits = .none ∧
         decided g (f.nsa + 1)) ∧
       (e.ecount ≠ 0 → opens e.ecount.toNat)) ∧
     (0x60 ≤ c → Finishes s d k i 0x0B → acts) ∧
     (Dispatches s d k i → c < 0x60 → (free = true ∨ reduce ≠ .own) → opens (ceilDiv (getDom s d).ret e.ecount.toNat * e.ecount.toNat)) ∧
     (∀ v, c < 0x60 → Redispatches s d k i 0x0B v →
       (interlocked s d v (reduceSites s d k reduce) = true → acts) ∧
       (interlocked s d v (reduceSites s d k reduce) = false → exec i s = .next s))) ∧
  (∀ (s : State) (d : Fin 16) (k : Fin 256) (e : Emit) (target lpop : Nat) (event : Fin 24) (keep : Bool),
     let f := theFlow s d k
     let fi := flowOf s d k
     let x := getDom s d
     let i : Instr := .jev d k e target lpop event keep
     let latch : Bool := latchSet x (getSite s d k) event
     let samples (next : Nat) (g : Flow) : Prop := ∃ si, exec i s = .next (setFlow { s with sites := si } d fi g) ∧
       g.stack = f.stack ∧ g.waits = .none ∧
       (latch = true → g.loops = f.loops.drop lpop ∧ g.nsa = target) ∧ (latch = false → g.loops = f.loops ∧ g.nsa = next) ∧
       (latch = false ∨ keep = true → si = s.sites) ∧
       (latch = true → keep = false → ∀ j ∈ flowActive s d fi, latchSet x (getSite { s with sites := si } d j) event = false)
     (Dispatches s d k i → eventUnclaimed x.payload event = false →
       (e.ecount = 0 → lpop ≤ f.loops.length → ∃ g, Plays f g e 0 ∧ samples (f.nsa + 1) g) ∧
       (e.ecount ≠ 0 → ∃ g, exec i s = .next (setFlow s d fi g) ∧ Plays f g e e.ecount.toNat ∧ g.waits = .word 0x0C f.nextV ∧
         g.nsa = f.nsa + 1 ∧ g.loops = f.loops ∧ g.stack = f.stack)) ∧
     (∀ v, Redispatches s d k i 0x0C v →
       (f.pushed = f.nextV → lpop ≤ f.loops.length → ∃ g, g.queue = f.queue ∧ g.nextV = f.nextV ∧ samples f.nsa g) ∧
       (f.pushed ≠ f.nextV → exec i s = .next s)))

/-- `MATCH` (R60, R61, R471): its first command pushes every pass and opens the word; its second ends it once every site of the
flow is known to exit or to time out: after the longest m + L passes where every site exits within the limit, and otherwise
after all passes, with MATCH_TIMEOUT set in the sites that timed out and a branch to the timeout target. Until then it changes
nothing. -/
def Obligations.MatchPlaysAndEnds : Prop :=
  ∀ (s : State) (d : Fin 16) (k : Fin 256) (e : Emit) (target lpop : Nat) (cond : BitVec 7) (passes : Nat),
    let f := theFlow s d k
    let fi := flowOf s d k
    let x := getDom s d
    let ec := e.ecount.toNat
    let l := ceilDiv x.ret ec
    let i : Instr := .wordMatch d k e target lpop cond passes
    let ks := flowActive s d fi
    let ends (j : Nat) : Option Nat := matchEnd (getSite s d j) l passes
    (Dispatches s d k i → ∃ g si, exec i s = .next (setFlow { s with sites := si } d fi g) ∧
      Plays f g e (passes * ec) ∧ g.waits = .word 0x10 f.nextV ∧ g.nsa = f.nsa + 1 ∧ g.loops = f.loops ∧
      ∀ j ∈ ks, let y := getSite { s with sites := si } d j
        y.mStart = f.nextV ∧ y.mBlock = ec ∧ y.mCond = cond.toNat ∧ y.mFirst = none) ∧
    (∀ v n, Redispatches s d k i 0x10 v → (∃ j ∈ ks, ends j = some n) → (∀ j ∈ ks, ∃ m, ends j = some m ∧ m ≤ n) →
      ∃ g si, exec i s = .next (setFlow { s with sites := si } d fi g) ∧
        g.waits = .none ∧ g.nextV = max (v + n * ec) (vecAhead s d 1) ∧ g.nsa = f.nsa ∧ g.loops = f.loops ∧
        ∀ j ∈ ks, (getSite { s with sites := si } d j).matchTo = false) ∧
    (∀ v, Redispatches s d k i 0x10 v → (∀ j ∈ ks, matchKnown x (getSite s d j) l passes = true) → (∃ j ∈ ks, ends j = none) →
      lpop ≤ f.loops.length → ∃ t, exec i s = .next t ∧
        (theFlow t d k).waits = .none ∧ (theFlow t d k).nextV = max (v + passes * ec) (vecAhead s d 1) ∧
        (theFlow t d k).nsa = target ∧ (theFlow t d k).loops = f.loops.drop lpop ∧
        (∀ j ∈ ks, (getSite t d j).matchTo = (ends j).isNone) ∧ t.pins = s.pins ∧ t.ledger = s.ledger ∧ t.dram = s.dram) ∧
    (∀ v, Redispatches s d k i 0x10 v → (∃ j ∈ ks, matchKnown x (getSite s d j) l passes = false) → exec i s = .next s)

/-- `WAIT` (R62, R471): with the latch set as it begins the block plays once and the latch is cleared; otherwise blocks are
pushed until the latch sets, at the block boundary R62 gives, or until the pass limit has passed at the pins, with WAIT_TIMEOUT
set and a branch to the timeout target. Until one of these holds its second command changes nothing. -/
def Obligations.WaitPlaysAndEnds : Prop :=
  ∀ (s : State) (d : Fin 16) (k : Fin 256) (e : Emit) (target lpop : Nat) (event : Fin 24) (passes : Nat),
    let f := theFlow s d k
    let fi := flowOf s d k
    let x := getDom s d
    let y := getSite s d k
    let ec := e.ecount.toNat
    let period := jobPeriod s x.payload
    let i : Instr := .wait d k e target lpop event passes
    let ks := flowActive s d fi
    let limit := waitLimit period (match f.waits with | .word _ v => v | _ => 0) ec passes
    let cleared (si : Tbl Site) : Prop := ∀ j ∈ ks, latchSet x (getSite { s with sites := si } d j) event = false ∧
      (getSite { s with sites := si } d j).waitTo = false
    (Dispatches s d k i → eventUnclaimed x.payload event = false →
      (latchSet x y event = true → ∃ g si, exec i s = .next (setFlow { s with sites := si } d fi g) ∧
        Plays f g e ec ∧ g.waits = .none ∧ g.nsa = f.nsa + 1 ∧ cleared si) ∧
      (latchSet x y event = false → ∃ g, exec i s = .next (setFlow s d fi g) ∧ Plays f g e openRun ∧
        g.waits = .word 0x11 f.nextV ∧ g.nsa = f.nsa + 1)) ∧
    (∀ v, Redispatches s d k i 0x11 v →
      (latchSet x y event = true → latchFirst y event ≤ limit → ∃ g si, exec i s = .next (setFlow { s with sites := si } d fi g) ∧
        g.waits = .none ∧ g.nextV = max (waitExit period v ec (latchFirst y event) (dVec s d)) (vecAhead s d 1) ∧
        g.nsa = f.nsa ∧ cleared si) ∧
      (latchSet x y event = false ∨ limit < latchFirst y event → limit ≤ theClock s d → lpop ≤ f.loops.length →
        ∃ g si, exec i s = .next (setFlow { s with sites := si } d fi g) ∧
          g.waits = .none ∧ g.nextV = max (v + passes * ec) (vecAhead s d 1) ∧ g.nsa = target ∧ g.loops = f.loops.drop lpop ∧
          ∀ j ∈ ks, (getSite { s with sites := si } d j).waitTo = true) ∧
      (latchSet x y event = false → theClock s d < limit → exec i s = .next s))

/-- `BARR` and `APG` (R63, R69, R70): in a site-locked domain `BARR` plays max(ecount, d) vectors and `APG` starts the
named Cumulus at the word's first vector for vcount vectors; in a site-free domain a `BARR` whose partners have not
arrived pushes its block on and waits at its address, an `APG` waits likewise on its last symbols, and a site that owns no
pin of the banks plays the `APG`'s vectors without waiting. -/
def Obligations.BarrierWordsAct : Prop :=
  ∀ (s : State) (d : Fin 16) (k : Fin 256) (e : Emit),
    let f := theFlow s d k
    let fi := flowOf s d k
    let p := (getDom s d).payload
    let alone : Prop := ∀ i ∈ activeSites s d, barrierAddr (theFlow s d i) = none
    (Dispatches s d k (.barr d k e) → jobFree p = false → 1 ≤ e.ecount.toNat →
      ∃ g, exec (.barr d k e) s = .next (setFlow s d fi g) ∧
        Plays f g e (max e.ecount.toNat (dVec s d)) ∧ g.waits = .none ∧ g.nsa = f.nsa + 1 ∧ g.loops = f.loops) ∧
    (∀ j : Nat, Dispatches s d k (.barr d k e) → jobFree p = true → j ∈ activeSites s d → j ≠ k →
      barrierAddr (theFlow s d j) = none → (∀ i ∈ activeSites s d, ∀ a, barrierAddr (theFlow s d i) ≠ some (true, a)) →
      (∀ i ∈ activeSites s d, Undisturbed s d i) → ∃ g, exec (.barr d k e) s = .next (setFlow s d fi g) ∧ Plays f g e openRun ∧
        g.waits = .barr f.nsa f.nextV e.ecount.toNat ∧ g.nsa = f.nsa + 1) ∧
    (∀ (banks : BitVec 8) (entry vcount : Nat), Dispatches s d k (.apg d k e banks entry vcount) →
      banks.toNat &&& jobCumBanks p = banks.toNat → 1 ≤ vcount →
      (jobFree p = false → entry < cumInstrs (cumImage s p) →
        ∃ t, exec (.apg d k e banks entry vcount) s = .next t ∧ (∃ fl cu, t = { s with flows := fl, cums := cu }) ∧
          Plays f (theFlow t d k) e vcount ∧ (theFlow t d k).nsa = f.nsa + 1 ∧ (theFlow t d k).waits = .none ∧
          ∀ b ∈ banksOf banks.toNat, (getCum t b).running = true ∧ (getCum t b).next = entry ∧
            (getCum t b).start = f.nextV ∧ (getCum t b).vcount = vcount ∧ (getCum t b).made = 0) ∧
      (jobFree p = true → ownsPin s d banks.toNat k = false → ∃ g, exec (.apg d k e banks entry vcount) s =
          .next (setFlow s d fi g) ∧ Plays f g e vcount ∧ g.waits = .none ∧ g.nsa = f.nsa + 1) ∧
      (∀ j : Nat, jobFree p = true → ownsPin s d banks.toNat k = true → j ∈ apgSites s d banks.toNat → j ≠ k → alone →
        ∃ t, exec (.apg d k e banks entry vcount) s = .next t ∧ (∃ fl cu, t = { s with flows := fl, cums := cu }) ∧
          Plays f (theFlow t d k) { e with src := .again, sym := 0 } openRun ∧ (theFlow t d k).nsa = f.nsa + 1 ∧
          (theFlow t d k).waits = .apg f.nsa f.nextV banks.toNat entry vcount e ∧
          ∀ b ∈ banksOf banks.toNat, (getCum t b).barrier = true))

/-- `HALT` (R28, R71, R177): with vectors it pushes them and stays in the word; without, or once they are in the slots, it
retires every site of the flow at its last vector and issues their final commits. In a site-locked domain the job then ends; in
a site-free one it ends with the last site, and until then the other sites run on. A job that ends before its vector 0 has
started stays admitted until then, and plays what is queued (R26). -/
def Obligations.HaltRetires : Prop :=
  ∀ (s : State) (d : Fin 16) (k : Fin 256) (e : Emit),
    let f := theFlow s d k
    let x := getDom s d
    let i : Instr := .halt d k e
    let after : Phase := if x.phase = .admitted then .admitted else .ending
    let retires (t : State) (j : Nat) : Prop := (getSite t d j).retired = some f.nextV ∧
      (getSite t d j).commits = (getSite s d j).commits ++ [{ v := f.nextV, item := f.item }]
    let all : Prop := ∃ t, exec i s = .next t ∧ (∀ j < x.sites, retires t j) ∧
      (getDom t d).phase = after ∧ (getDom t d).ended = some
        { status := 0, reason := 0, endVector := f.nextV, starveCh := 0xFFFF, reports := true, logs := false } ∧
      (∃ fl si de cu, t = { s with flows := fl, sites := si, doms := de, cums := cu })
    let one (more : State → Prop) : Prop := ∃ t, exec i s = .next t ∧ retires t k ∧
      (∀ j, j ≠ k.val → getSite t d j = getSite s d j) ∧ more t ∧
      (∃ fl si de cu, t = { s with flows := fl, sites := si, doms := de, cums := cu })
    let locked : Prop := jobFree x.payload = false ∧ x.sites = jobSites x.payload ∧ x.ended = none ∧
      ∀ j < x.sites, siteGone (getSite s d j) = false
    let last : Prop := jobFree x.payload = true ∧ x.sites ≤ 256 ∧ x.ended = none ∧ activeSites s d = [k.val] ∧
      ∀ j < x.sites, (getSite s d j).event = none
    let among (j : Nat) : Prop := jobFree x.payload = true ∧ j ∈ activeSites s d ∧ j ≠ k ∧ j < 256 ∧
      ∀ j ∈ activeSites s d, barrierAddr (theFlow s d j) = none
    let ended (t : State) : Prop := (getDom t d).phase = after ∧
      (getDom t d).ended.map (fun e => (e.status, e.reason, e.reports)) = some (0, 0, true)
    (Dispatches s d k i → e.ecount ≠ 0 → ∃ g, exec i s = .next (setFlow s d (flowOf s d k) g) ∧
      Plays f g e e.ecount.toNat ∧ g.waits = .word 0x3F f.nextV) ∧
    ((Dispatches s d k i ∧ e.ecount = 0) ∨ Finishes s d k i 0x3F →
      (locked → all) ∧ (last → one ended) ∧ (∀ j, among j → one (fun t => getDom t d = x)))

/-- Program errors (R46, R73, R75): each error of the words below ends the job DISCARDED with reason 0x01 and records its kind, its
site and its word in CIR_DOM_END and ANV_JOB_ERR. The job ends at the first vector not yet played: one error is met as the word
is dispatched, another once its emission is in the slots. -/
def Obligations.ProgramErrorsDiscard : Prop :=
  ∀ (s : State) (d : Fin 16) (k : Fin 256) (e : Emit), s.anvil.state = .running → (getDom s d).ended = none →
    let f := theFlow s d k
    let p := (getDom s d).payload
    let ends (i : Instr) (kind addr endV : Nat) : Prop := ∃ t, exec i s = .next t ∧
      ((getDom s d).phase = .running → (getDom t d).phase = .ending) ∧ (getDom t d).ended = some
        { status := 7, reason := 1, endVector := endV, starveCh := 0xFFFF, reports := false, logs := kind = 0x29 } ∧
      regField t (Reg.domEnd d) 0 8 = kind ∧ regField t (Reg.domEnd d) 8 8 = k ∧
      regField t (Reg.domEnd d) 16 8 = addr % 256 ∧ regField t Reg.anvJobErr 0 16 = 0x0100 + kind ∧
      regField t Reg.anvJobErr 16 4 = d ∧ t.ledger = s.ledger ∧ t.dram = s.dram ∧ t.queues = s.queues ∧
      ∀ j, j ≠ d.val → getDom t j = getDom s j
    let now (i : Instr) (kind : Nat) : Prop := Dispatches s d k i → ends i kind f.nsa (vecAhead s d 1)
    let either (i : Instr) (op kind : Nat) : Prop := (e.ecount = 0 → now i kind) ∧
      (Finishes s d k i op → ends i kind f.sa (getDom s d).next)
    (∀ count, 8 ≤ f.loops.length → either (.loop d k e count) 0x04 0x20) ∧
    (f.loops.length ≤ frameBase f → either (.endl d k e) 0x05 0x21) ∧
    (∀ target lpop, f.loops.length < lpop → either (.jmp d k e target lpop) 0x0A 0x22) ∧
    (∀ target, 16 ≤ f.stack.length → either (.call d k e target) 0x08 0x23) ∧
    (f.stack = [] → either (.ret d k e) 0x09 0x24) ∧
    (∀ a n r, f.stack = (a, n) :: r → f.loops.length ≠ n → either (.ret d k e) 0x09 0x25) ∧
    (∀ i, canDispatch s d (flowOf s d k) = true → k < (getDom s d).sites → Undisturbed s d (flowOf s d k) →
      progWords (seqImage s p) ≤ f.nsa → i ∈ [.nop d k, .vec d k e, .barr d k e] → ends i 0x26 f.sa (vecAhead s d 1)) ∧
    (∀ set : BitVec 8, timSetIx (timImage s p) set.toNat = none → now (.tset d k e set) 0x27) ∧
    (∀ item : BitVec 16, 2 ^ jobItemBits p ≤ item.toNat → now (.ledgSelect d k e false item) 0x28) ∧
    (∀ (banks : BitVec 8) (entry vcount : Nat), jobFree p = false → banks.toNat &&& jobCumBanks p = banks.toNat →
      cumInstrs (cumImage s p) ≤ entry → now (.apg d k e banks entry vcount) 0x29) ∧
    (∀ (target lpop : Nat) (cond : BitVec 7) (sense : Bool), jobFree p = false → cond.toNat < 0x60 ∨ cond = 0x62 →
      now (.jsc d k e target lpop cond sense .own) 0x2B) ∧
    (∀ (banks : BitVec 8) (entry vcount : Nat), banks.toNat &&& jobCumBanks p ≠ banks.toNat →
      now (.apg d k e banks entry vcount) 0x2C) ∧
    (∀ (aurora markOut squall code : BitVec 8) (ring : Option (Fin 8)), aurora.toNat &&& jobAurs p ≠ aurora.toNat ∨
      markOut.toNat &&& jobMarks p ≠ markOut.toNat ∨ squall.toNat &&& jobSquBanks p ≠ squall.toNat →
      now (.mark d k e aurora markOut squall ring code) 0x2C) ∧
    (∀ (banks : BitVec 8) (act : CaptAction), banks.toNat &&& jobSquBanks p ≠ banks.toNat → now (.capt d k e banks act) 0x2C) ∧
    (∀ (event : Fin 24) (keep : Bool) (target lpop : Nat), eventUnclaimed p event = true →
      now (.jev d k e target lpop event keep) 0x2C)

/-- The frame of the sequence words but `MATCH` (R43 to R73), in every state: whatever a word does, it changes flows, sites, slots,
stream decoders, generators, the acquisition and Virga units a program error stops, and registers, and nothing else; no pin, no
Ledger context, no byte of DRAM, no queue and no frame. -/
def Obligations.WordsFrame : Prop :=
  ∀ (s : State) (c : Instr) (d : Fin 16) (k : Fin 256) (e : Emit) (target lpop count : Nat) (cond : BitVec 7) (sense keep : Bool)
    (reduce : Reduce) (event : Fin 24) (b1 b2 b3 code : BitVec 8) (item : BitVec 16) (ring : Option (Fin 8)) (act : CaptAction),
    c ∈ [Instr.nop d k, .vec d k e, .rpt d k e count, .loop d k e count, .endl d k e, .call d k e target, .ret d k e,
      .jmp d k e target lpop, .jsc d k e target lpop cond sense reduce, .jev d k e target lpop event keep,
      .wait d k e target lpop event count, .barr d k e, .tset d k e b1,
      .fmask d k e b1, .ledgSelect d k e keep item, .ledgCommit d k e, .ledgCommitSelect d k e keep item,
      .mark d k e b1 b2 b3 ring code, .capt d k e b1 act, .apg d k e b1 target count, .halt d k e] →
    ∃ fl si de cu sq vi ri au re, exec c s = .next { s with
      flows := fl, sites := si, doms := de, cums := cu, squalls := sq, virgas := vi, rings := ri, auroras := au, regs := re }

/-- MICROWORD_EXECUTE (R77, R80, R83): where the engines of a flow read a microword of good parity whose only fields in use
are its branch field and base address, and which does not dispatch, CA becomes the next address of R83, a micro-call
notes its return, and nothing else changes. An upset changes the stored word that is read, and stays.
A machine check (R78, R90, R91, R93): where stored words of engines of the flow fail parity, the job ends DISCARDED
with reason 0x01 two ECLK ahead, their channels wait for a reload, and CIR_MC_COUNT counts each; no frame is made, no pin and
no byte of DRAM changes in that ECLK, and other slots keep their jobs. -/
def Obligations.ControlStoreRunsAndChecks : Prop :=
  (∀ (s : State) (d : Fin 16) (k : Fin 256),
     let f := theFlow s d k
     let m := f.micro
     let pins := flowPins (getDom s d).payload (flowOf s d k)
     let fb := funcBits (storeWord s (pins.headD 0) m.ca)
     Reads s d k →
     (pins ≠ [] → parityChannels s pins m.ca = [] → m.rest = 0 → fb < 2 ^ 13 → bits fb 12 10 ≠ 3 → bits fb 12 10 ≠ 4 →
       exec (.microwordExecute d k none) s = .next (setFlow s d (flowOf s d k) { f with micro := { m with
         ca := nextAddress fb 0 m.ca m.mret 0
         mret := if bits fb 12 10 = 5 then (m.ca + 1) % 1024 else m.mret
         ran := theClock s d + 1, landing := false, rest := 0 } })) ∧
     (∀ (ch : Fin 256) (w : Microword), jobPin (getDom s d).payload ch = true →
       exec (.microwordExecute d k (some (ch, w))) s = exec (.microwordExecute d k none) (upsetWord s ch m.ca w) ∧
       storeWord (upsetWord s ch m.ca w) ch m.ca = storeWord s ch m.ca ^^^ w)) ∧
  (∀ (s : State) (d : Fin 16) (k : Fin 256),
     let f := theFlow s d k
     let bad := parityChannels s (flowPins (getDom s d).payload (flowOf s d k)) f.micro.ca
     Reads s d k → s.anvil.state = .running → (getDom s d).ended = none → bad ≠ [] →
     ∃ t, exec (.microwordExecute d k none) s = .next t ∧ ((getDom s d).phase = .running → (getDom t d).phase = .ending) ∧
       (getDom t d).ended = some
         { status := 7, reason := 1, endVector := vecAhead s d 2, starveCh := 0xFFFF, reports := false, logs := false } ∧
       (∀ ch ∈ bad, ch ∈ t.store.reload ∧ (ch, f.nextV) ∈ (getDom t d).missing) ∧ regField t Reg.mcStat 31 1 = 1 ∧
       regField t Reg.mcCount 0 16 = min (regField s Reg.mcCount 0 16 + bad.length) 65535 ∧
       t.queues = s.queues ∧ t.dram = s.dram ∧ t.pins = s.pins ∧ ∀ j, j ≠ d.val → getDom t j = getDom s j)

/-- CONTROL_STORE_RELOAD_DONE, the reload of a machine-checked engine (R93), answers a next state in every form: a reload whose
readback agrees leaves the engine with the staged image and is counted; one whose readback differs retires the channel; one
whose staged image fails its digest latches fault 0x0102; and a channel that awaits no reload changes nothing.
CS_DIAG_READ and CS_DIAG_READ_DONE, a diagnostic read of a control store (R98): CS_DIAG_READ latches the address and sets
busy; CS_DIAG_READ_DONE puts the stored word into CIR_CS_DATA_0 to 4 and clears busy. -/
def Obligations.ControlStoreReloadsAndReads : Prop :=
  (∀ (s : State) (ch : Fin 256),
     (ch.val ∈ s.store.reload →
       (∃ t, exec (.controlStoreReloadDone ch true true) s = .next t ∧ t.store.reload = s.store.reload.erase ch ∧
         (∀ a, storeWord t ch a = tget 0 s.store.image a) ∧
         regField t Reg.mcInfo 16 16 = min (regField s Reg.mcInfo 16 16 + 1) 65535 ∧
         (∀ c a, c ≠ ch.val → storeWord t c a = storeWord s c a) ∧ t.doms = s.doms ∧ t.dram = s.dram ∧ t.anvil = s.anvil) ∧
       (s.held1 = [] → ∃ t, exec (.controlStoreReloadDone ch true false) s = .next t ∧ t.store.reload = s.store.reload.erase ch ∧
         ch.val ∈ t.anvil.retiredCh ∧ t.store.own = s.store.own ∧ t.doms = s.doms ∧ t.dram = s.dram) ∧
       (∀ readback, ∃ t, exec (.controlStoreReloadDone ch false readback) s = .next t ∧ t.store.reload = s.store.reload.erase ch ∧
         (s.anvil.state = .running → t.anvil.state = .faulted ∧ t.anvil.source = 0x0102 ∧ t.anvil.argument = ch))) ∧
     (ch.val ∉ s.store.reload → ∀ digest readback, exec (.controlStoreReloadDone ch digest readback) s = .next s)) ∧
  (∀ (s : State) (value : Word),
     (∃ t, exec (.csDiagRead value) s = .next t ∧ regField t Reg.csAddr 31 1 = 1 ∧
       regField t Reg.csAddr 0 10 = value.toNat % 1024 ∧ regField t Reg.csAddr 16 8 = bits value.toNat 23 16 ∧
       t.store.diagBusy = true ∧ (∃ re st, t = { s with regs := re, store := st })) ∧
     (s.store.diagBusy = true → ∃ t, exec .csDiagReadDone s = .next t ∧
       (∀ j < 5, (regGet t (Reg.csData j)).toNat =
         bits (storeWord s (regField s Reg.csAddr 16 8) (regField s Reg.csAddr 0 10)).toNat (32 * j + 31) (32 * j)) ∧
       regField t Reg.csAddr 31 1 = 0 ∧ t.store.diagBusy = false ∧ (∃ re st, t = { s with regs := re, store := st })) ∧
     (s.store.diagBusy = false → exec .csDiagReadDone s = .next s))

/-- REFILL_REQUEST and REFILL_LANDING, the refill of the stream rings (R107 to R109, R333, R335): while the DRAM serves, a bank's
port issues the request of the claimed tier where one is possible, in class 2 while its own bucket holds the size and else in
class 3, and otherwise, in class 3, that of the borrow tier; the request joins the ring's requests in flight, and the oldest one
lands in order; no other ring changes. A request that finds the DRAM out of service waits, and a frozen DRAM serves none.
VECTOR_POP (R42, R47, R390): of a slot whose engines have not started it counts an ECLK; in each of the five ECLK before vector
0 the lead advances and no vector is popped; in an ECLK of a running domain
its ECLK count advances by one and the vectors that start before the next ECLK have been popped; a parity error at the pop ends the job
as a machine check does, with source 0x0201.
KEEP_ALIVE_END (R117, R161): once the keep-alive vectors of a site have been played, its pins stand parked, DEN 0 and DRV 0
with no edge pending, and the pins of other sites are as they were. -/
def Obligations.SupplyMovesVectors : Prop :=
  (∀ (s : State),
     (∀ (b : Fin 8) (borrow : Bool), dramServing s = true → inFlight s b < 32 →
       let goes (a : Nat × Nat) : Prop := ∃ t, exec (.refillRequest b borrow) s = .next t ∧
         (getRing t a.1).issued = (getRing s a.1).issued + sizeOf1 s a ∧
         (getRing t a.1).flight = (getRing s a.1).flight ++ [sizeOf1 s a] ∧
         (getRing t a.1).write = (getRing s a.1).write ∧ (∀ ch, ch ≠ a.1 → getRing t ch = getRing s ch) ∧
         ∃ ri bu tu re, t = { touchDram s with rings := ri, buckets := bu, turns := tu, regs := re }
       (∀ a, claimedRing s b = some a →
         let own : Bool := 8 * sizeOf1 s a ≤ bucketLevel s (portKey b) (regField s (Reg.drmPlan b) 0 16)
         (borrow = true ∨ own = true → goes a) ∧
         (borrow = false → own = false → exec (.refillRequest b borrow) s = .next (touchDram s))) ∧
       (∀ a, claimedRing s b = none → borrowRing s b = some a → (borrow = true → goes a) ∧
         (borrow = false → exec (.refillRequest b borrow) s = .next (touchDram s)))) ∧
     (∀ (b : Fin 8) (borrow : Bool), inFlight s b < 32 → dramServing s = false → s.dram.state ≠ .frozen → s.dram.state ≠ .training →
       refillWanted s b borrow = true → (∀ r ∈ s.dram.waiting, ∀ w, r ≠ .refill b w) →
       ∃ t, exec (.refillRequest b borrow) s = .next t ∧ t.dram.waiting = s.dram.waiting ++ [.refill b borrow] ∧ t.rings = s.rings) ∧
     (∀ (ch : Fin 256) (n : Nat) (l : List Nat), (getRing s ch).flight = n :: l →
       (s.dram.state ≠ .frozen → exec (.refillLanding ch) s =
         .next (setRing s ch { getRing s ch with fresh := (getRing s ch).fresh + n, flight := l })) ∧
       (s.dram.state = .frozen → exec (.refillLanding ch) s = .next s))) ∧
  (∀ (s : State) (d : Fin 16) (parity : Bool),
     let x := getDom s d
     (x.engines = false → x.halted = false → x.phase = .admitted →
       exec (.vectorPop d parity) s = .next (setDom s d { x with idle := x.idle + 1 })) ∧
     (x.engines = true → x.halted = false → x.phase = .admitted → x.lead < 5 →
       ∃ t, exec (.vectorPop d parity) s = .next t ∧ (getDom t d).lead = x.lead + 1 ∧ (getDom t d).next = x.next ∧
         (getDom t d).eclk = x.eclk ∧ t.pins = s.pins ∧ (parity = false → t.ledger = s.ledger)) ∧
     (x.engines = true → x.halted = false → x.lead = 5 → x.phase = .running ∨ x.phase = .ending →
       ∃ t, exec (.vectorPop d parity) s = .next t ∧ (getDom t d).eclk = x.eclk + 1 ∧
         (getDom t d).next = max x.next (firstVector (jobPeriod s x.payload) (x.eclk + 1)) ∧ t.dram = s.dram ∧
         (∀ ch, ch ∉ jobPins x.payload → getPin t ch = getPin s ch) ∧
         (parity = true → x.ended = none → s.anvil.state = .running → regField t Reg.anvJobErr 0 16 = 0x0201 ∧ (getDom t d).ended = some
           { status := 7, reason := 2, endVector := vecAhead s d 2, starveCh := 0xFFFF, reports := false, logs := false }))) ∧
  (∀ (s : State) (d : Fin 16) (k : Fin 256) (w : Nat),
     let x := getDom s d
     starveFrom s d k = some w → x.phase ≠ .free → (getSite s d k).parked = false →
     (w + timKeep (timImage s x.payload) ≤ x.next →
       ∃ t, exec (.keepAliveEnd d k) s = .next t ∧ (getSite t d k).parked = true ∧
         (∀ ch ∈ sitePins x.payload k, (getPin t ch).drv = false ∧ (getPin t ch).den = false ∧ (getPin t ch).edges = []) ∧
         (∀ ch, ch ∉ sitePins x.payload k → getPin t ch = getPin s ch) ∧ t.ledger = s.ledger ∧ t.dram = s.dram) ∧
     (x.next < w + timKeep (timImage s x.payload) → exec (.keepAliveEnd d k) s = .next s))

/-- COMPARE_RETURN (R164 to R169) answers a next state in which the oldest vector in flight is judged and leaves the flight: a site
with an unmasked fail under cmp_mode 0 counts one fail and keeps the vector in its accumulator, every other site's count and
accumulator stand; pins and DRAM stay as they were, and outside a pair the Ledger too: results reach contexts by commits alone. A
vector whose judgement is not yet due is not judged.
LEDGER_COMMIT (R174, R176, R390) answers a next state: the failing vectors of the accumulator that the commit covers are merged
into the context of the site and item in vector order, written is set and commits counts; the later vectors stay in the
accumulator, the commit is counted, and no other context changes. A commit whose vectors are not yet judged waits, and a parity
error of the context ends the job as a machine check does, with source 0x0501. -/
def Obligations.ComparesAndCommitsMerge : Prop :=
  (∀ (s : State) (d : Fin 16) (readings : List PinReading) (p : Played) (rest : List Played),
     let x := getDom s d
     let rs := p.pins.map (judgePin s d (timImage s x.payload) p.v readings)
     let failed (k : Nat) (r : PinResult) : Bool := r.pin.site = k && !r.pin.starve && !r.pin.parked && r.fails && r.pin.cmp = 0
     x.flight = p :: rest →
     (x.phase ≠ .free → x.halted = false → p.v + x.ret < x.next →
       ∃ t, exec (.compareReturn d readings) s = .next t ∧ (getDom t d).flight = rest ∧ t.pins = s.pins ∧ t.dram = s.dram ∧
         (pairEnable s = false → t.ledger = s.ledger ∧ t.rings = s.rings) ∧
         ∀ k < x.sites, (getSite s d k).mFail = none →
           (rs.any (failed k) = true → (getSite t d k).failCount = satAdd 32 (getSite s d k).failCount 1 ∧
             ∃ f, (getSite t d k).acc = (getSite s d k).acc ++ [f] ∧ f.v = p.v ∧
               f.set = failSet (sitePins x.payload k) (fun ch => rs.any (fun r => failed k r && r.pin.ch = ch))) ∧
           (rs.any (failed k) = false → (getSite t d k).failCount = (getSite s d k).failCount ∧
             (getSite t d k).acc = (getSite s d k).acc)) ∧
     (x.next ≤ p.v + x.ret → exec (.compareReturn d readings) s = .next s)) ∧
  (∀ (s : State) (d : Fin 16) (k : Fin 256) (c : Commit) (rest : List Commit),
     let x := getDom s d
     let y := getSite s d k
     let ix := ctxIx x.payload k c.item
     let now := y.acc.filter (fun f => f.v < c.v)
     y.commits = c :: rest → x.phase ≠ .free → x.halted = false →
     (judgedBefore x c.v = true → ∃ t, exec (.ledgerCommit d k false) s = .next t ∧
       (getCtx t ix).status.getLsbD 0 = true ∧ (getCtx t ix).commits = satAdd 8 (getCtx s ix).commits 1 ∧
       (getCtx t ix).scratch = (getCtx s ix).scratch ∧
       (now ≠ [] → (getCtx t ix).status.getLsbD 1 = true ∧
         (getCtx t ix).lastFail = (now.getLast?.map AccFail.v).getD 0 % 2 ^ 48) ∧
       (now = [] → (getCtx t ix).failCount = (getCtx s ix).failCount ∧ (getCtx t ix).signature = (getCtx s ix).signature ∧
         (getCtx t ix).firstFail = (getCtx s ix).firstFail ∧ (getCtx t ix).lastFail = (getCtx s ix).lastFail) ∧
       (∀ i, i ≠ ix → getCtx t i = getCtx s i) ∧
       (getSite t d k).commits = rest ∧ (getSite t d k).acc = y.acc.filter (fun f => c.v ≤ f.v) ∧
       regField t Reg.ledCommits 0 32 = min (regField s Reg.ledCommits 0 32 + 1) (2 ^ 32 - 1) ∧
       ∃ le si re, t = { s with ledger := le, sites := si, regs := re }) ∧
     (judgedBefore x c.v = true → s.anvil.state = .running → x.ended = none → ∃ t, exec (.ledgerCommit d k true) s = .next t ∧
       (getDom t d).ended.map (fun e => (e.status, e.reason)) = some (7, 5) ∧ regField t Reg.anvJobErr 0 16 = 0x0501 ∧
       (getSite t d k).commits = y.commits) ∧
     (judgedBefore x c.v = false → exec (.ledgerCommit d k false) s = .next s))

/-- CUMULUS_INSTRUCTION and CUMULUS_REWRITE_DONE (R125, R132 to R135, R141, R410) answer a next state: an instruction issues one op
of its template's length for the block the engines push next, moves the generators by its X, Y and Z operations, and is counted
once its block is made; where that block holds the vector at which the count of R134 is not met, the job ends with program error
0x29; a parity error marks the Cumulus and ends the job with source 0x0301. A rewrite waits for that job's end; one whose readback
agrees clears the mark, one whose readback differs retires the bank, at once or when no domain holds it any more. -/
def Obligations.CumulusGenerates : Prop :=
  ∀ (s : State) (b : Fin 8) (d a : Nat),
    let c := getCum s b
    let x := getDom s d
    let r := stepCum (cumImage s x.payload) c
    let made := c.made + r.1.len
    let full : Bool := decide (min (a + 16) (c.start + c.vcount) ≤ c.start + made)
    (c.dom = some d → cumBlock s d b = some a → runningAt x (theClock s d - 1) = true → c.wrong = none →
      c.ranAt ≠ theClock s d + 1 → blockMade c a = false →
      (∃ t, exec (.cumulusInstruction b false) s = .next t ∧ (getCum t b).made = made ∧
        (getCum t b).opSeq = (c.opSeq + 1) % 2 ^ 32 ∧ (getCum t b).pc = c.next ∧ (getCum t b).gen = r.2.1.gen ∧
        (getCum t b).ranAt = theClock s d + 1 ∧ r.1 ∈ (getCum t b).ops ∧
        ((∀ e, wrongAt c.vcount made r.2.2 = some e → a + 16 ≤ c.start + e) → (∀ j < 8, j ≠ b.val → cumWrong s d j = false) →
          regField t (Reg.cumOps b) 0 32 =
            (if full then min (regField s (Reg.cumOps b) 0 32 + (c.fed + 1)) (2 ^ 32 - 1) else regField s (Reg.cumOps b) 0 32) ∧
          (∀ j, j ≠ b.val → getCum t j = getCum s j) ∧ ∃ cu re, t = { s with cums := cu, regs := re }) ∧
        (∀ e, wrongAt c.vcount made r.2.2 = some e → c.start + e < a + 16 → x.ended = none → s.anvil.state = .running →
          (getDom t d).ended = some
            { status := 7, reason := 1, endVector := x.next, starveCh := 0xFFFF, reports := false, logs := true }))) ∧
    (c.dom = some d → x.undo = [] → ∃ t, exec (.cumulusInstruction b true) s = .next t ∧ (getCum t b).parity = true ∧
      regField t (Reg.cumStat b) 7 1 = 1 ∧ (x.phase ≠ .free → x.ended = none → s.anvil.state = .running →
        regField t Reg.anvJobErr 0 16 = 0x0301 ∧ (getDom t d).ended = some
        { status := 7, reason := 3, endVector := vecAfter s d (theClock s d - 1) 2, starveCh := 0xFFFF, reports := false, logs := false })) ∧
    (c.parity = true → c.dom.any (fun d => (getDom s d).phase = .running) = false →
      exec (.cumulusRewriteDone b true) s = .next (setCum s b { c with parity := false }) ∧
      (s.held1 = [] → ∃ t, exec (.cumulusRewriteDone b false) s = .next t ∧ (getCum t b).parity = false ∧
        (if bankHeld s b then b.val ∈ t.anvil.retiring else b.val ∈ t.anvil.retiredBank) ∧ t.doms = s.doms ∧ t.pins = s.pins)) ∧
    (∀ ok, c.parity = false ∨ c.dom.any (fun d => (getDom s d).phase = .running) = true →
      exec (.cumulusRewriteDone b ok) s = .next s)

/-- VIRGA_STAMP (R189 to R192, R199) answers a next state: of the enabled transitions of one ftu outside the dead time the first is
stamped, which ends the count of losses and sends an event word to the job's Squall 24 ECLK later, and the others are lost;
within the 500 ps dead time or a gap calibration all are lost and counted, and none is stamped. A stamp of quantity 1 takes the
distance from the last one as a sample.
VIRGA_RUN_CALIBRATION and VIRGA_GAP_CALIBRATION, the calibrations of a run (R196 to R198), answer a next state: an accepted one
writes gain and offset into VIR_CAL and clears cal_stale; a rejected one leaves VIR_CAL as it was, sets cal_stale and is
counted. A run calibration starts the stamping in either case and counts rejections in succession for Horizon, and a gap
calibration is noted in the run. A run that has ended takes neither. -/
def Obligations.VirgaStampsAndCalibrates : Prop :=
  (∀ (s : State) (ch : Fin 256) (kinds : BitVec 4) (c r : Nat) (k : EdgeKind) (more : List EdgeKind),
     let v := getVirga s ch
     let st := (stampTime s ch c r).toNat
     let q := getSquall s (ch.val / 32)
     v.active = true → v.stamping = true → v.ended = false → kindsOf v.entry kinds = k :: more → 0 ≤ stampTime s ch c r →
     v.from_.getD 0 ≤ st → timely (getDom s v.dom) st = true → (∀ e, stampEnd s v.dom ch = some e → st < e) →
     ((∀ p, v.lastStamp = some p → p + 4096 ≤ st) → inGapCal q v.dom st = false → ∃ t, exec (.virgaStamp ch kinds c r) s = .next t ∧
       (getVirga t ch).lastStamp = some st ∧ (getVirga t ch).lostSince = more.length ∧
       (getVirga t ch).lost = (if more = [] then v.lost else satAdd 32 v.lost more.length) ∧
       (∀ p, virQuantity v.entry = 1 → v.lostSince = 0 → v.lastStamp = some p → st < p + 2 ^ 40 →
         (getVirga t ch).n = v.n + 1 ∧ (getVirga t ch).sum = v.sum + ((st : Int) - p)) ∧
       (q.dom = some v.dom → ∃ w, (getSquall t (ch.val / 32)).incoming = q.incoming ++ [((stampEclk st + 24).toNat, w)] ∧
         w.stamp = stampOf st ∧ w.channel = ch ∧ w.input = edgeInput k ∧ w.falling = edgeFalling k ∧ w.lost = v.lostSince ∧
         w.merged = decide (v.lostSince ≠ 0) ∧ w.stale = v.stale) ∧
       ∃ vi sq re, t = { s with virgas := vi, squalls := sq, regs := re }) ∧
     (((∃ p, v.lastStamp = some p ∧ st < p + 4096) ∨ inGapCal q v.dom st = true) →
       ∃ t, exec (.virgaStamp ch kinds c r) s = .next t ∧
       (getVirga t ch).lastStamp = v.lastStamp ∧ (getVirga t ch).lost = satAdd 32 v.lost (more.length + 1) ∧
       (getVirga t ch).lostSince = satAdd 16 v.lostSince (more.length + 1) ∧ (getVirga t ch).n = v.n ∧
       (getVirga t ch).sum = v.sum ∧
       regField t (Reg.virLost ch) 0 16 = min (regField s (Reg.virLost ch) 0 16 + (more.length + 1)) 65535 ∧
       ∃ vi re, t = { s with virgas := vi, regs := re })) ∧
  (∀ (s : State) (ch : Fin 256) (a b : Nat),
     let v := getVirga s ch
     let q := getSquall s (ch.val / 32)
     let cal := calResult a b 64
     let gap := calResult (56 * v.n1 + a * v.den) (56 * v.n2 + b * v.den) (64 * v.den)
     let accepts (t : State) (g : Nat) (o : Int) : Prop := (getVirga t ch).stale = false ∧
       regField t (Reg.virCal ch) 0 16 = g ∧ regField t (Reg.virCal ch) 16 16 = unsigned 16 o
     let rejects (t : State) : Prop := (getVirga t ch).stale = true ∧
       regGet t (Reg.virCal ch) = regGet s (Reg.virCal ch) ∧
       regField t Reg.virStat 0 16 = min (regField s Reg.virStat 0 16 + 1) 65535 ∧ regField t Reg.virStat 16 8 = ch
     (v.active = true → v.stamping = false → runOver s v ch = false → v.from_.isSome = true →
       ∃ t, exec (.virgaRunCalibration ch a b) s = .next t ∧ (getVirga t ch).stamping = true ∧
         (∀ g o, cal = some (g, o) → accepts t g o ∧ tget 0 t.horizon.rejects ch = 0) ∧
         (cal = none → rejects t ∧ tget 0 t.horizon.rejects ch = (tget 0 s.horizon.rejects ch + 1) % 3) ∧
         t.ledger = s.ledger ∧ t.pins = s.pins) ∧
     (v.active = true → v.stamping = true → runOver s v ch = false → q.dom = some v.dom → q.gap = true →
       ∃ t, exec (.virgaGapCalibration ch a b) s = .next t ∧ (getVirga t ch).gapCal = true ∧
         (∀ g o, gap = some (g, o) → accepts t g o) ∧ (gap = none → rejects t) ∧ t.ledger = s.ledger ∧ t.pins = s.pins) ∧
     (runOver s v ch = true →
       exec (.virgaRunCalibration ch a b) s = .next s ∧ exec (.virgaGapCalibration ch a b) s = .next s))

/-- SQUALL_ARM, SQUALL_FORCE_TRIGGER and SQUALL_STOP, the `CAPT` actions (R212, R217, R219), answer a next state: arm starts the
sequencer in its initial state with counters and timers zero and opens a pin-state record, or is counted as missed while a
record of the bank is held; a forced trigger is counted and triggers the open record at the action's vector; stop closes the
open record and segment and halts the sequencer, and has no effect with nothing open. -/
def Obligations.CaptureActionsAct : Prop :=
  ∀ (s : State) (b : Fin 8) (v d : Nat) (rest : List (Nat × CaptAction)),
    let q := getSquall s b
    let x := getDom s d
    let p := (getImage s (jobSqu x.payload)).data
    let held : Bool := q.record.isSome || q.closed.any CapRec.isRec
    let left := setSquall s b { q with capts := rest }
    q.dom = some d →
    (q.capts = (v, CaptAction.arm) :: rest →
      (sqlStateUnits p b = 0 ∨ held = false →
        ∃ t, exec (.squallArm b v) s = .next t ∧ (getSquall t b).armed = true ∧ (getSquall t b).halted = false ∧
          (getSquall t b).armV = v ∧ (getSquall t b).state = sqlField p b 0x18 1 ∧ (getSquall t b).cnt0 = 0 ∧
          (getSquall t b).cnt1 = 0 ∧ (getSquall t b).tmr0 = 0 ∧ (getSquall t b).tmr1 = 0 ∧ (getSquall t b).stopV = none ∧
          (getSquall t b).capts = rest ∧ (sqlStateUnits p b ≠ 0 → (getSquall t b).arms = q.arms + 1 ∧
            ∃ r, (getSquall t b).record = some r ∧ r.number = q.arms ∧ r.armV = v ∧ r.trig = none ∧ r.rows = []) ∧
          (∀ j, j ≠ b.val → getSquall t j = getSquall s j) ∧ ∃ sq vi, t = { s with squalls := sq, virgas := vi }) ∧
      (sqlStateUnits p b ≠ 0 → held = true → ∃ t, exec (.squallArm b v) s = .next t ∧
        getSquall t b = { q with capts := rest } ∧
        regField t (Reg.sqlMissed b) 16 16 = min (regField s (Reg.sqlMissed b) 16 16 + 1) 65535 ∧
        ∃ sq re, t = { s with squalls := sq, regs := re })) ∧
    (q.capts = (v, CaptAction.force) :: rest →
      (q.armed = true → q.stopV = none → q.trigEclk ≠ some x.eclk → q.fill + 128 * (wordsOf q).length ≤ 524288 →
        ∃ t, exec (.squallForceTrigger b v) s = .next t ∧ (getSquall t b).trigEclk = some x.eclk ∧
          regField t (Reg.sqlTrig b) 0 32 = min (regField s (Reg.sqlTrig b) 0 32 + 1) (2 ^ 32 - 1) ∧
          (∀ r, q.record = some r → r.trig = none → ∃ r', (getSquall t b).record = some r' ∧ r'.trig = some v ∧
            r'.force = true ∧ r'.rows = r.rows) ∧
          (getSquall t b).capts = rest ∧ t.ledger = s.ledger ∧ t.pins = s.pins ∧ t.dram = s.dram ∧ t.queues = s.queues) ∧
      (q.armed = false ∨ q.stopV ≠ none → exec (.squallForceTrigger b v) s = .next left)) ∧
    (q.capts = (v, CaptAction.stop) :: rest →
      (q.record.isSome = true ∨ q.seg.isSome = true →
        ∃ t, exec (.squallStop b v) s = .next t ∧ (getSquall t b).halted = true ∧ (getSquall t b).record = none ∧
          (getSquall t b).seg = none ∧ (getSquall t b).stopV = some v ∧ (getSquall t b).capts = rest ∧
          (x.eclk ≤ q.eclk → ∀ j, j ≠ b.val → getSquall t j = getSquall s j) ∧
          t.ledger = s.ledger ∧ t.pins = s.pins ∧ t.dram = s.dram ∧ t.queues = s.queues) ∧
      (q.record = none → q.seg = none → exec (.squallStop b v) s = .next left))

/-- TRIGGER_EXIT (R211, R216, R228) answers a next state: what is due in the present ECLK arrives and acts, and the sequencer of an
armed Squall runs for it, at most once in it; where no exit acts its timers advance by one, and where the first timer's exit acts
the sequencer enters its state with counters and timers zero. A parity error of the Squall's memories ends the job as a machine
check does, with source 0x0701. -/
def Obligations.SequencerRunsOnce : Prop :=
  ∀ (s : State) (b : Fin 8) (d : Nat),
    let q := getSquall s b
    let x := getDom s d
    let p := (getImage s (jobSqu x.payload)).data
    let ex := sqlState p b q.state 0xC 1
    q.dom = some d → q.eclk < x.eclk →
    (∃ t, exec (.triggerExit b none) s = .next t ∧ (getSquall t b).eclk = x.eclk ∧ (getSquall t b).capts = [] ∧
      (∀ e ∈ (getSquall t b).incoming, nowEclk x < e.1) ∧
      t.ledger = s.ledger ∧ t.pins = s.pins ∧ t.dram = s.dram ∧ t.queues = s.queues ∧
      (∃ u, exec (.triggerExit b none) t = .next u ∧ (∀ j, getSquall u j = getSquall t j) ∧ ∃ sq, u = { t with squalls := sq }) ∧
      ((∀ e ∈ q.incoming, nowEclk x < e.1) → q.capts = [] → q.armed = true → q.halted = false →
        ((∀ fired, actingExit p b q.state fired = none) →
          (getSquall t b).tmr0 = q.tmr0 + 1 ∧ (getSquall t b).tmr1 = q.tmr1 + 1 ∧ (getSquall t b).state = q.state) ∧
        (bit (sqlState p b q.state 0xA 1) 6 = false → bit (sqlState p b q.state 0xB 1) 6 = false → bit ex 6 = true →
          bit ex 5 = false → q.tmr0 + 1 = sqlState p b q.state 0x20 4 + 1 →
          (getSquall t b).state = ex % 16 ∧ (getSquall t b).cnt0 = 0 ∧ (getSquall t b).cnt1 = 0 ∧ (getSquall t b).tmr0 = 0 ∧
          (getSquall t b).tmr1 = 0 ∧ (bit ex 4 = true → q.trigEclk ≠ some x.eclk →
            regField t (Reg.sqlTrig b) 0 32 = min (regField s (Reg.sqlTrig b) 0 32 + 1) (2 ^ 32 - 1))))) ∧
    (∀ ok : Bool, x.phase ≠ .free → x.ended = none → x.undo = [] → s.anvil.state = .running → ∃ t, exec (.triggerExit b (some ok)) s = .next t ∧
      (getDom t d).ended.map (fun e => (e.status, e.reason)) = some (7, 7) ∧ regField t (Reg.sqlStat b) 13 1 = 1 ∧
      regField t Reg.anvJobErr 0 16 = 0x0701 ∧ (getSquall t b).record = none ∧ (getSquall t b).seg = none ∧ (getSquall t b).closed = [])

/-- EVENT_WORD_ARRIVAL, SEGMENT_CLOSE and REARM_GAP_END, event words and segments (R211, R221, R224, R225), answer a next state: a
word arrives once, in its ECLK or later, and joins the open segment within its window and limit; one for which the input buffer
has no room closes the record and the segment and halts the sequencer. A segment that holds seg_max_events words, whose window has
passed, or whose job has ended with its pins parked closes, is counted, takes its space, and the re-arm gap of 512 ECLK
begins; the gap ends after it. -/
def Obligations.SegmentsCollectAndClose : Prop :=
  ∀ (s : State) (b : Fin 8) (d : Nat) (e : Nat) (w : EventWord) (g : Segment),
    let q := getSquall s b
    let x := getDom s d
    let p := (getImage s (jobSqu x.payload)).data
    let room : Bool := q.fill + 128 - min q.drain (q.fill + 128) ≤ 524288
    q.dom = some d →
    (q.seg = some g → q.incoming.find? (fun e => e.2 = w) = some (e, w) →
      (e ≤ nowEclk x → nowEclk x ≤ g.openE + sqlWindow p b → g.words.length < sqlMaxEvents p b →
        (room = true → ∃ t g', exec (.eventWordArrival b w) s = .next t ∧ (getSquall t b).seg = some g' ∧
          g'.words = insertWord w g.words ∧ (getSquall t b).incoming = q.incoming.erase (e, w) ∧
          (getSquall t b).fill = q.fill + 128 - min q.drain (q.fill + 128) ∧
          (∀ j, j ≠ b.val → getSquall t j = getSquall s j) ∧ ∃ sq re, t = { s with squalls := sq, regs := re }) ∧
        (room = false → ∃ t, exec (.eventWordArrival b w) s = .next t ∧ (getSquall t b).seg = none ∧
          (getSquall t b).record = none ∧ (getSquall t b).halted = true ∧ regField t (Reg.sqlStat b) 12 1 = 1 ∧
          t.ledger = s.ledger ∧ t.pins = s.pins ∧ t.dram = s.dram ∧ t.queues = s.queues)) ∧
      (nowEclk x < e → exec (.eventWordArrival b w) s = .next s)) ∧
    (q.seg = some g → sqlMaxEvents p b ≤ g.words.length ∨ g.openE + sqlWindow p b ≤ nowEclk x ∨
        (settled s d = true ∧ allParked s d = true) → (∀ e ∈ q.incoming, nowEclk x < e.1) → ∃ t, exec (.segmentClose b) s = .next t ∧
      (getSquall t b).seg = none ∧ (getSquall t b).segs = q.segs + 1 ∧ (getSquall t b).gap = true ∧
      (getSquall t b).gapEnd = nowEclk x + 512 ∧
      (∃ c, (getSquall t b).closed = q.closed ++ [c] ∧ c.isRec = false ∧ c.number = q.recNo ∧ c.sent = 0 ∧
        c.space = c.data.length ∧ (getSquall t b).freeSeg = q.freeSeg - c.space) ∧
      regField t (Reg.sqlSegs b) 0 32 = min (regField s (Reg.sqlSegs b) 0 32 + 1) (2 ^ 32 - 1) ∧
      ∃ sq re, t = { s with squalls := sq, regs := re }) ∧
    (q.gap = true → (q.gapEnd < nowEclk x → exec (.rearmGapEnd b) s = .next (setSquall s b { q with gap := false })) ∧
      (nowEclk x ≤ q.gapEnd → exec (.rearmGapEnd b) s = .next s))

/-- PIN_STATE_RECORD_COMPLETE and CAPTURE_SEND, records and their readout (R219, R226, R228, R297), answer a next state: a triggered
pin-state record whose last reading has arrived closes, and any open one once no further reading will arrive; the oldest closed
record leaves on queue 35 + b, whole and flagged last where it fits one fragment, and else its first 65,504 bytes leave, unflagged;
its segment space is free again with its last fragment. A parity error of the capture memory ends the job, with source
0x0701.
FAIL_LOG_FRAME_COMMIT (R140, R183, R295, R296) answers a next state: outside the shadow, the waiting records of a slot leave in
one FAIL_LOG frame on queue 19 + d where they are at most 64, and none waits afterwards; before 1 µs has passed, fewer than 64
records of a job that goes on wait. -/
def Obligations.RecordsLeave : Prop :=
  (∀ (s : State) (b : Fin 8) (d : Nat),
     let q := getSquall s b
     let x := getDom s d
     let p := (getImage s (jobSqu x.payload)).data
     q.dom = some d →
     (∀ r, q.record = some r → settled s d = true ∨
         (∃ v, r.trig = some v ∧ r.rows.any (fun e => v + sqlPost p b ≤ e.1 + 1) = true) →
       ∃ t c, exec (.pinStateRecordComplete b) s = .next t ∧ (getSquall t b).record = none ∧
         (getSquall t b).closed = q.closed ++ [c] ∧ c.isRec = true ∧ c.number = q.recNo ∧ c.sent = 0 ∧ c.space = 0 ∧
         ∃ sq, t = { s with squalls := sq }) ∧
     (∀ c r, q.closed = c :: r → c.sent = 0 → shadow s = false →
       (c.data.length ≤ 65504 → Takes s (35 + b) (16 + c.data.length) →
         ∃ t k, exec (.captureSend b none) s = .next t ∧ (getSquall t b).closed = r ∧
           (getSquall t b).freeSeg = q.freeSeg + c.space ∧ (getQueue t (35 + b)).packets = (getQueue s (35 + b)).packets ++ [k] ∧
           k.ty = 0x44 ∧ k.flags = 1 ∧ k.tag = x.tag ∧ k.payload.drop 16 = c.data ∧ t.ledger = s.ledger ∧ t.pins = s.pins) ∧
       (65504 < c.data.length → Takes s (35 + b) 65520 →
         ∃ t k, exec (.captureSend b none) s = .next t ∧ (getSquall t b).closed = { c with sent := 65504 } :: r ∧
           (getSquall t b).freeSeg = q.freeSeg ∧ (getQueue t (35 + b)).packets = (getQueue s (35 + b)).packets ++ [k] ∧
           k.ty = 0x44 ∧ k.flags = 0 ∧ k.tag = x.tag ∧ k.payload.drop 16 = c.data.take 65504 ∧ t.ledger = s.ledger ∧
           t.pins = s.pins)) ∧
     (∀ (c : CapRec) r (ok : Bool), q.closed = c :: r → x.phase ≠ .free → x.ended = none → x.undo = [] → s.anvil.state = .running →
       ∃ t, exec (.captureSend b (some ok)) s = .next t ∧
         (getDom t d).ended.map (fun e => (e.status, e.reason)) = some (7, 7) ∧ regField t (Reg.sqlStat b) 13 1 = 1 ∧
         regField t Reg.anvJobErr 0 16 = 0x0701 ∧ (getSquall t b).closed = [])) ∧
  (∀ (s : State) (d : Fin 16),
     let x := getDom s d
     let q := getQueue s (19 + d)
     let bytes := (x.records.map Prod.snd).flatten
     (x.records ≠ [] → x.records.length ≤ 64 → x.halted = false → (x.recordsAt + us 1 ≤ s.now ∨ x.phase = .ending ∨ x.records.length = 64) →
       shadow s = false → Takes s (19 + d) (16 + bytes.length) →
       ∃ t k, exec (.failLogFrameCommit d) s = .next t ∧ (getDom t d).records = [] ∧ (getQueue t (19 + d)).packets = q.packets ++ [k] ∧
         k.ty = 0x43 ∧ k.tag = x.tag ∧ k.payload = resultHead 3 d 0xFF x.records.length 0 0 ++ bytes ∧
         ∃ qu dm o, t = { s with queues := qu, doms := dm, orders := o }) ∧
     (x.records.length < 64 → s.now < x.recordsAt + us 1 → x.phase ≠ .ending → exec (.failLogFrameCommit d) s = .next s))

/-- AURORA_START, AURORA_STEP_END and AURORA_JUMP, Aurora's steps (R237, R239, R243, R245, R249), answer a next state: a start plays the
entry step from granule 0 with the stack and phases clear; a step that has finished its plays goes on as next_mode says, and its
streamed bytes count as used; a taken jump goes to the step's jev_target at its granule with the stack empty, and what the
generator had made beyond it is made anew. No other channel changes. -/
def Obligations.AuroraSteps : Prop :=
  ∀ (s : State) (n : Fin 8) (src : AurSource) (ball : Int),
    let a := getAurora s n
    let b := aurImage s n
    let here (off k : Nat) : Nat := aurStep b n a.step off k
    let g := stepEnd b n a
    let alone (t : State) : Prop := (∀ j, j ≠ n.val → getAurora t j = getAurora s j) ∧
      ∃ au mk re, t = { s with auroras := au, marks := mk, regs := re }
    let enters (t : State) (st at_ : Nat) : Prop := (getAurora t n).playing = true ∧ (getAurora t n).step = st ∧
      (getAurora t n).stepG = at_ ∧ (aurStep b n st 0 1 % 4 = 1 → (getAurora t n).freq0 = aurStep b n st 0x20 8 % 2 ^ 47) ∧
      (aurStep b n st 0 1 % 4 = 1 → bit (aurStep b n st 0 1) 3 = true → (getAurora t n).theta0 = 0)
    (∀ tr : Int, a.due = some (src, tr) → a.armed = true →
      near4 ball (tr + 655360 + fld b (aurSec b n + 0x10) 4 * sampleFtu) = true →
      ∃ t, exec (.auroraStart n src ball) s = .next t ∧ enters t (aurEntry b n) 0 ∧ (getAurora t n).armed = false ∧
        (getAurora t n).started = true ∧ (getAurora t n).ball = ball ∧ (getAurora t n).stack = [] ∧ (getAurora t n).theta0 = 0 ∧
        alone t) ∧
    (a.playing = true → a.taken = none → unregistered a g = false →
      ∃ t, exec (.auroraStepEnd n) s = .next t ∧ alone t ∧
        (here 1 1 = 0 → enters t (here 4 2) g ∧ (getAurora t n).stack = a.stack) ∧
        (here 1 1 = 1 → enters t (here 6 2) g ∧ (getAurora t n).stack = here 4 2 :: a.stack) ∧
        (∀ r l, here 1 1 = 2 → a.stack = r :: l → enters t r g ∧ (getAurora t n).stack = l) ∧
        (here 1 1 < 2 → (getAurora t n).used = a.used + stepBytes b n a.step) ∧
        (here 1 1 = 3 → (getAurora t n).playing = false ∧ (getAurora t n).arrived = [])) ∧
    (∀ u, a.playing = true → a.taken = some u → unregistered a u = false →
      ∃ t, exec (.auroraJump n) s = .next t ∧ alone t ∧ enters t (here 8 2) u ∧ (getAurora t n).stack = [] ∧
        (getAurora t n).taken = none ∧ (getAurora t n).used = a.pathBase ∧ (getAurora t n).gen = 64 * u)

/-- JUMP_REQUEST_ARRIVAL, JUMP_REQUEST_REGISTER, AURORA_REFILL_REQUEST and AURORA_REFILL_LANDING, Aurora's requests (R244, R245, R247
to R249), answer a next state: a request arrives at a playing channel in its granule, or is counted as ignored; it registers in
the next granule, where one that does not match the step is discarded, one that finds a jump taken is merged, and any other is
taken, each counted in AUR_REQ; a taken one turns the predicted path at its boundary and discards what the ring held beyond it. A
stream request of a channel whose generator stands at the sample named extends the ring's requests in flight while the DRAM
serves, and else waits; the oldest lands in order, and a frozen DRAM serves none. -/
def Obligations.AuroraRequests : Prop :=
  ∀ (s : State) (n : Fin 8) (src : AurSource),
    let a := getAurora s n
    let b := aurImage s n
    let counts (t : State) (lo : Nat) : Prop :=
      regField t (Reg.aurReq n) lo 8 = min (regField s (Reg.aurReq n) lo 8 + 1) 255 ∧
      ∃ au re, t = { s with auroras := au, regs := re }
    (∀ (r : AurSource × Int) (sample : Int), a.requests.find? (fun x => x.1 = src) = some r →
      (a.playing = false → ∃ t, exec (.jumpRequestArrival n src sample) s = .next t ∧ counts t 16 ∧
        getAurora t n = { a with requests := a.requests.erase r }) ∧
      (a.playing = true → near4 ((a.ball : Int) + sample * 1024) (r.2 + 393216) = true →
        (0 ≤ sample → a.stepG ≤ sample.toNat / 64 → exec (.jumpRequestArrival n src sample) s = .next (setAurora s n
          { a with requests := a.requests.erase r, arrived := a.arrived ++ [(sample.toNat / 64, src)] })) ∧
        (sample < 0 → ∃ t, exec (.jumpRequestArrival n src sample) s = .next t ∧ counts t 16 ∧
          getAurora t n = { a with requests := a.requests.erase r }))) ∧
    (∀ g l, a.arrived = (g, src) :: l → a.playing = true → g + 1 < a.taken.getD (stepEnd b n a) →
      let play := aurGranules b n a.step
      ∃ t, exec (.jumpRequestRegister n) s = .next t ∧ (getAurora t n).arrived = l ∧
        (jevMatches b n a.step src = false → counts t 0 ∧ (getAurora t n).taken = a.taken) ∧
        (jevMatches b n a.step src = true → a.taken.isSome = true → counts t 8 ∧ (getAurora t n).taken = a.taken) ∧
        (jevMatches b n a.step src = true → a.taken = none → counts t 24 ∧
          (getAurora t n).taken = some (if bit (aurStep b n a.step 0 1) 2 then g + 2
            else a.stepG + ((g + 1 - a.stepG) / play + 1) * play) ∧
          (getAurora t n).pathStep = aurStep b n a.step 8 2 ∧ (getAurora t n).asked = min a.asked (getAurora t n).pathBase ∧
          (getAurora t n).landed = min a.landed (getAurora t n).pathBase)) ∧
    (∀ (borrow : Bool) (sample : Nat),
      (a.dom.isSome = true → dramServing s = true → aurRequest b n a sample ≠ 0 → genOk s n sample = true →
        (8 * aurRequest b n a sample ≤ bucketLevel s (aurKey n) (aurStream b n) ∨ borrow = true) →
        ∃ t, exec (.auroraRefillRequest n borrow sample) s = .next t ∧
          (getAurora t n).asked = a.asked + aurRequest b n a sample ∧ (getAurora t n).gen = sample ∧
          (getAurora t n).flight = a.flight ++ [aurRequest b n a sample] ∧ (getAurora t n).landed = a.landed ∧
          ∃ au bu, t = { touchDram s with auroras := au, buckets := bu }) ∧
      (a.dom.isSome = true → dramServing s = false → s.dram.state ≠ .frozen → s.dram.state ≠ .training →
        aurRequest b n a sample ≠ 0 → genOk s n sample = true →
        (8 * aurRequest b n a sample ≤ bucketLevel s (aurKey n) (aurStream b n) ∨ borrow = true) →
        (∀ r ∈ s.dram.waiting, ∀ w, r ≠ .aurora n w) → ∃ t, exec (.auroraRefillRequest n borrow sample) s = .next t ∧
          t.dram.waiting = s.dram.waiting ++ [.aurora n borrow] ∧ t.auroras = s.auroras) ∧
      (aurRequest b n a sample = 0 ∨ genOk s n sample = false → exec (.auroraRefillRequest n borrow sample) s = .next s)) ∧
    (∀ m l, a.flight = m :: l →
      (s.dram.state ≠ .frozen → exec (.auroraRefillLanding n) s = .next
        (setAurora s n { notePresent s n with landed := a.landed + m, flight := l })) ∧
      (s.dram.state = .frozen → exec (.auroraRefillLanding n) s = .next s))

/-- AURORA_UNDERRUN, OPEN_LOAD_CHECK, COMPLIANCE_VIOLATION and AURORA_PARITY_ERROR, Aurora's early stops (R250 to R255), answer a next
state: an underrun at a sample the converter needs and the generator has not reached, and a compliance violation, stop the channel
for the rest of the job with cause 1 and 2 and flag the job; the load check enables and arms the channel, or raises 0x0802 and
keeps it at zero current; a parity error stops the channel with cause 4 and ends its job DISCARDED. -/
def Obligations.AuroraStops : Prop :=
  ∀ (s : State) (n : Fin 8) (sample : Nat),
    let a := getAurora s n
    let b := aurImage s n
    let event (t : State) (src : Nat) : Prop := regField t Reg.anvEvent 0 16 = src
    (∀ d, a.dom = some d → a.playing = true → aurStreamed b n a.step = true → 64 * a.stepG ≤ sample →
      sample < 64 * a.taken.getD (stepEnd b n a) → generated s n ≤ sample → sample ≤ converted s n → a.landed < bytesNeeded b n a sample →
      ∃ t, exec (.auroraUnderrun n sample) s = .next t ∧ (getAurora t n).playing = false ∧ (getAurora t n).cause = 1 ∧
        (getAurora t n).stopAt = sample ∧ (getAurora t n).armed = false ∧ (getDom t d).flags.getLsbD 3 = true ∧
        (∀ j, j ≠ n.val → getAurora t j = getAurora s j) ∧ ∃ au dm, t = { s with auroras := au, doms := dm }) ∧
    (∀ d highLeg, a.dom = some d → a.enabled = false → a.started = false → a.cause = 0 → s.anvil.state = .running →
      ∃ t, exec (.openLoadCheck n highLeg) s = .next t ∧
        (highLeg = false → getAurora t n = { a with enabled := true, armed := true, zero := false } ∧
          ∃ au, t = { s with auroras := au }) ∧
        (highLeg = true → getAurora t n = { a with cause := 3, zero := true } ∧ event t 0x0802 ∧
          (getDom t d).flags.getLsbD 3 = true ∧ (getDom t d).phase = (getDom s d).phase ∧ t.ledger = s.ledger ∧ t.pins = s.pins)) ∧
    (a.enabled = true → ∃ t, exec (.complianceViolation n sample) s = .next t ∧ (getAurora t n).enabled = false ∧
      (getAurora t n).zero = true ∧ (getAurora t n).playing = false ∧ (getAurora t n).cause = 2 ∧ event t 0x0801 ∧
      (getAurora t n).stopAt = (if a.playing then sample else 0) ∧
      (∀ j, j ≠ n.val → getAurora t j = getAurora s j) ∧ t.ledger = s.ledger ∧ t.pins = s.pins) ∧
    (∀ (d : Nat) (ok : Bool), a.dom = some d → a.playing = true → s.anvil.state = .running → (getDom s d).phase ≠ .free →
      (getDom s d).ended = none → (getDom s d).undo = [] →
      ∃ t, exec (.auroraParityError n sample ok) s = .next t ∧ (getAurora t n).playing = false ∧
        (getAurora t n).cause = 4 ∧ (getAurora t n).stopAt = sample ∧ (getAurora t n).test = some ok ∧
        (getDom t d).ended.map (fun e => (e.status, e.reason)) = some (7, 8) ∧
        regField t (Reg.aurStat n) 23 1 = 1 ∧ t.dram = s.dram ∧ t.ports = s.ports)

/-- MARKER_RECEIVE, CDR_LOCK, CDR_LOCK_LOSS and MARKER_SEND, markers and lanes (R258, R259, R261, R264, R266, R267, R269), answer a next
state: the code groups of a marker period are decoded, their errors count in JET_LANE, and a right marker counts toward a live
lane and, read on the lowest live lane, tells the partner's LIVE byte and its set; on main path the last lane to become live
brings the port Up; a second missing marker, or 16 errors, makes a live lane dead and is counted; a lane whose CDR loses lock is
dead; CDR lock is noted; and a sent marker carries ID, LIVE and CTRL on every lane and announces the transmit set that the
partner's LIVE byte allows (with its CTRL byte stated where nothing fills the columns before it). -/
def Obligations.MarkersKeepLanes : Prop :=
  ∀ (s : State) (lane : Fin 20) (groups : List (BitVec 10)) (inverted signal : Bool) (skew : Nat),
    let p := lanePort lane
    let l := getLane s lane
    let x := getPort s p
    let j := lane.val - portFirst p
    let r := receiveGroups l.rxRd groups
    let errors := if l.inverted = inverted then r.2.2 else groups.length
    let marker := if l.inverted = inverted then readMarkerSyms r.1 else none
    let holds := laneHolds l true errors
    let held := if holds then min (l.held + 1) 1024 else 0
    let others (t : State) : Prop := (∀ i, i ≠ lane.val → getLane t i = getLane s i) ∧ t.ledger = s.ledger ∧ t.pins = s.pins
    let dies (t : State) : Prop := (getLane t lane).live = false ∧ (getLane t lane).died = true ∧ others t ∧
      regField t (Reg.jetLane lane) 24 8 = min (regField s (Reg.jetLane lane) 24 8 + 1) 255
    (x.state = .up ∨ x.state = .mainPath →
      (∀ (id live ctrl : Byte), marker = some (id, live, ctrl) → groups.length = 2048 ∨ l.good = 0 →
        id.toNat = idByte p (laneAt p x j) → ctrl.getLsbD 7 = false → skew ≤ 32 → errors ≤ 15 →
        ∃ t, exec (.markerReceive lane groups inverted skew) s = .next t ∧ others t ∧
          getLane t lane = { l with
            rxRd := r.2.1, good := min (l.good + 1) 2, bad := 0, held := held, late := skew
            live := l.live || (holds && (!l.died || held = 1024)) } ∧
          regField t (Reg.jetLane lane) 0 12 = min (regField s (Reg.jetLane lane) 0 12 + errors) 4095 ∧
          (l.live = true → (∀ i < j, (getLane s (portFirst p + i)).live = false) → (getPort t p).partnerLive = live ∧
            (getPort t p).rxWidth = (if ctrl.getLsbD 6 then 2 ^ (ctrl.toNat / 2 % 4) else 0)) ∧
          (x.state = .mainPath → holds = true → l.died = false →
            (∀ i ∈ portLanes p, i ≠ j → (getLane s (portFirst p + i)).live = true) →
            (getPort t p).state = .up ∧ (getPort t p).firstDue = (portQueues p).1)) ∧
      (marker = none → l.bad = 0 → errors ≤ 15 → ∃ t, exec (.markerReceive lane groups inverted skew) s = .next t ∧ others t ∧
        getLane t lane = { l with rxRd := r.2.1, good := 0, bad := 1, held := 0 }) ∧
      (l.live = true → 16 ≤ errors ∨ (marker = none ∧ 1 ≤ l.bad) →
        ∃ t, exec (.markerReceive lane groups inverted skew) s = .next t ∧ dies t)) ∧
    ((l.live = true → ∃ t, exec (.cdrLockLoss lane signal) s = .next t ∧ dies t ∧ (getLane t lane).cdr = false ∧
        (getLane t lane).signal = signal) ∧
      (l.live = false → exec (.cdrLockLoss lane signal) s =
        .next (setLane s lane { l with cdr := false, signal := signal, good := 0, held := 0 }))) ∧
    (x.state ≠ .off → x.state ≠ .deepIdle →
      exec (.cdrLock lane) s = .next (setLane s lane { l with cdr := true, signal := true, rxRd := none })) ∧
    (∀ q : Port,
      let y := getPort s q
      let wg := if y.state = .up then chooseSet q y.partnerLive else (0, 0)
      let sleep : Bool := y.state = .up && (y.sleep || (decide (2 ≤ y.sleepRcvd) && y.tx.isNone))
      let idle : Prop := y.state ≠ .up ∨ y.width = 0 ∨ (y.tx = none ∧ y.firstDue = [] ∧ nextQueue s q = none)
      (y.state ≠ .off → y.state ≠ .deepIdle → ∃ t, exec (.markerSend q) s = .next t ∧
        (y.state = .up → (getPort t q).width = wg.1 ∧ (getPort t q).group = wg.2 ∧
          (idle → (getPort t q).sleepSent = (if sleep then min (y.sleepSent + 1) 4 else 0))) ∧ (getPort t q).col = 5 ∧
        (idle → ∃ rd : Nat → Bool, (getPort t q).wire = (portLanes q).map (fun i => (sendSyms (rd i)
          (markerSyms (idByte q i) (liveByte s q) (ctrlByte sleep wg.1 wg.2))).1)) ∧
        (∀ i, { getLane t i with txRd := false } = { getLane s i with txRd := false }) ∧ t.ledger = s.ledger ∧ t.pins = s.pins) ∧
      (y.state = .off ∨ y.state = .deepIdle → exec (.markerSend q) s = .next s))

/-- MAIN_PATH_TIMEOUT, FALLBACK_TIMEOUT, LINK_IDLE_EXPIRY, DEEP_IDLE_ENTRY, DEEP_IDLE_EXIT and DEEP_IDLE_EXIT_TIMEOUT, bring-up and deep
link idle (R257, R265, R270 to R272, R288, R355), answer a next state: main path ends after 1 ms in Fallback, Fallback after 1 ms
in Up with the live lanes or in main path again; an idle port announces sleep, enters deep idle after 4 sleep markers each way
with its live lanes kept unless a frame has become ready, leaves it on a signal, and restarts at main path 200 µs after an exit that did not come Up. -/
def Obligations.PortsMoveThroughStates : Prop :=
  ∀ (s : State) (p : Port),
    let x := getPort s p
    let becomes (t : State) (st : PortState) : Prop := (getPort t p).state = st ∧ (getPort t p).since = s.now ∧
      (∀ q, q ≠ p → getPort t q = getPort s q) ∧ t.doms = s.doms ∧ t.ledger = s.ledger ∧ t.pins = s.pins
    (x.state = .mainPath → (x.since + ms 1 ≤ s.now → exec (.mainPathTimeout p) s = .next (setPort s p { x with
        state := .fallback, since := s.now, fallbackUsed := true, seenIds := [] })) ∧
      (s.now < x.since + ms 1 → exec (.mainPathTimeout p) s = .next s)) ∧
    (x.state = .fallback → x.since + ms 1 ≤ s.now → ∃ t, exec (.fallbackTimeout p) s = .next t ∧
      (portHasLive s p = true → becomes t .up ∧ (getPort t p).firstDue = (portQueues p).1 ∧ t.lanes = s.lanes) ∧
      (portHasLive s p = false → becomes t .mainPath ∧ (getPort t p).reversed = false ∧ (getPort t p).tx = none ∧
        ∀ j ∈ portLanes p, (getLane t (portFirst p + j)).inverted = false)) ∧
    (x.state = .up → x.sleep = false → x.tx = none → s.power.linkIdleMs ≠ 0 → x.lastUse + ms s.power.linkIdleMs ≤ s.now → mayLinkIdle s p = true →
      exec (.linkIdleExpiry p) s = .next (setPort s p { x with sleep := true, sleepSent := 0 })) ∧
    (x.state = .up → x.sleep = true → x.sleepSent = 4 → x.sleepRcvd = 4 →
      (x.tx = none → frameReady s p = false → ∃ t, exec (.deepIdleEntry p) s = .next t ∧ becomes t .deepIdle ∧
        (getUnit t (16 + portIx p)).state = .doze ∧
        (getPort t p).partnerLive = x.partnerLive ∧ (∀ j, (getLane t j).live = (getLane s j).live) ∧
        ∀ j ∈ portLanes p, (getLane t (portFirst p + j)).cdr = false ∧ (getLane t (portFirst p + j)).signal = false) ∧
      (x.tx ≠ none ∨ frameReady s p = true → exec (.deepIdleEntry p) s =
        .next (setPort s p { x with sleep := false, sleepSent := 0, sleepRcvd := 0 }))) ∧
    (∀ woken : Bool,
      (x.state = .deepIdle → ∃ t, exec (.deepIdleExit p woken) s = .next t ∧ becomes t .exiting ∧ (getPort t p).col = 0 ∧
        (∀ j, (getLane t j).live = (getLane s j).live) ∧
        (woken = true → ∀ j ∈ portLanes p, (getLane t (portFirst p + j)).signal = true)) ∧
      (x.state ≠ .deepIdle → exec (.deepIdleExit p woken) s = .next s)) ∧
    (x.state = .exiting → x.since + us 200 ≤ s.now → portUnused s p = false → ∃ t, exec (.deepIdleExitTimeout p) s = .next t ∧
      becomes t .mainPath ∧ (getPort t p).fallbackUsed = false)

/-- FRAME_TRANSMIT, TIMESTAMP_BLOCK_RECEIVE, CREDIT_BLOCK_RECEIVE and CREDIT_BLOCK_SEND, frames, stamps and credits (R260 to R262, R275,
R276, R281, R287, R288, R308, R309), answer a next state: the first frame that is ready, has the transmit set, its launch time and
its credits starts with the next number and its CRC, its credits used; then columns of its bytes leave, and its EOF, which counts
it; a withdrawn frame ends uncounted instead. A received credit block sets the cumulative grant of the queue it names,
a rejected one is counted alone; a timestamp block is stamped; a sent credit block carries the grant of its queue on the lanes of
the set, and satisfies the first block its queue owed. -/
def Obligations.FramesAndCreditsMove : Prop :=
  ∀ (s : State) (p : Port) (columns elapsed : Nat),
    let x := getPort s p
    let txf (t : State) : Nat := regField t (Reg.jetPortTxf (portIx p)) 0 32
    (∀ (q : Nat) (k : Packet), nextQueue s p = some (q, k) → x.state = .up → x.tx = none → x.width ≠ 0 → x.firstDue = [] →
      columns ≠ 0 → x.col < 2048 → heldByTime s k (stampNow s elapsed) 0 = false →
      frameLines k.payload.length ≤ creditsHeld (getQueue s q) →
      ∃ t, exec (.frameTransmit p columns elapsed) s = .next t ∧
        (getQueue t q).used = ((getQueue s q).used + frameLines k.payload.length) % 65536 ∧
        (∀ j, j ≠ q → getQueue t j = getQueue s j) ∧ (getPort t p).seqOut = (x.seqOut + 1) % 2 ^ 32 ∧
        (columns = 1 → k.popped = 0 → (getPort t p).tx = some
          { queue := q, order := k.order, rest := frameOut q x.seqOut k (sentPayload k (stampNow s elapsed)), sent := 0,
            stamp := false, sof := decide (k.ty = 0x80), abort := false }) ∧
        (k.ty = 0x80 → fld k.payload 0 1 = 1 → s.zenith.t1.isSome = true → fld k.payload 2 2 = s.zenith.xid → t.zenith.t1 = some (stampNow s elapsed, s.now)) ∧
        (k.ty ≠ 0x81 → t.sites = s.sites) ∧ t.ledger = s.ledger ∧ t.pins = s.pins) ∧
    (∀ u, x.tx = some u → x.state = .up → x.width ≠ 0 → x.col < 2048 →
      (u.stamp = false → u.sof = false → u.abort = false → withdrawn s u = false →
        ∃ t, exec (.frameTransmit p 1 elapsed) s = .next t ∧ t.ledger = s.ledger ∧ t.pins = s.pins ∧
          (u.rest ≠ [] → (getPort t p).tx = some { u with
            rest := u.rest.drop x.width, sent := u.sent + min x.width u.rest.length } ∧ txf t = txf s) ∧
          (u.rest = [] → (getPort t p).tx = none ∧ txf t = min (txf s + 1) (2 ^ 32 - 1) ∧ t.queues = s.queues)) ∧
      (withdrawn s u = true → columns ≠ 0 → ∃ t, exec (.frameTransmit p columns elapsed) s = .next t ∧
        (getPort t p).tx = none ∧ txf t = txf s ∧ t.ledger = s.ledger ∧ t.pins = s.pins)) ∧
    (x.state = .up → exec (.timestampBlockReceive p elapsed) s = .next (setPort s p { x with stamp := some (stampNow s elapsed) })) ∧
    (∀ (q : Fin 64) (count : BitVec 16),
      (x.state = .up → (∀ o, creditTarget p q = some o → ∃ t, exec (.creditBlockReceive p q count false) s = .next t ∧
          (getQueue t o).grant = count.toNat ∧ (getQueue t o).used = (getQueue s o).used ∧
          (∀ j, j ≠ o → getQueue t j = getQueue s j) ∧ ∃ qu un, t = { s with queues := qu, units := un }) ∧
        exec (.creditBlockReceive p q count true) s = .next (regBump s (Reg.jetPortErr (portIx p)) 24 8 1)) ∧
      (x.state = .up → grants p q = true → x.width ≠ 0 → x.col + 4 ≤ 2048 → meetsLaunch s p (stampNow s elapsed) 4 = false →
        ∃ t, exec (.creditBlockSend p q elapsed) s = .next t ∧ (getPort t p).col = x.col + 4 ∧
          (getPort t p).firstDue = x.firstDue.filter (· ≠ q.val) ∧
          (getPort t p).wire = (portLanes p).map (fun j => (sendSyms (getLane s (portFirst p + j)).txRd
            (if x.group * x.width ≤ j ∧ j < x.group * x.width + x.width then
              [Sym.credit, .data (BitVec.ofNat 8 q), .data (BitVec.ofNat 8 (getQueue s q).grant),
               .data (BitVec.ofNat 8 ((getQueue s q).grant / 256))]
             else [Sym.idle, .idle, .idle, .idle])).1) ∧
          ∃ po la un, t = { s with ports := po, lanes := la, units := un }) ∧
      (x.state ≠ .up ∨ grants p q = false ∨ 2048 < x.col + 4 → exec (.creditBlockSend p q elapsed) s = .next s))

/-- PACKET_COMMIT, LINE_POP and DFT_POP, the queues (R277, R278, R280 to R283, R286, R300), answer a next state: the lines of a packet
that its producer has begun stand taken until it is committed or abandoned; a packet of the queue's types that fits is committed
whole, and one that meets a full queue is dropped, counted and leaves a GAP_MARK; one whose commit finds the pointers apart
resets the queue. A pop takes one line of the oldest packet, for the JTAG reader also of an inbound frame, and an empty queue
underruns; damage is counted or resets the queue; DFT_POP pops a line only of a queue that JTAG reads. A frame that a port refuses is
discarded with its reason, and one that Nimbus does not read yet waits, a ring event passed by its port all the same (R434). -/
def Obligations.QueuesKeepOrder : Prop :=
  ∀ (s : State) (q : Fin 64),
    let x := getQueue s q
    let alone (t : State) : Prop := (∀ j, j ≠ q.val → getQueue t j = getQueue s j) ∧
      ∃ qu re dm n, t = { s with queues := qu, regs := re, doms := dm, orders := n }
    let resets (t : State) : Prop := regField t (Reg.dftCorr q) 16 16 = min (regField s (Reg.dftCorr q) 16 16 + 1) 65535 ∧
      (q.val ≠ 16 → (getQueue t q).packets = []) ∧ t.ledger = s.ledger ∧ t.pins = s.pins
    (∀ (ty : Nat) (flags : BitVec 16) (tag : Word) (payload : Bytes),
      let y := { x with writing := none }
      let commit (stage : Writing) (mismatch : Bool) : Instr := .packetCommit q stage ty flags tag payload mismatch
      (outboundFits q ty payload.length = true → s.anvil.window = false → s.anvil.stopped = false → x.lines ≠ 0 →
        (x.dram = true → s.dram.state ≠ .frozen) →
        (∃ t, exec (commit .whole false) s = .next t ∧ alone t ∧ (getQueue t q).writing = none ∧
          (fits y payload.length = true → t.regs = s.regs ∧ t.doms = s.doms ∧
            ∃ k, (getQueue t q).packets = x.packets ++ [k] ∧ k.ty = ty ∧ k.flags = flags ∧ k.tag = tag ∧ k.payload = payload ∧
              k.popped = 0) ∧
          (fits y payload.length = false →
            regField t (Reg.dftDrop q) 0 16 = min (regField s (Reg.dftDrop q) 0 16 + 1) 65535 ∧
            ∃ k, (getQueue t q).packets.getLast? = some k ∧ k.ty = 0x48)) ∧
        (∀ n, let m := writtenLines (min n (16 + payload.length))
          (hasRoom y m = true → exec (commit (.part n) false) s =
            .next (setQueue s q { x with writing := some (m, jobOf ty tag) })) ∧
          (hasRoom y m = false → ∃ t, exec (commit (.part n) false) s = .next t ∧ alone t ∧ (getQueue t q).writing = none ∧
            regField t (Reg.dftDrop q) 0 16 = min (regField s (Reg.dftDrop q) 0 16 + 1) 65535)) ∧
        (∃ t, exec (commit .abandon false) s = .next t ∧ (getQueue t q).writing = none ∧
          (getQueue t q).packets = x.packets ∧ ∃ qu, t = { s with queues := qu })) ∧
      (∀ stage, outboundFits q ty payload.length = false → exec (commit stage false) s = .next s) ∧
      (∀ stage, 0 < x.lines → x.lines ≤ smallLines → ∃ t, exec (commit stage true) s = .next t ∧ resets t)) ∧
    (∀ k r, x.packets = k :: r → ∃ t, exec (.linePop q none) s = .next t ∧ alone t ∧ t.regs = s.regs ∧
      (getQueue t q).line = lineBytes q k ∧ (getQueue t q).lineTag = lineTagOf k ∧
      (getQueue t q).packets = (if frameLines k.payload.length ≤ k.popped + 1 then r else { k with popped := k.popped + 1 } :: r)) ∧
    (x.packets = [] →
      (waitingFrames s q = [] → exec (.linePop q none) s = .next (setQueue s q { x with underrun := true, popUnder := true })) ∧
      (∀ f r, waitingFrames s q = f :: r → (x.jtag = true → ∃ t, exec (.linePop q none) s = .next t ∧
          (getQueue t q).line = lineBytes q (framePacket f) ∧ t.ledger = s.ledger ∧ t.pins = s.pins) ∧
        (x.jtag = false → exec (.linePop q none) s = .next s))) ∧
    (smallLines < x.lines → ∃ t, exec (.linePop q (some 3)) s = .next t ∧ resets t) ∧
    (∀ value : Word, value.toNat % 64 = q → (x.jtag = false → exec (.dftPop value) s = .next s) ∧
      (∀ k r, x.jtag = true → x.packets = k :: r → ∃ t, exec (.dftPop value) s = .next t ∧ alone t ∧
        regField t Reg.dftPop 6 7 = lineTagOf k % 128 ∧ regField t Reg.dftPop 13 1 = 0 ∧
        ∀ i, i < 8 → (regGet t (Reg.dftLine i)).toNat = fld (lineBytes q k) (4 * i) 4)) ∧
    (∀ f : Frame, (getPort s f.port).state = .up →
      (∀ c ∈ [Instr.jobSubmit f, .jobCancel f, .read f none, .regRead f, .regWrite f, .recover f, .globalEvent f, .pairDigest f,
          .pairTakeover f], discardReason s f ≠ 0 →
        ∃ t, exec c s = .next t ∧ regField t Reg.anvEvent 0 16 = 0x0A02 ∧
          (discardReason s f = 1 → regField t (Reg.jetPortErr (portIx f.port)) 0 16 =
            min (regField s (Reg.jetPortErr (portIx f.port)) 0 16 + 1) 65535) ∧
          t.held0 = s.held0 ∧ t.held1 = s.held1 ∧ t.held3 = s.held3 ∧ t.inbox = s.inbox ∧ t.window = s.window ∧
          t.ledger = s.ledger ∧ t.pins = s.pins) ∧
      (discardReason s f = 0 → f.ty = 0x81 → nimbusStopped s (inQueue f) = true →
        exec (.globalEvent f) s = .next (passEvent f { acceptFrame s f with
          inbox := s.inbox ++ [{ frame := f, boot := none, stamp := rxStamp s f, at_ := s.now }] })))

/-- LOAD_OPEN, LOAD_DATA, LOAD_CLOSE, LOAD_FREE and LOAD_ABORT (R12, R13, R292) answer a next state: with nothing held on queue 1, open
makes a staging, data extends it in order, close checks the whole image and places it under a fresh handle or the handle it
replaces, or refuses it and frees the staging, free frees a handle and abort a staging; each is answered, and the jobs, the
Ledger and the pins stay as they were. A LOAD that meets an image a job pins is held, and one whose bytes the DRAM does not take waits for it (R335). -/
def Obligations.LoadsPlaceImages : Prop :=
  ∀ (s : State) (f : Frame) (op : Nat),
    let b := f.payload
    let k := fld b 4 4
    let h := fld b 16 4
    let x := getStaging s k
    let same (t : State) : Prop := t.doms = s.doms ∧ t.ledger = s.ledger ∧ t.pins = s.pins ∧ t.window = s.window
    let ps := stagingPages s x (x.data.length + (b.drop 32).length)
    Arrives s f 0x03 → f.port = .host → Serves s 4 → s.held1 = [] → fld b 0 1 = op → firstFault (loadChecks b op) = none →
    (loadHeld s f = false →
      (op = 1 → s.stagings.length < 4 → pages (fld b 8 8) ≤ freePages s → ∃ t n, exec (.loadOpen f) s = .next t ∧
        getStaging t n = { kind := fld b 1 1, length := fld b 8 8, data := [], pages := [] } ∧
        Answers s t f 0 0 (le 4 n) ∧ t.images = s.images ∧ t.dram = s.dram ∧ same t) ∧
      (op = 2 → x.kind ≠ 0 → fld b 8 8 = x.data.length → x.data.length + (b.drop 32).length ≤ x.length →
        (dramServing s = true → ∃ t, exec (.loadData f) s = .next t ∧
          getStaging t k = { x with data := x.data ++ b.drop 32, pages := ps } ∧ Answers s t f 0 0 [] ∧ t.images = s.images ∧
          t.dram = (clearBursts (touchDram s) (burstsOf ps x.data.length (b.drop 32).length)).dram ∧ same t) ∧
        (dramServing s = false → .host 1 ∉ s.dram.waiting → ∃ t, exec (.loadData f) s = .next t ∧ t.held1 = [f] ∧
          t.dram.waiting = s.dram.waiting ++ [.host 1] ∧ t.stagings = s.stagings ∧ t.images = s.images ∧ same t)) ∧
      (op = 3 → x.kind ≠ 0 → x.length ≤ x.data.length → dramServing s = true → imageFault x.kind x.data = none → (h = 0 ∨ (getImage s h).kind = x.kind) →
        ∃ t n, exec (.loadClose f) s = .next t ∧ getImage t n = { kind := x.kind, data := x.data, pages := x.pages } ∧ (h ≠ 0 → n = h) ∧
          getStaging t k = .init ∧ Answers s t f 0 0 (le 4 n) ∧ same t) ∧
      (∀ off, op = 3 → x.kind ≠ 0 → x.length ≤ x.data.length → dramServing s = true → imageFault x.kind x.data = some off →
        (h = 0 ∨ (getImage s h).kind = x.kind) → ∃ t, exec (.loadClose f) s = .next t ∧ t.images = s.images ∧
          getStaging t k = .init ∧ Answers s t f 2 off [] ∧ same t) ∧
      (op = 4 → placed s h = true → ∃ t, exec (.loadFree f) s = .next t ∧ getImage t h = .init ∧
        (∀ j, j ≠ h → getImage t j = getImage s j) ∧ Answers s t f 0 0 [] ∧ t.dram = s.dram ∧ same t) ∧
      (op = 5 → x.kind ≠ 0 → ∃ t, exec (.loadAbort f) s = .next t ∧ getStaging t k = .init ∧ Answers s t f 0 0 [] ∧
        t.images = s.images ∧ t.dram = s.dram ∧ same t)) ∧
    (loadHeld s f = true →
      (op = 3 → exec (.loadClose f) s = .next { acceptFrame s f with held1 := [f] }) ∧
      (op = 4 → exec (.loadFree f) s = .next { acceptFrame s f with held1 := [f] }))

/-- READ, REG_READ and REG_WRITE (R7, R293, R294, R390) answer a next state: with nothing waiting on queue 3, a READ within its space is
answered with its bytes and changes no register, and one that meets a parity error raises event 0x0502; a REG_READ of one register is answered with its value and clears its read-clear
bits; a REG_WRITE of DRM_SCRUB sets its rate, one of SYS_TEST is refused with status 0x06, and an address without a register
is answered with status 0x07. -/
def Obligations.RegistersAreReadAndWritten : Prop :=
  ∀ (s : State) (f : Frame),
    let b := f.payload
    let a := fld b 0 4
    let u := { acceptFrame s f with held3 := [f] }
    f.port = .host → s.held3 = [] → s.written = 0 →
    (Arrives s f 0x04 → Serves s (readData s (fld b 0 1) (fld b 8 8) (fld b 4 4)).length → firstFault (readChecks b) = none → fld b 0 1 ≠ 5 →
      readOk s (fld b 0 1) (fld b 8 8) (fld b 4 4) = true → ∃ t, exec (.read f none) s = .next t ∧
        Answers s t f 0 0 (readData s (fld b 0 1) (fld b 8 8) (fld b 4 4)) ∧ t.regs = (acceptFrame s f).regs ∧
        t.ledger = s.ledger ∧ t.held3 = []) ∧
    (∀ ix : Fin 65536, Arrives s f 0x04 → Serves s (fld b 4 4) → firstFault (readChecks b) = none → fld b 0 1 = 1 →
      readOk s 1 (fld b 8 8) (fld b 4 4) = true → fld b 8 8 / 32 ≤ ix → ix < (fld b 8 8 + fld b 4 4) / 32 →
      inRange_ s ix = false → ∃ t data, exec (.read f (some ix)) s = .next t ∧ Answers s t f 0 0 data ∧
        data.length = fld b 4 4 ∧ regField t Reg.anvEvent 0 16 = 0x0502 ∧ (∀ i, i ≠ ix.val → getCtx t i = getCtx s i) ∧
        t.pins = s.pins) ∧
    (Arrives s f 0x06 → Serves s 4 → b.length = 4 →
      (∀ v, regValue { u with zenith := if a = Reg.zenSecLo then { s.zenith with snap := s.zenith.time } else s.zenith } a = some v →
        ∃ t, exec (.regRead f) s = .next t ∧ Answers s t f 0 0 (le 4 v) ∧
          ((index a (Reg.sqlFifo 0) 0x20 8).isNone = true → regGet t a = regGet u a &&& ~~~(BitVec.ofNat 32 (rcMask a))) ∧ (∀ i, i ≠ a → regGet t i = regGet u i) ∧
          t.ledger = s.ledger ∧ t.pins = s.pins) ∧
      (regValue u a = none → ∃ t, exec (.regRead f) s = .next t ∧ Answers s t f 7 0 [] ∧ t.regs = u.regs)) ∧
    (Arrives s f 0x05 → Serves s 0 → b.length = 12 →
      (a = Reg.drmScrub → ∃ t, exec (.regWrite f) s = .next t ∧ Answers s t f 0 0 [] ∧
        regField t Reg.drmScrub 0 14 = merge (regGet s a).toNat (fld b 4 4) (fld b 8 4) % 2 ^ 14 ∧
        regField t Reg.drmScrub 16 16 = regField s Reg.drmScrub 16 16 ∧ (∀ i, i ≠ a → regGet t i = regGet u i) ∧
        t.ledger = s.ledger) ∧
      (a = Reg.test → ∃ t, exec (.regWrite f) s = .next t ∧ Answers s t f 6 0 [] ∧ t.regs = u.regs) ∧
      (regValue u a = none → ∃ t, exec (.regWrite f) s = .next t ∧ Answers s t f 7 0 [] ∧ t.regs = u.regs))

/-- NCLK_TICK (R301, R303, R305, R306, R309) answers a next state: the counter adds 50 ns and the slew of the remaining correction, a
jump is added at once and steps the clock, and a pending set becomes the time and is answered; a step ends every admitted job that
waits for its timed start UNSYNCED; and the ECLK of running engines are counted from the tick. -/
def Obligations.ClockTicks : Prop :=
  ∀ (s : State),
    let z := s.zenith
    let unsynced (t : State) : Prop := t.zenith.stepped = true ∧ ∀ d : Fin 16, (getDom s d).phase = .admitted →
      jobTimed (getDom s d).payload = true → (getDom s d).ended = none → (getDom t d).ended.map Ending.status = some 6
    let left := z.launches.filter (fun l => !l.made)
    (z.pendingSet = [] → z.jump = none → exec .nclkTick s = .next { tickDram (tickDoms { s with now := s.now + 50 }) with
      zenith := { z with time := zTime ((zUnits z.time + 50 * 4294967296 : Int) + slew z.c).toNat, c := z.c - slew z.c,
                         launches := left } }) ∧
    (∀ d, let x := getDom s d
      getDom (tickDoms s) d = if x.engines then { x with tickAt := clock x, tickOff := 0 }
        else if x.phase = .admitted then
          { x with idle := max x.idle (x.tickAt + 48), tickAt := max x.idle (x.tickAt + 48), tickOff := 0 }
        else x) ∧
    (∀ th, z.pendingSet = [] → z.jump = some th → ∃ t, exec .nclkTick s = .next t ∧ t.now = s.now + 50 ∧
      t.zenith.time = zTime ((zUnits z.time + 50 * 4294967296 : Int) + th).toNat ∧ t.zenith.c = 0 ∧ t.zenith.jump = none ∧
      t.zenith.launches = left ∧ unsynced t ∧ t.ledger = s.ledger ∧ t.pins = s.pins) ∧
    (∀ l tm f, z.pendingSet = l ++ [(tm, f)] → ∃ t, exec .nclkTick s = .next t ∧ t.now = s.now + 50 ∧ t.zenith.time = tm ∧
      t.zenith.pendingSet = [] ∧ t.zenith.jump = none ∧ t.ledger = s.ledger ∧ t.pins = s.pins ∧ (z.parent ≠ 0 → unsynced t) ∧
      (z.parent = 0 → t.zenith.rootSet = true) ∧
      (l = [] → s.owed = [] ∨ s.owed = [(f, none)] → Takes s 17 32 → Answers s t f 0 0 (stamp16 tm)))

/-- TIME_SET_SET, TIME_SET_CONFIGURE, TIME_SET_LAUNCH, TIMED_LAUNCH, ZEN_TIME_SNAPSHOT and GRID_OFFSET_MEASUREMENT (R302, R305, R311,
R313, R314) answer a next state: a set waits for the next tick, and off a root's grid it is refused; a configuration takes
effect at once and is answered; a launch whose time has not passed is queued, and one whose time has passed is made, counted and
late; TIMED_LAUNCH makes the launches whose time comes before the next tick, each counted in RING_COUNT; a snapshot copies the counter and a REFCLK
edge sets the grid offset and the grid fault. -/
def Obligations.TimeSetActs : Prop :=
  ∀ (s : State) (f : Frame),
    let b := f.payload
    let z := s.zenith
    let same (t : State) : Prop := t.doms = s.doms ∧ t.ledger = s.ledger ∧ t.pins = s.pins ∧ t.now = s.now
    let made (t : State) (n : Nat) : Prop := regField t Reg.ringCount 0 16 = min (regField s Reg.ringCount 0 16 + n) 65535
    (Arrives s f 0x08 → f.port = .host → Serves s 0 →
      (firstFault (timeSetChecks b) = none →
        (gridTime s (stampAt b 16) = true → ∃ t, exec (.timeSetSet f) s = .next t ∧
          t.zenith = { z with pendingSet := z.pendingSet ++ [(stampAt b 16, f)] } ∧ same t) ∧
        (gridTime s (stampAt b 16) = false → ∃ t, exec (.timeSetSet f) s = .next t ∧ Answers s t f 1 0x18 [] ∧ t.zenith = z ∧
          same t)) ∧
      (firstFault (timeConfigChecks b) = none → ∃ t, exec (.timeSetConfigure f) s = .next t ∧ Answers s t f 0 0 [] ∧
        t.zenith.parent = fld b 4 1 ∧ t.zenith.interval = fld b 6 2 ∧ t.zenith.asym = fld b 8 2 ∧ t.zenith.time = z.time ∧
        (z.parent ≠ fld b 4 1 → t.zenith.lastAccept = none) ∧ same t) ∧
      (firstFault (timeLaunchChecks b) = none → ∃ t, exec (.timeSetLaunch f) s = .next t ∧
        Answers s t f 0 0 [] ∧ t.launchId = (s.launchId + 1) % 65536 ∧ same t ∧
        (zUnits z.time ≤ zUnits (stampAt b 16) →
          t.zenith = { z with
            launches := z.launches ++ [{ event := fld b 5 1, time := stampAt b 16, id := s.launchId, made := false }] }) ∧
        (zUnits (stampAt b 16) < zUnits z.time → t.zenith = z ∧ made t 1 ∧
          regField t Reg.zenLate 0 16 = min (regField s Reg.zenLate 0 16 + 1) 65535))) ∧
    (∃ t, exec .timedLaunch s = .next t ∧
      t.zenith = { z with launches := z.launches.map (fun l => if launchDue s l then { l with made := true } else l) } ∧
      made t (z.launches.filter (launchDue s)).length ∧ t.ledger = s.ledger ∧ t.pins = s.pins) ∧
    (exec .zenTimeSnapshot s = .next { s with zenith := { z with snap := z.time } }) ∧
    (∀ elapsed : Nat, s.refPresent = true → ∃ o : Int, exec (.gridOffsetMeasurement elapsed) s =
        .next { s with zenith := { z with grid := o, gridFault := decide (294912 < o.natAbs) } } ∧
      -327680 ≤ o ∧ o < 327680 ∧ ((zUnits (stampNow s elapsed) / 65536 : Nat) - o) % 655360 = 0)

/-- SYNC_REQUEST, SYNC_RESPONSE, SYNC_EXCHANGE_START, SYNC_EXCHANGE_TIMEOUT and SYNC_QUALITY_EXPIRY (R307 to R310) answer a next state: a
request is answered on its port's queue with the arrival stamp and the quality; a matching response within its limits is
accepted, which replaces the remaining correction by theta, and any other is rejected and counted; an exchange starts once an
interval, rejecting one still in flight, times out 100 µs after its request departed, and the quality expires 4 intervals after the last
acceptance. -/
def Obligations.SyncExchanges : Prop :=
  ∀ (s : State) (f : Frame),
    let b := f.payload
    let z := s.zenith
    let t4 := (getPort s f.port).stamp.getD z.time
    let d2 (t1 : ZTime) : Int := delta2 t1 (stampAt b 0x20) (stampAt b 0x10) t4
    let theta (t1 : ZTime) : Int := theta2 t1 (stampAt b 0x20) (stampAt b 0x10) t4 * 32768
    let same (t : State) : Prop := t.doms = s.doms ∧ t.ledger = s.ledger ∧ t.pins = s.pins
    let rejected (t : State) : Prop := regField t Reg.zenXchg 16 16 = min (regField s Reg.zenXchg 16 16 + 1) 65535
    let out (t : State) (q : Nat) (body : Bytes) : Prop := ∃ k, (getQueue t q).packets = (getQueue s q).packets ++ [k] ∧
      k.ty = 0x80 ∧ k.payload = body
    (Arrives s f 0x80 → fld b 0 1 = 1 → s.boot.state = 1 → Takes s (syncQueue f.port) 48 →
      ∃ t hops, exec (.syncRequest f) s = .next t ∧ out t (syncQueue f.port) (syncPayload 2 hops (fld b 2 2)
        ((quality s).getD 0xFFFFFFFF) .zero t4) ∧ (quality s = none → hops = 0xFF) ∧ t.zenith = z ∧ same t) ∧
    (∀ t1 at0, Arrives s f 0x80 → fld b 0 1 = 2 → z.t1 = some (t1, at0) → z.asked = true → parentPort z.parent = some f.port →
      let good : Prop := s.now ≤ at0 + us 100 ∧ fld b 2 2 = z.xid ∧ fld b 4 4 ≠ 0xFFFFFFFF ∧ 0 ≤ d2 t1 ∧ d2 t1 ≤ 2 * 10000 * 65536
      (good → ∃ t, exec (.syncResponse f) s = .next t ∧ t.zenith.t1 = none ∧ t.zenith.lastAccept = some s.now ∧
        t.zenith.qParent = fld b 4 4 ∧ t.zenith.hops = fld b 1 1 + 1 ∧ t.zenith.time = z.time ∧
        t.zenith.c = theta t1 ∧ t.zenith.jump = (if 4294967296000 ≤ (theta t1).natAbs then some (theta t1) else none) ∧
        regField t Reg.zenXchg 0 16 = min (regField s Reg.zenXchg 0 16 + 1) 65535 ∧ same t) ∧
      (¬ good → ∃ t, exec (.syncResponse f) s = .next t ∧ t.zenith = { z with t1 := none, asked := false } ∧ rejected t ∧
        same t)) ∧
    (∀ p, parentPort z.parent = some p → s.boot.state = 1 → z.lastReq + intervalNs s ≤ s.now → Takes s (syncQueue p) 48 →
      ∃ t, exec .syncExchangeStart s = .next t ∧ t.zenith = { z with
        xid := (z.xid + 1) % 65536, t1 := some (z.time, s.now), asked := false, lastReq := s.now } ∧
        out t (syncQueue p) (syncPayload 1 0 ((z.xid + 1) % 65536) 0 .zero .zero) ∧ (z.t1.isSome = true → rejected t) ∧ same t) ∧
    (parentPort z.parent = none ∨ s.now < z.lastReq + intervalNs s → exec .syncExchangeStart s = .next s) ∧
    (∀ t1 at0, z.t1 = some (t1, at0) →
      (z.asked = true → responseWaits s at0 = false → at0 + us 100 < s.now → ∃ t, exec .syncExchangeTimeout s = .next t ∧
        t.zenith = { z with t1 := none, asked := false } ∧ rejected t ∧ same t) ∧
      (z.asked = false ∨ s.now ≤ at0 + us 100 → exec .syncExchangeTimeout s = .next s)) ∧
    (∀ at0, z.lastAccept = some at0 → at0 + 4 * intervalNs s < s.now →
      exec .syncQualityExpiry s = .next { s with zenith := { z with lastAccept := none } })

/-- The outer code (R320, R321): rule 2 corrects any one wrong symbol of a clean burst, and rule 3 restores a clean burst of which one
marked component returned any bytes. -/
def Obligations.OuterCodeCorrects : Prop :=
  ∀ b : Bytes, b.length = 80 → (∀ j, j < 8 → syndrome0 b j = 0 ∧ syndrome1 b j = 0) →
    (∀ (j i : Nat) (v : Byte), j < 8 → i < 10 → v ≠ 0 → decodeTwo (upset b [(symbolPlace j i, v)]) = some (b, 1)) ∧
    (∀ (m : Nat) (b' : Bytes), m < 5 → b'.length = 80 → (∀ i, i % 5 ≠ m → b'.getD i 0 = b.getD i 0) →
      (decodeThree b' m).1 = b)

/-- DRAM_READ and PATROL_SCRUB_READ (R317, R321, R322, R325, R328, R329, R333, R335) answer a next state: a burst that decodes is
counted, returned corrected to its port, and leaves every raw byte alone; one that does not, and that one failing component explains, marks the component; any
other freezes the controller with the fault 0x0C01. A request in self-refresh begins the exit and waits for it;
one that comes during a change or while DDR_PLL is lost waits; one to a frozen controller is not served. The scrub reads the
bursts in order, wraps, and writes a corrected burst back. -/
def Obligations.DramReadsDecode : Prop :=
  ∀ (s : State) (port : DramPort) (burst : Nat) (fault : BurstFault),
    let sub := subOf burst
    let first := upset (rawBurst s burst) fault.first
    let again := upset (rawBurst s burst) fault.second
    let counts (t : State) (n : Nat) : Prop :=
      regField t (Reg.drmCorr sub) 0 16 = min (regField s (Reg.drmCorr sub) 0 16 + n) 65535
    let same (t : State) : Prop := t.doms = s.doms ∧ t.ledger = s.ledger ∧ t.pins = s.pins
    let queued := { s.dram with waiting := s.dram.waiting ++ [.read port burst fault] }
    burstOk s burst = true →
    (dramServing s = true →
      (∀ r, decodeBurst s sub first = some r → ∃ t, exec (.dramRead port burst fault) s = .next t ∧ counts t r.2.1 ∧
        t.dram = { s.dram with idleSince := s.now, returned := tset [] s.dram.returned (dramKey port) (dataOf r.1) } ∧ same t ∧
        t.queues = s.queues) ∧
      (∀ m : Fin 5, decodeBurst s sub first = none → decodeBurst s sub again = none → fault.failed = [m] →
        ∃ t, exec (.dramRead port burst fault) s = .next t ∧ markedComp t sub = some m.val ∧ counts t (decodeThree again m).2 ∧
          rawBurst t burst = (decodeThree again m).1 ∧ (∀ c, c / 80 ≠ burst → Memory.read t.dram.cells c = Memory.read s.dram.cells c) ∧
          tget [] t.dram.returned (dramKey port) = dataOf (decodeThree again m).1 ∧ t.dram.state = .service ∧ same t) ∧
      (decodeBurst s sub first = none → decodeBurst s sub again = none → fault.failed.eraseDups.length ≠ 1 →
        s.anvil.state = .running → ∃ t, exec (.dramRead port burst fault) s = .next t ∧ t.dram.state = .frozen ∧
          t.anvil.state = .faulted ∧ t.anvil.source = 0x0C01 ∧ rawBurst t burst = List.replicate 80 0xFF ∧ t.ledger = s.ledger) ∧
      (∀ r, s.dram.scrubAt = burst → decodeBurst s sub first = some r → ∃ t, exec (.patrolScrubRead fault) s = .next t ∧
        t.dram.scrubAt = (if burst + 1 = burstCount s then 0 else burst + 1) ∧ counts t r.2.1 ∧ same t ∧
        (burst + 1 = burstCount s → regField t Reg.drmScrub 16 16 = min (regField s Reg.drmScrub 16 16 + 1) 65535) ∧
        (r.2.2 = true → 0 < r.2.1 → rawBurst t burst = r.1) ∧ (r.2.1 = 0 → t.dram.cells = s.dram.cells) ∧
        ∀ c, c / 80 ≠ burst → Memory.read t.dram.cells c = Memory.read s.dram.cells c)) ∧
    (s.dram.state = .selfRefresh → ∃ t, exec (.dramRead port burst fault) s = .next t ∧ t.dram = queued ∧ same t ∧
      regField t Reg.drmSr 16 16 = min (regField s Reg.drmSr 16 16 + 1) 65535 ∧
      ((getUnit s 20).wakes = none → ((getUnit s 20).state = .doze → (getUnit t 20).wakes = some (s.now + us 12)) ∧
        ((getUnit s 20).state = .idle → (getUnit t 20).wakes = some (s.now + 1200)))) ∧
    (s.dram.state = .changing ∨ (s.dram.state = .service ∧ dramServing s = false) →
      exec (.dramRead port burst fault) s = .next { s with dram := queued }) ∧
    (s.dram.state = .frozen → exec (.dramRead port burst fault) s = .next s)

/-- ALERT_N, MODE_REGISTER_CHECK, REFRESH, SELF_REFRESH_ENTRY and SELF_REFRESH_EXIT, the DRAM controller (R323, R327, R329, R334, R335),
answer a next state: write errors are counted and a second re-issue that fails freezes the subchannel, as does a mode register
check that fails twice, and the last check owed after a relock returns the DRAM to service; refreshes are issued, or held while DDR_PLL is lost; self-refresh begins after the idle time, and a
request begins its exit. -/
def Obligations.DramControllerActs : Prop :=
  ∀ (s : State) (sub : Fin 8),
    let d := s.dram
    let freezes (t : State) (src : Nat) : Prop := t.dram.state = .frozen ∧ t.dram.cells = d.cells ∧
      (s.anvil.state = .running → t.anvil.state = .faulted ∧ t.anvil.source = src ∧ t.anvil.argument = sub) ∧ t.ledger = s.ledger
    (∀ writes persist : Nat,
      (dramServing s = true →
        (persist = 0 → exec (.alertN sub writes persist) s = .next (regBump s (Reg.drmSub sub) 16 8 writes)) ∧
        (persist = 1 → exec (.alertN sub writes persist) s = .next (regBump s (Reg.drmSub sub) 16 8 (writes * 2))) ∧
        (2 ≤ persist → ∃ t, exec (.alertN sub writes persist) s = .next t ∧ freezes t 0x0C02)) ∧
      (d.state = .frozen → (persist < 2 → exec (.alertN sub writes persist) s = .next s) ∧
        (2 ≤ persist → ∃ t, exec (.alertN sub writes persist) s = .next t ∧ freezes t 0x0C02))) ∧
    (s.held1 = [] → s.held3 = [] → d.checks = [] → dramServing s = true →
      (exec (.modeRegisterCheck sub none) s = .next { s with dram := { d with modeFails := tset 0 d.modeFails sub 0 } }) ∧
      (∀ r, tget 0 d.modeFails sub = 0 → exec (.modeRegisterCheck sub (some r)) s =
        .next { s with dram := { d with modeFails := tset 0 d.modeFails sub 1 } }) ∧
      (∀ r, 1 ≤ tget 0 d.modeFails sub → ∃ t, exec (.modeRegisterCheck sub (some r)) s = .next t ∧ freezes t 0x0C03)) ∧
    (s.held1 = [] → s.held3 = [] → d.checks = [sub.val] → d.state = .service → d.change = [] → d.waiting = [] →
      ∃ t, exec (.modeRegisterCheck sub none) s = .next t ∧ t.dram.lostAt = none ∧ t.dram.checks = [] ∧
        t.dram.state = .service ∧ (getUnit t 20).state = .active ∧ t.ledger = s.ledger ∧
        (d.lostAt.isSome = true → regField t Reg.anvEvent 0 16 = 0x0D06)) ∧
    (∃ t, exec (.refresh sub) s = .next t ∧ ∃ x h, t = { s with dram := { d with refreshes := x, heldRefr := h } } ∧
      (ddrLost s = false → tget 0 x sub = tget 0 d.refreshes sub + 1 ∧ h = d.heldRefr) ∧
      (ddrLost s = true → tget 0 h sub = tget 0 d.heldRefr sub + 1 ∧ x = d.refreshes)) ∧
    (dramServing s = true → s.anvil.state = .running → regField s Reg.drmIdle 0 20 ≠ 0 → noClaims s = true →
      (d.idleSince + us (regField s Reg.drmIdle 0 20) ≤ s.now → ∃ t, exec .selfRefreshEntry s = .next t ∧
        t.dram = { d with state := .selfRefresh } ∧ (getUnit t 20).state = .idle ∧
        regField t Reg.drmSr 0 16 = min (regField s Reg.drmSr 0 16 + 1) 65535 ∧ t.ledger = s.ledger ∧ t.pins = s.pins) ∧
      (s.now < d.idleSince + us (regField s Reg.drmIdle 0 20) → exec .selfRefreshEntry s = .next s)) ∧
    (d.state = .selfRefresh → ∃ t, exec .selfRefreshExit s = .next t ∧
      regField t Reg.drmSr 16 16 = min (regField s Reg.drmSr 16 16 + 1) 65535 ∧
      t.dram = d ∧ ((getUnit s 20).wakes = none →
        ((getUnit s 20).state = .doze → (getUnit t 20).wakes = some (s.now + us 12)) ∧
        ((getUnit s 20).state = .idle → (getUnit t 20).wakes = some (s.now + 1200))) ∧ t.ledger = s.ledger ∧ t.pins = s.pins) ∧
    (d.state ≠ .selfRefresh → exec .selfRefreshExit s = .next s)

/-- PLL_WINDOW_CLOSE, PLL_FEEDBACK_TIMEOUT, PLL_LOCK_TIMEOUT, DDR_PLL_RELOCK_TIMEOUT, REFCLK_ABSENT and REFCLK_PRESENT, the clocks (R339,
R342 to R348, R407), answer a next state: a locked PLL stays locked while its window counts lie within 16 of 1,024 and is lost
beyond; a PLL on bypass locks after four good windows in succession,
and DDR_PLL then owes the mode-register checks; one that does not lock in time, or whose feedback stops, is
lost, and in a recovery its failure ends it; the loss of REFCLK puts NCLK on the oscillator and every running PLL on bypass and is
a fault, and its return is noted. -/
def Obligations.ClocksLockAndFail : Prop :=
  ∀ (s : State) (n : Fin 10) (count : Nat),
    let x := getPll s n
    let off := ((count : Int) - 1024).natAbs
    let lost (t : State) : Prop := (getPll t n).state ≠ .locked ∧
      regField t (Reg.clkPllStat n) 16 8 = min (regField s (Reg.clkPllStat n) 16 8 + 1) 255
    let fault (t : State) (src : Nat) : Prop := s.anvil.state = .running → Faulted t src
    let open_ : Prop := x.lost = false ∧ x.base + (1024 + 128 * x.closings) * refCycle n x < s.now + 50 ∧ s.now ≤ x.since + us 100
    (s.refPresent = true →
      (x.state = .locked → off ≤ 16 → (4 < off → x.far = false) → exec (.pllWindowClose n count) s =
        .next (setPll s n { x with count := count % 65536, far := decide (4 < off) })) ∧
      (x.state = .locked → x.lockedAt ≠ some s.now → 16 < off ∨ (4 < off ∧ x.far = true) → ∃ t, exec (.pllWindowClose n count) s = .next t ∧ lost t ∧
        (n = 1 → fault t 0x0D03) ∧ (n = 2 → fault t 0x0D04) ∧ (n = 3 → fault t 0x0D05) ∧
        (n = 4 → t.dram.lostAt.isSome = true ∧ t.anvil = s.anvil) ∧ (n = 0 → t.suspended = true)) ∧
      (x.state = .bypass → open_ →
        (2 < off → exec (.pllWindowClose n count) s = .next (setPll s n { x with
          count := count % 65536, good := 0, closings := x.closings + 1 })) ∧
        (off ≤ 2 → x.good < 3 → exec (.pllWindowClose n count) s =
          .next (setPll s n { x with count := count % 65536, good := x.good + 1, closings := x.closings + 1 })) ∧
        (off ≤ 2 → 3 ≤ x.good → (n = 4 → s.dram.change = []) → ∃ t, exec (.pllWindowClose n count) s = .next t ∧
          (getPll t n).state = .locked ∧ (getPll t n).fails = 0 ∧ (n = 0 → t.suspended = false) ∧
          (n = 4 → s.dram.state = .service → s.dram.lostAt = none → t.dram.checks = List.range 8)))) ∧
    (x.state = .locked → x.lockedAt ≠ some s.now → n.val = 1 ∨ n.val = 2 ∨ n.val = 3 → ∃ t, exec (.pllFeedbackTimeout n) s = .next t ∧ lost t ∧ fault t (0x0D02 + n)) ∧
    (x.state = .bypass → exec (.pllFeedbackTimeout n) s = .next (setPll s n { x with
      good := 0, closings := 0, base := max x.base s.now })) ∧
    (x.state = .bypass → x.lost = false →
      (x.since + us 100 ≤ s.now → ∃ t, exec (.pllLockTimeout n) s = .next t ∧ lost t ∧
        (n = 0 → 2 ≤ x.fails → fault t 0x0D09 ∧ (getPll t n).state = .failed) ∧
        (s.anvil.state = .recovering → s.boot.state = 1 → s.anvil.window = false → n.val ≠ 1 → n.val ≠ 2 →
          t.anvil.state = .faulted ∧ t.anvil.overflow = true)) ∧
      (s.now < x.since + us 100 → exec (.pllLockTimeout n) s = .next s)) ∧
    (∀ at0, s.dram.lostAt = some at0 → s.dram.checks = [] →
      (at0 + us 20 < s.now → ∃ t, exec .ddrPllRelockTimeout s = .next t ∧ fault t 0x0D07) ∧
      (s.now ≤ at0 + us 20 → exec .ddrPllRelockTimeout s = .next s)) ∧
    (s.refPresent = true → ∃ t, exec .refclkAbsent s = .next t ∧ t.refPresent = false ∧ t.nclkOsc = true ∧
      (∀ i, (getPll t i).state ≠ .locked) ∧ fault t 0x0D01 ∧ t.zenith.lastAccept = none ∧ t.ledger = s.ledger ∧
      t.dram.state = s.dram.state ∧ t.dram.cells = s.dram.cells) ∧
    (s.boot.input = none → exec .refclkPresent s = .next { s with
      refPresent := true, refAbsent := false, nclkOsc := false, zenith := { s.zenith with lastAccept := none } })

/-- UNIT_IDLE_TIMEOUT, UNIT_DOZE_TIMEOUT, UNIT_WAKE and HOLD_EXPIRY, the power units (R93, R350 to R354, R356), answer a next state: an
Active unit out of use goes to Idle and an Idle one to Doze, each after its time; a wake completes when its time has come and the
PLL of the unit is locked: the unit is Active, a bank that comes from Off has its control store from the staged image, and the
DRAM returns to service; a hold that ends leaves the unit where it is. What is not due leaves all as it was. -/
def Obligations.UnitsChangeState : Prop :=
  ∀ (s : State) (u : Fin 22),
    let x := getUnit s u
    let quiet : Prop := ∀ p, (getPort s p).lastUse + ms s.power.dozeMs ≤ s.now
    (x.state = .active → u.val ≠ 20 → inUse s u = false →
      (x.since + us s.power.idleUs ≤ s.now → exec (.unitIdleTimeout u) s = .next (setUnit s u { x with state := .idle })) ∧
      (s.now < x.since + us s.power.idleUs → exec (.unitIdleTimeout u) s = .next s)) ∧
    (inUse s u = true → exec (.unitIdleTimeout u) s = .next s ∧ exec (.unitDozeTimeout u) s = .next s) ∧
    (x.state = .idle → x.hold = none → x.wakes = none → (u.val < 16 ∨ 20 ≤ u.val) → inUse s u = false →
      x.since + ms s.power.dozeMs ≤ s.now → (u.val = 21 → quiet) → (u.val = 20 → s.dram.state = .selfRefresh) →
      ∃ t, exec (.unitDozeTimeout u) s = .next t ∧ (getUnit t u).state = .doze ∧ (getUnit t u).since = s.now ∧
        (∀ j, j ≠ u.val → getUnit t j = getUnit s j) ∧ ∃ un pl h, t = { s with units := un, plls := pl, horizon := h }) ∧
    (x.hold ≠ none ∨ s.now < x.since + ms s.power.dozeMs → exec (.unitDozeTimeout u) s = .next s) ∧
    (∀ at0, x.wakes = some at0 → at0 ≤ s.now → unitClocked s u = true →
      (u.val = 20 → s.dram.waiting = [] ∧ s.held1 = [] ∧ s.held3 = []) →
      ∃ t un st dr, exec (.unitWake u) s = .next t ∧ t = { s with units := un, store := st, dram := dr } ∧
        (getUnit t u).state = .active ∧ (getUnit t u).wakes = none ∧ (∀ j, j ≠ u.val → getUnit t j = getUnit s j) ∧
        (u.val < 8 → x.state = .off → st = { s.store with own := s.store.own.filter (fun e => e.1 / 32 ≠ u.val) }) ∧
        (u.val < 8 ∧ x.state = .off ∨ st = s.store) ∧
        (u.val = 20 → s.dram.state = .selfRefresh → dr = { s.dram with state := .service, idleSince := s.now }) ∧
        (u.val = 20 ∨ dr = s.dram)) ∧
    (∀ at0, x.wakes = some at0 → s.now < at0 ∨ unitClocked s u = false → (u.val = 20 → s.held1 = [] ∧ s.held3 = []) →
      exec (.unitWake u) s = .next s) ∧
    (∀ at0, x.hold = some at0 →
      (at0 ≤ s.now → exec (.holdExpiry u) s = .next (setUnit s u { x with hold := none })) ∧
      (s.now < at0 → exec (.holdExpiry u) s = .next s))

/-- POWER_SLEEP, POWER_HOLD, POWER_DRAM_POINT, POWER_CONFIGURE and POWER_WARM_RESET (R257, R332, R333, R356, R357) answer a next state:
sleep puts each named unit that the board uses at once in the state asked for and ends its hold; hold keeps each at Idle or
above, or ends the holds; a change of operating point begins on bypass, or waits behind one in progress, and is answered when it
completes, at once where the point is the one in force; configure sets the times; and a warm reset, answered first, restarts the
device. -/
def Obligations.PowerRequestsAct : Prop :=
  ∀ (s : State) (f : Frame) (boot : BootInput),
    let b := f.payload
    let toB := decide (fld b 1 1 = 1)
    let same (t : State) : Prop := t.doms = s.doms ∧ t.ledger = s.ledger ∧ t.pins = s.pins
    Arrives s f 0x0A → f.port = .host → Serves s 0 →
    (firstFault (sleepChecks s b) = none → ∃ t, exec (.powerSleep f) s = .next t ∧ Answers s t f 0 0 [] ∧ same t ∧
      ∀ u ∈ namedUnits b, (getUnit t u).hold = none ∧
        (unusedUnit s u = false → (getUnit t u).state = sleepState (fld b 1 1) ∧
          ((u = 20 → s.dram.waiting = []) → (getUnit t u).wakes = none)) ∧
        (unusedUnit s u = true → (getUnit t u).state = (getUnit s u).state)) ∧
    (firstFault (holdChecks s b) = none → ∃ t, exec (.powerHold f) s = .next t ∧ Answers s t f 0 0 [] ∧ same t ∧
      ∀ u ∈ namedUnits b, (fld b 8 4 = 0 → (getUnit t u).hold = none) ∧
        (fld b 8 4 ≠ 0 → (getUnit t u).hold = some (s.now + ms (fld b 8 4)) ∧
          (u ≠ 21 → (getUnit s u).wakes = none → unusedUnit s u = false → (getUnit t u).state ≠ .doze ∧ (getUnit t u).state ≠ .off))) ∧
    (firstFault (pointChecks s b) = none → ∃ t, exec (.powerDramPoint f) s = .next t ∧ t.dram.cells = s.dram.cells ∧
      t.doms = s.doms ∧ t.ledger = s.ledger ∧
      (s.dram.change = [] → s.dram.pointB = toB → t.dram = s.dram ∧ Answers s t f 0 0 []) ∧
      (s.dram.change ≠ [] ∨ s.dram.pointB ≠ toB → t.dram.change = s.dram.change ++ [(toB, some f)] ∧
        t.dram.pointB = s.dram.pointB ∧ getQueue t 17 = getQueue s 17 ∧ t.owed = [(f, none)]) ∧
      (s.dram.change = [] → s.dram.pointB ≠ toB → (getPll s 4).state ≠ .bypass → t.dram.state = .changing ∧ (getPll t 4).state = .bypass)) ∧
    (firstFault (timesChecks b) = none → ∃ t, exec (.powerConfigure f) s = .next t ∧ Answers s t f 0 0 [] ∧ same t ∧
      t.power = { s.power with idleUs := fld b 0xC 4, dozeMs := fld b 0x10 4, linkIdleMs := fld b 0x14 2, telemMs := fld b 0x16 2,
                               telemS := fld b 0x18 2, graceMs := fld b 0x1A 2 }) ∧
    (firstFault (resetChecks b) = none → ∃ t u, exec (.powerWarmReset f boot) s = .next t ∧ Answers s u f 0 0 [] ∧
      t = warmStart u 3 boot ∧ u.doms = s.doms ∧ u.images = s.images)

/-- DIODE_READING, RING_OSCILLATOR_READ, THROTTLE_GRACE_EXPIRY and BANK_CAP_DECREMENT, temperature (R358 to R363, R405), answer a next
state: a diode reading sets H, moves the throttle to Requested at 100.0 °C, with event 0x0E01, and back to Normal below 97.0 °C; a
crossing of 115.0 °C is the fault 0x0E04, two conversions in succession without a result the fault 0x0E05, and a ring oscillator
that crosses 118.0 °C 0x0E04; the eight estimates are the readings with their trims, which are taken anew after 1 s with every
bank down; Enforced follows the grace time, and its bank cap falls by one each second while H stays at 100.0 °C or above. -/
def Obligations.ThermalProtectionActs : Prop :=
  ∀ (s : State) (v : Int),
    let p := s.power
    let h := hotReading { s with power := { p with diode := v } }
    let event (t : State) (src : Nat) : Prop := regField t Reg.anvEvent 0 16 = src
    let down (t : State) : Prop := ∀ u, u < 22 → unusedUnit s u = false → (getUnit t u).state = .doze ∨ (getUnit t u).state = .off
    (-400 ≤ v → v < 920 → s.anvil.pendingRec = none → ∃ t, exec (.diodeReading (some v)) s = .next t ∧
      t.power.diode = v ∧ t.power.diodeOk = true ∧ t.power.hot = h ∧ t.anvil.state = s.anvil.state ∧
      (p.throttle = .normal → h < 800 → t.power.throttle = .normal) ∧
      (p.throttle = .normal → 800 ≤ h → t.power.throttle = .requested ∧ t.power.entered = s.now ∧ event t 0x0E01) ∧
      (p.throttle ≠ .normal → h < 776 → t.power.throttle = .normal ∧ event t 0x0E02) ∧
      (p.throttle ≠ .normal → 776 ≤ h → t.power.throttle = p.throttle) ∧
      t.doms = s.doms ∧ t.ledger = s.ledger ∧ t.pins = s.pins) ∧
    (920 ≤ v → v ≤ 1200 → p.diodeHigh = false → s.anvil.state = .running → s.anvil.pendingRec = none →
      ∃ t, exec (.diodeReading (some v)) s = .next t ∧ Faulted t 0x0E04 ∧ t.anvil.argument = 0xFF ∧ down t) ∧
    (∀ o : Option Int, o.filter (fun v => -400 ≤ v && v ≤ 1200) = none → s.anvil.pendingRec = none →
      (p.invalid = 1 → s.anvil.state = .running → ∃ t, exec (.diodeReading o) s = .next t ∧ Faulted t 0x0E05 ∧
        t.power.diodeOk = false ∧ down t) ∧
      (p.invalid = 0 → exec (.diodeReading o) s = .next { s with power := { p with diodeOk := false, invalid := 1 } })) ∧
    (∀ raw : List Int, raw.length = 8 →
      let anew : Bool := banksDown s && decide (s.horizon.vacantTrim + ms 1000 ≤ s.now) && p.diodeOk
      let temp (b : Nat) : Int := if anew then p.diode else raw.getD b 0 + tget 0 s.horizon.roTrim b
      ((∀ b, b < 8 → temp b < 944) → ∃ t, exec (.ringOscillatorRead raw) s = .next t ∧ (∀ b, b < 8 → bankTemp t b = temp b) ∧
        (anew = true → ∀ b, b < 8 → tget 0 t.horizon.roTrim b = p.diode - raw.getD b 0) ∧
        (anew = false → t.horizon.roTrim = s.horizon.roTrim) ∧
        t.anvil.state = s.anvil.state ∧ t.doms = s.doms ∧ t.ledger = s.ledger ∧ t.pins = s.pins) ∧
      (∀ b, b < 8 → 944 ≤ temp b → tget false p.bankHigh b = false → s.anvil.state = .running →
        ∃ t, exec (.ringOscillatorRead raw) s = .next t ∧ Faulted t 0x0E04 ∧ down t)) ∧
    (p.throttle = .requested → p.entered + ms p.graceMs ≤ s.now → ∃ t, exec .throttleGraceExpiry s = .next t ∧
      t.power.throttle = .enforced ∧ t.power.cap = (activeBanks s).length ∧ t.power.pE = powerSum s ∧ event t 0x0E03 ∧
      t.doms = s.doms) ∧
    (p.throttle ≠ .requested ∨ s.now < p.entered + ms p.graceMs → exec .throttleGraceExpiry s = .next s) ∧
    (p.throttle = .enforced → p.entered + ms 1000 * (p.capSteps + 1) ≤ s.now → exec .bankCapDecrement s = .next
      { s with power := { p with capSteps := p.capSteps + 1, cap := if 800 ≤ p.hot then p.cap - 1 else p.cap } }) ∧
    (p.throttle ≠ .enforced ∨ s.now < p.entered + ms 1000 * (p.capSteps + 1) → exec .bankCapDecrement s = .next s)

/-- DIP_BEGIN, DIP_END, DIP_FAULT, SUPPLY_RESET and TELEMETRY (R364, R365, R367) answer a next state: a dip begins at its first sample; ended
by 400 samples it cautions the jobs whose span it meets and raises 0x0E10; at sample 401, 20 µs after its first, or where it ends
longer, it is the fault 0x0E11, once; a rail at its reset level is a power-on reset; TELEMETRY is sent
once its interval has passed. -/
def Obligations.SupplyIsSupervised : Prop :=
  ∀ (s : State) (r : Rail) (samples : Nat),
    (getDip s r = none → exec (.dipBegin r) s = .next (setDip s r (some { since := s.now, stamp := s.zenith.time, faulted := false })) ∧
      exec (.dipEnd r samples) s = .next s ∧ exec (.dipFault r) s = .next s) ∧
    (∀ x, getDip s r = some x → exec (.dipBegin r) s = .next s ∧
      (x.faulted = false → samples ≤ 400 → ∃ t, exec (.dipEnd r samples) s = .next t ∧
        getDip t r = none ∧ regField t Reg.anvEvent 0 16 = 0x0E10 ∧
        regField t Reg.pwrCaution 0 16 = min (regField s Reg.pwrCaution 0 16 + 1) 65535 ∧
        (∀ d : Fin 16, (getDom s d).phase = .running → zUnits (getDom s d).startAt ≤ zUnits x.stamp →
          (getDom t d).flags.getLsbD 0 = true) ∧
        (∀ d : Fin 16, (getDom s d).phase = .admitted → getDom t d = getDom s d) ∧ t.ledger = s.ledger ∧ t.pins = s.pins) ∧
      (x.faulted = false → 401 ≤ samples → s.anvil.state = .running → ∃ t, exec (.dipEnd r samples) s = .next t ∧
        Faulted t 0x0E11 ∧ getDip t r = none ∧ t.anvil.argument = railCode r) ∧
      (x.faulted = false → x.since + 20000 ≤ s.now → s.anvil.state = .running → ∃ t, exec (.dipFault r) s = .next t ∧
        Faulted t 0x0E11 ∧ getDip t r = some { x with faulted := true } ∧ t.anvil.argument = railCode r) ∧
      (s.now < x.since + 20000 → exec (.dipFault r) s = .next s) ∧
      (x.faulted = true → exec (.dipFault r) s = .next s ∧ exec (.dipEnd r samples) s = .next (setDip s r none))) ∧
    (∀ b : BootInput, ∃ t, exec (.supplyReset b) s = .next t ∧ exec (.powerOnReset b) s = .next t ∧ t.boot.record.kind = 1) ∧
    (∀ gap, gap = (if (getPort s .host).state = .deepIdle then ms (1000 * s.power.telemS) else ms s.power.telemMs) →
      s.boot.state = 1 → gap ≠ 0 →
      (s.power.telemAt + gap ≤ s.now → Takes s 18 64 → ∃ t k, exec .telemetry s = .next t ∧ (getQueue t 18).packets = (getQueue s 18).packets ++ [k] ∧
          k.ty = 0x45 ∧ k.payload = telemetryPayload s ∧
          t.power = { s.power with telemAt := s.now, telemCount := (s.power.telemCount + 1) % 2 ^ 32 } ∧
          t.doms = s.doms ∧ t.ledger = s.ledger) ∧
      (s.now < s.power.telemAt + gap → exec .telemetry s = .next s))

/-- CAL_SET_BOARD_TERMS, CAL_SET_CALIBRATE, CAL_SET_LOAD_CHANNEL_RECORDS, CAL_SET_LOAD_AURORA_RECORDS, CAL_SET_SAVE and
CAL_SET_CONFIGURE (R376, R381 to R383) answer a next state: board terms and records take effect by staging, or by the fence that follows at once while all slots are
free; a calibrate makes every named item due; a save, in compatibility mode, writes the deskew in force to the NVM region; a
configuration sets the background settings. Each is answered, and jobs, Ledger and pins stay. -/
def Obligations.CalibrationRequestsAct : Prop :=
  ∀ (s : State) (f : Frame),
    let b := f.payload
    let n := fld b 2 2
    let same (t : State) : Prop := t.doms = s.doms ∧ t.ledger = s.ledger ∧ t.pins = s.pins
    Arrives s f 0x07 → f.port = .host → Serves s 0 →
    (firstFault (boardChecks s b) = none → ∃ t, exec (.calSetBoardTerms f) s = .next t ∧ Answers s t f 0 0 [] ∧ same t ∧
      ∀ i, i < n → (∀ j, i < j → j < n → fld b (16 + 8 * j) 2 ≠ fld b (16 + 8 * i) 2) →
        (stagedChan t (fld b (16 + 8 * i) 2)).driveBoard = signed 16 (fld b (18 + 8 * i) 2) ∧
        (stagedChan t (fld b (16 + 8 * i) 2)).compareBoard = signed 16 (fld b (20 + 8 * i) 2)) ∧
    (firstFault (calibrateChecks s b) = none → ∃ t, exec (.calSetCalibrate f) s = .next t ∧ Answers s t f 0 0 [] ∧ same t ∧
      (∀ ch : Fin 256, ch.val ∈ calChans b → (bit (fld b 49 1) 0 = true → ∃ x ∈ t.horizon.due, x.item = .deskew ch) ∧
        (bit (fld b 49 1) 1 = true → ∃ x ∈ t.horizon.due, x.item = .linearity ch)) ∧
      (∀ a : Fin 8, a.val ∈ calAuroras b → bit (fld b 49 1) 2 = true → ∃ x ∈ t.horizon.due, x.item = .aurora a) ∧
      (bit (fld b 49 1) 3 = true → ∃ x ∈ t.horizon.due, x.item = .diode)) ∧
    (firstFault (chanLoadChecks s b) = none → ∃ t, exec (.calSetLoadChannelRecords f) s = .next t ∧ Answers s t f 0 0 [] ∧
      same t ∧ ∀ i, i < n → (∀ j, i < j → j < n → fld b (16 + 576 * j) 2 ≠ fld b (16 + 576 * i) 2) →
        stagedChan t (fld b (16 + 576 * i) 2) = readChan b (16 + 576 * i)) ∧
    (firstFault (aurLoadChecks s b) = none → ∃ t, exec (.calSetLoadAuroraRecords f) s = .next t ∧ Answers s t f 0 0 [] ∧
      same t ∧ ∀ i, i < n → (∀ j, i < j → j < n → fld b (16 + 32 * j) 1 ≠ fld b (16 + 32 * i) 1) →
        stagedAurora t (fld b (16 + 32 * i) 1) = readAurora b (16 + 32 * i)) ∧
    (firstFault (saveChecks s b) = none → ∃ t, exec (.calSetSave f) s = .next t ∧ Answers s t f 0 0 [] ∧ same t ∧
      t.boot = { s.boot with nvm := nvmBlock s 0 ++ nvmBlock s 1, saved := true } ∧ t.horizon = s.horizon) ∧
    (firstFault (backgroundChecks b) = none → ∃ t, exec (.calSetConfigure f) s = .next t ∧ Answers s t f 0 0 [] ∧ same t ∧
      t.horizon = { s.horizon with bgEnable := decide (fld b 16 1 = 1), bgDelta := fld b 18 2, bgInterval := fld b 20 4 })

/-- BACKGROUND_CALIBRATION_START, CALIBRATION_RUN_COMPLETE, BG_INTERVAL_EXPIRY and FENCE (R361, R370 to R372, R375 to R377, R403) answer a next
state: an attempt begins for the strongest due item whose unit is free, and none while calibration is off, throttling is Enforced or
the device is not Running, nor does one under way go on; on an Active unit its second run is compared with its first: agreeing values are averaged, staged and
no longer due, disagreeing ones count a failed attempt, and the third failure retires a channel or an Aurora channel, or sets the
diode trim to 0; an item past its interval becomes due; and once all slots are free a fence puts all staged values in force together. -/
def Obligations.CalibrationRunsAndFences : Prop :=
  ∀ (s : State) (item : CalItem) (values : List Int),
    let h := s.horizon
    let same (t : State) : Prop := t.doms = s.doms ∧ t.ledger = s.ledger ∧ t.pins = s.pins
    let may : Prop := h.bgEnable = true ∧ s.power.throttle ≠ .enforced ∧ s.anvil.state = .running ∧ s.boot.state = 1
    let event (t : State) (src : Nat) : Prop := regField t Reg.anvEvent 0 16 = src
    let mean (a : List Int) (i : Nat) : Int := roundDiv (a.getD i 0 + values.getD i 0) 2
    let undue (t : State) : Prop := t.horizon.due = h.due.filter (fun y => y.item ≠ item)
    (∀ x, may → nextDue s = some x → ∃ t, exec .backgroundCalibrationStart s = .next t ∧ same t ∧
      t.horizon = { h with due := h.due.map (fun y => if y.item = x.item then { x with active := true, runA := none } else y) }) ∧
    (¬ may ∨ nextDue s = none → exec .backgroundCalibrationStart s = .next s) ∧
    (∀ x, h.due.find? (fun y => y.item = item) = some x → x.active = true → itemAwake s item = true → may →
      (x.runA = none → ∃ t, exec (.calibrationRunComplete item values) s = .next t ∧ same t ∧
        t.horizon = { h with due := h.due.map (fun y => if y.item = item then { x with runA := some values } else y) }) ∧
      (∀ a, x.runA = some a → runsAgree item a values = true → ∃ t, exec (.calibrationRunComplete item values) s = .next t ∧ same t ∧ undue t ∧
        (∀ ch, item = .deskew ch → (stagedChan t ch).valid = true ∧ (stagedChan t ch).driveDie = mean a 0 ∧
          (stagedChan t ch).compareDie = mean a 1 ∧ (stagedChan t ch).calTime = s.zenith.time ∧
          (stagedChan t ch).lin = (stagedChan s ch).lin) ∧
        (∀ ch, item = .linearity ch → (stagedChan t ch).valid = true ∧ (stagedChan t ch).driveDie = (stagedChan s ch).driveDie ∧
          ∀ i, i < 513 → tget 0 (stagedChan t ch).lin (512 + i) = mean a i) ∧
        (∀ n, item = .aurora n → (stagedAurora t n).valid = true ∧ (stagedAurora t n).gain = mean a 0 ∧
          (stagedAurora t n).offset = mean a 1) ∧
        (item = .diode → t.horizon.stagedDiode.getD t.horizon.diodeTrim = mean a 0)) ∧
      (∀ a, x.runA = some a → runsAgree item a values = false → x.attempts < 2 →
        ∃ t, exec (.calibrationRunComplete item values) s = .next t ∧ same t ∧
          regField t Reg.hznFail 0 16 = min (regField s Reg.hznFail 0 16 + 1) 65535 ∧
          t.horizon = { h with due := h.due.map (fun y => if y.item = item then { x with runA := none, attempts := x.attempts + 1 } else y) }) ∧
      (∀ a, x.runA = some a → runsAgree item a values = false → 2 ≤ x.attempts →
        ∃ t, exec (.calibrationRunComplete item values) s = .next t ∧ (∀ y ∈ t.horizon.due, y.item ≠ item) ∧ t.ledger = s.ledger ∧ t.pins = s.pins ∧
          (∀ ch, item = .deskew ch ∨ item = .linearity ch → t.anvil.retiredCh.contains ch.val = true ∧ event t 0x0F01 ∧
            tget none t.horizon.staged ch = none) ∧
          (∀ n, item = .aurora n → t.anvil.retiredAur.contains n.val = true ∧ event t 0x0F02 ∧
            tget none t.horizon.stagedAur n = none) ∧
          (item = .diode → t.horizon.trimFailed = true ∧ t.horizon.stagedDiode.getD t.horizon.diodeTrim = 0))) ∧
    (∀ x, h.due.find? (fun y => y.item = item) = some x → x.active = false ∨ itemAwake s item = false ∨ ¬ may →
      exec (.calibrationRunComplete item values) s = .next s) ∧
    (∀ e, h.accepted.find? (fun e => e.1 = item) = some e →
      (e.2.1 + h.bgInterval * 1000000000 < s.now →
        ∃ t, exec (.bgIntervalExpiry item) s = .next t ∧ (∃ x ∈ t.horizon.due, x.item = item) ∧ ∃ ho, t = { s with horizon := ho }) ∧
      (s.now ≤ e.2.1 + h.bgInterval * 1000000000 → exec (.bgIntervalExpiry item) s = .next s)) ∧
    (stagedPending s = true → allFree s = true → s.anvil.state = .running → s.boot.state = 1 →
      ∃ t, exec .fence s = .next t ∧ stagedPending t = false ∧ t.horizon.fences = (h.fences + 1) % 2 ^ 32 ∧
        t.horizon.fenceTime = s.zenith.time ∧ t.horizon.diodeTrim = h.stagedDiode.getD h.diodeTrim ∧
        (∀ ch, (∀ e ∈ h.staged, e.1 ≠ ch) → chanRec t ch = chanRec s ch) ∧
        (∀ ch r, (h.staged.filter (fun e => e.1 = ch)) = [(ch, some r)] → chanRec t ch = r) ∧
        (∀ n, (∀ e ∈ h.stagedAur, e.1 ≠ n) → aurRec t n = aurRec s n) ∧
        (∀ n r, (h.stagedAur.filter (fun e => e.1 = n)) = [(n, some r)] → aurRec t n = r) ∧ event t 0x0F10 ∧ same t) ∧
    (stagedPending s = false ∨ allFree s = false ∨ s.anvil.state ≠ .running → exec .fence s = .next s)

/-- PAIR_OWN_CONFLICT and the fault latch (R393 to R395, R407, R446): in a Running device a fault is latched with its time and argument, the
device is Faulted, its window opens and every channel parks; one that arrives while the window is open merges, and one of a lower
code and of the same instant may take its place; one after it
overflows, without a second latch, and ends a recovery with a notice of result 0x04. Stated of the conflict of the pair, whose
source is 0x1103; a device that is not the owner only sees PAIR_OWN_IN high. -/
def Obligations.FaultsLatchMergeOverflow : Prop :=
  ∀ (s : State),
    let a := s.anvil
    let merges (t : State) : Prop := t = { s with ownIn := true, anvil := { a with
      mergeCount := min (a.mergeCount + 1) 255, merged := if a.merged.length < 8 then a.merged ++ [0x1103] else a.merged
      minLevel := max a.minLevel 1 } }
    let overrun (t : State) : Prop := t.anvil.source = a.source ∧ t.anvil.overflow = true ∧
      t.anvil.overflowCount = min (a.overflowCount + 1) 0xFFFF ∧ t.anvil.faultSeq = a.faultSeq ∧
      (a.overCodes.length < 8 → t.anvil.overCodes = a.overCodes ++ [0x1103])
    (s.owner = false → exec .pairOwnConflict s = .next { s with ownIn := true }) ∧
    (s.owner = true →
      (a.state = .running → ∃ t, exec .pairOwnConflict s = .next t ∧ Faulted t 0x1103 ∧ t.anvil.argument = 0 ∧
        t.anvil.minLevel = 1 ∧ (∃ e, e < 409600 ∧ t.anvil.time = stampNow s e) ∧
        t.anvil.faultSeq = a.faultSeq + 1 ∧ t.anvil.mergeCount = 0 ∧ t.anvil.overflow = false ∧ t.memo = [] ∧
        (∀ d : Fin 16, (getDom s d).phase ≠ .free → (getDom t d).halted = true) ∧ t.ledger = s.ledger ∧ t.queues = s.queues) ∧
      (a.state ≠ .running → a.window = true →
        (a.source ≤ 0x1103 ∨ a.latchAt ≠ s.now → ∃ t, exec .pairOwnConflict s = .next t ∧ merges t) ∧
        (∃ t, exec .pairOwnConflict s = .next t ∧ (t.anvil.source = a.source ∨ t.anvil.source = 0x1103) ∧
          t.anvil.mergeCount = min (a.mergeCount + 1) 255 ∧ t.anvil.minLevel = max a.minLevel 1)) ∧
      (a.state = .faulted → a.window = false → ∃ t, exec .pairOwnConflict s = .next t ∧ overrun t ∧ t.anvil.state = .faulted ∧
        ∃ o an, t = { s with ownIn := o, anvil := an }) ∧
      (a.state = .recovering → s.boot.state = 1 → Takes s 16 256 →
        a.overCodes.length ≤ 8 → ∃ t k, exec .pairOwnConflict s = .next t ∧ overrun t ∧ t.anvil.state = .faulted ∧
          (getQueue t 16).packets = (getQueue s 16).packets ++ [k] ∧ k.ty = 0x4A ∧ fld k.payload 0 1 = 4))

/-- FAULT_NOTICE, RECOVER and RECOVERY_COMPLETE (R348, R363, R397 to R401, R405 to R408) answer a next state: the notice closes the window and
leaves no job in a slot or in the window, and its frame carries the latch record and the tags of the jobs discarded; a RECOVER at
or above the minimum level begins the recovery of a cool device and waits in a hot one, one below it, a malformed one or one in a
Running device is answered without effect, and one that comes while another is pending takes its place; a level 1 recovery in
which every PLL that restarted has locked or a HALO_PLL has failed ends Running with every halted block re-initialised and is counted; another PLL's failure ends
it Faulted. -/
def Obligations.FaultsAreNoticedAndRecovered : Prop :=
  ∀ (s : State) (f : Frame),
    let a := s.anvil
    let q16 := getQueue s 16
    let level := fld f.payload 0 1
    let formed : Prop := f.payload.length = 8 ∧ 1 ≤ level ∧ level ≤ 3 ∧ zeros f.payload 1 7 = true
    let noticed (t : State) (result : Nat) : Prop := ∃ k, (getQueue t 16).packets = q16.packets ++ [k] ∧ k.ty = 0x4A ∧
      fld k.payload 0 1 = result
    (s.boot.input = none → a.window = true → a.stopped = false → a.state ≠ .running → s.inbox = [] → s.held3 = [] → ∃ t, exec .faultNotice s = .next t ∧
      t.anvil.window = false ∧ t.anvil.deferred = [] ∧ t.anvil.source = a.source ∧ t.anvil.discarded = (heldTags s).length ∧
      (∀ d : Fin 16, (getDom t d).phase = .free) ∧ t.window = [] ∧ t.store = s.store ∧
      ((∀ n, (getAurora s n).test ≠ some false) → t.images = s.images) ∧ (q16.lines ≠ 0 → q16.dram = false → fits q16 196 = true → ∃ k ∈ (getQueue t 16).packets, k.ty = 0x47 ∧
        k.payload = faultPayload { a with discarded := (heldTags s).length, window := false } (heldTags s))) ∧
    (s.boot.input = none → a.window = false ∨ a.stopped = true → exec .faultNotice s = .next s) ∧
    (Arrives s f 0x09 → f.port = .host → s.boot.state = 1 → formed → a.state = .faulted → a.pendingRec = none → a.minLevel ≤ level →
      (diodeHot s = false → ∃ t, exec (.recover f) s = .next t ∧ t.anvil.state = .recovering ∧ t.anvil.level = level ∧
        t.anvil.drainUntil = s.now + ms 10 ∧ t.ledger = s.ledger ∧ t.pins = s.pins ∧ t.images = s.images) ∧
      (diodeHot s = true → ∃ t, exec (.recover f) s = .next t ∧ t.anvil = { a with pendingRec := some level })) ∧
    (Arrives s f 0x09 → f.port = .host → s.boot.state = 1 → Takes s 16 256 → a.overCodes.length ≤ 8 →
      (formed → a.state = .running → ∃ t, exec (.recover f) s = .next t ∧ noticed t 3 ∧ t.anvil = a) ∧
      (formed → a.state = .faulted → a.pendingRec = none → level < a.minLevel → ∃ t, exec (.recover f) s = .next t ∧ noticed t 1 ∧
        t.anvil = a) ∧
      (¬ formed → a.pendingRec = none → ∃ t, exec (.recover f) s = .next t ∧ noticed t 2 ∧ t.anvil = a) ∧
      (∀ n, formed → a.state = .faulted → a.pendingRec = some n → ∃ t, exec (.recover f) s = .next t ∧
        t.anvil = { a with pendingRec := some level } ∧ t.zenith = s.zenith)) ∧
    (∀ fails : List (Fin 10), a.state = .recovering → a.level = 1 →
      ((∀ n ∈ fails, n.val = 1 ∨ n.val = 2) → pllsSettled (failPlls s fails) = true → ∃ t, exec (.recoveryComplete fails) s = .next t ∧
        t.anvil.state = .running ∧ t.anvil.recoveries = (a.recoveries + 1) % 65536 ∧
        (s.held0 = [] → s.held1 = [] → s.window = [] → t.suspended = false ∧ t.images = s.images ∧ t.store = s.store ∧
          t.cums = [] ∧ t.squalls = [] ∧ t.rings = [])) ∧
      (pllsSettled (failPlls s fails) = false → exec (.recoveryComplete fails) s = .next (failPlls s fails)) ∧
      (∀ n ∈ fails, n.val ≠ 1 → n.val ≠ 2 → pllNeeded s n = true → (getPll s n).state = .bypass →
        (getPll s n).since + us 100 ≤ s.now → s.boot.state = 1 → a.window = false →
        ∃ t, exec (.recoveryComplete fails) s = .next t ∧ t.anvil.state = .faulted ∧ t.anvil.overflow = true)) ∧
    (∀ fails : List (Fin 10), a.state ≠ .recovering ∨ a.level ≠ 1 → exec (.recoveryComplete fails) s = .next s)

/-- NIMBUS_WATCHDOG_EXPIRY, NIMBUS_MEMORY_ERROR and TWINKLE_TRANSITION (R391, R398, R404) answer a next state: a watchdog expiry and an
uncorrectable error in Nimbus memory of a ready device are faults that keep the tags of the slots for the warm start to come
and discard nothing; during a start the error is a fault of level 3; TWINKLE toggles every 500 µs while it is on. -/
def Obligations.NimbusFaultsAndTwinkle : Prop :=
  ∀ (s : State),
    let a := s.anvil
    let keeps (t : State) : Prop := t.anvil.nimbus = true ∧ t.anvil.drainUntil = s.now + ms 10 ∧ t.queues = s.queues ∧
      t.anvil.tags = ((List.range 16).filter (fun d => (getDom s d).phase ≠ .free)).map (fun d => (getDom s d).tag) ∧
      t.window = s.window ∧ t.images = s.images
    (a.watchdog = true → a.stopped = false → ∃ t, exec .nimbusWatchdogExpiry s = .next t ∧ keeps t ∧
      (a.state = .running → Faulted t 0x1002)) ∧
    (a.watchdog = true → a.stopped = true → a.state ≠ .running → ∃ t, exec .nimbusWatchdogExpiry s = .next t ∧
      t.anvil.watchdog = false ∧ t.anvil.tags = a.tags ∧ t.queues = s.queues) ∧
    (a.watchdog = false → exec .nimbusWatchdogExpiry s = .next s) ∧
    (s.boot.state = 1 → a.stopped = false → ∃ t, exec .nimbusMemoryError s = .next t ∧ keeps t ∧
      (a.state = .running → Faulted t 0x1001)) ∧
    (s.boot.state ≠ 1 → ∃ t, exec .nimbusMemoryError s = .next t ∧ 3 ≤ t.anvil.minLevel ∧ (a.state = .running → Faulted t 0x1001)) ∧
    (a.twinkleOn = true → a.twinkleAt ≤ s.now → exec .twinkleTransition s =
      .next { s with anvil := { a with twinkle := !a.twinkle, twinkleAt := a.twinkleAt + us 500 } }) ∧
    (a.twinkleOn = false ∨ s.now < a.twinkleAt → exec .twinkleTransition s = .next s)

/-- POWER_ON_RESET, SUPPLY_RESET, RESET_N, NIMBUS_DRAIN_END, RECOVERY_DRAIN_END, REFCLK_WAIT_TIMEOUT, PORT_H_WAIT_TIMEOUT, and REFCLK_PRESENT and FAULT_NOTICE
during a start (R404, R406, R407, R415, R417, R420, R421, R423, R426, R427), answer a next state: where the fuses, the flash, an
image copy, REFCLK, the PLLs and point A of the DRAM pass at once, port H comes up and the die is cool, a start of any kind reaches
ready with the device Running, no job and no image, and a recovery by restart is counted; a power-on start waits at step 6 until
REFCLK is found present, and goes on; a start halts at the step of its fuses, its flash or
its image where these fail; one that waits for REFCLK halts after its timeout; one that waits for port H goes on; and a fault
source taken meanwhile halts it. -/
def Obligations.StartsReachReady : Prop :=
  ∀ (s : State) (b : BootInput),
    let up : Prop := ∃ l, b.portHUp = some l ∧ l.1 ≠ 0
    let image : Prop := copyOk b.copyA = true ∨ copyOk b.copyB = true
    let read : Prop := b.fusesOk = true ∧ (b.probe8d = true ∨ b.probe1s = true) ∧ image
    let runs : Prop := b.pllFails = [] ∧ b.binsFailedA = 0 ∧ up
    let cool : Prop := ∀ v, b.diode = some v → v < 920
    let good : Prop := s.refPresent = true ∧ read ∧ runs ∧ cool
    let halted (t : State) (k : Nat) : Prop := t.boot.state = 2 ∧ t.boot.record.halt = k ∧ t.boot.input = none ∧ t.doms = []
    let inService (t : State) (kind : Nat) : Prop := ready t = true ∧ t.anvil.window = false ∧ t.boot.record.kind = kind ∧
      t.doms = [] ∧ t.images = [] ∧ t.dram.state = .service ∧ t.zenith.time = s.zenith.time
    (∀ c ∈ [Instr.powerOnReset b, .supplyReset b],
      (read → ∃ t, exec c s = .next t ∧ t.boot.input = some b ∧ t.boot.step = 6 ∧ t.boot.state = 0 ∧ t.boot.record.kind = 1 ∧
        t.boot.record.seq = 1 ∧ faultInStart t = false ∧ t.power.invalid = 0 ∧ t.doms = [] ∧ t.straps = b.straps) ∧
      (b.fusesOk = false → ∃ t, exec c s = .next t ∧ halted t 2) ∧
      (b.fusesOk = true → b.probe8d = false → b.probe1s = false → ∃ t, exec c s = .next t ∧ halted t 3) ∧
      (b.fusesOk = true → b.probe8d = true ∨ b.probe1s = true → ¬ image → ∃ t, exec c s = .next t ∧ halted t 4)) ∧
    (good → started s = true → ∃ t, exec (.resetN b) s = .next t ∧ inService t 2 ∧ t.straps = s.straps ∧
      t.boot.warm = min (s.boot.warm + 1) 0xFFFF) ∧
    (started s = false → exec (.resetN b) s = .next s) ∧
    (good → s.anvil.stopped = true → s.boot.state = 1 →
      ∃ t, exec (.nimbusDrainEnd b) s = .next t ∧ inService t 4 ∧ t.anvil.tagsIncomplete = true) ∧
    (s.anvil.stopped = false → exec (.nimbusDrainEnd b) s = .next s) ∧
    (s.refPresent = true → runs → cool → s.anvil.state = .recovering → s.anvil.level = 2 ∨ (s.anvil.level = 3 ∧ read) →
      ∃ t, exec (.recoveryDrainEnd b) s = .next t ∧ inService t (s.anvil.level + 3) ∧
        t.anvil.recoveries = (s.anvil.recoveries + 1) % 65536) ∧
    (s.anvil.state ≠ .recovering → exec (.recoveryDrainEnd b) s = .next s) ∧
    (s.boot.input = some b → s.boot.step = 6 →
      (∃ t, exec .refclkWaitTimeout s = .next t ∧ t.boot.state = 2 ∧ t.boot.record.halt = 6 ∧ t.boot.input = none) ∧
      (s.boot.state = 0 → faultInStart s = false → s.power.invalid = 0 → runs → cool → ∃ t, exec .refclkPresent s = .next t ∧ ready t = true ∧
        t.boot.input = none ∧ t.refPresent = true)) ∧
    (s.boot.input = some b → s.boot.step = 10 → s.boot.state = 0 → faultInStart s = false → s.power.invalid = 0 → cool →
      s.inbox = [] → ∃ t, exec .portHWaitTimeout s = .next t ∧ ready t = true ∧ t.boot.input = none) ∧
    (s.boot.input = some b → faultInStart s = true → s.inbox = [] → ∃ t, exec .faultNotice s = .next t ∧ t.boot.state = 2 ∧
      t.boot.record.halt = s.boot.step ∧ t.boot.input = none) ∧
    (s.boot.input = none → exec .refclkWaitTimeout s = .next s ∧ exec .portHWaitTimeout s = .next s)

/-- GLOBAL_EVENT (R434, R435) answers a next state: an accepted event is noted as its origin's last and sets its latch in every site of a
domain from its admission on, and a frame with hops left goes on at the opposite port with one hop less, where that port has a live
lane; one that is not accepted is counted stale and sets nothing. -/
def Obligations.RingEventsPass : Prop :=
  ∀ (s : State) (f : Frame),
    let b := f.payload
    let origin := fld b 2 1
    let accepted := acceptsEvent (deviceId s) origin (tget 0 s.originIds origin) (fld b 4 2)
    let o := opposite f.port
    let q := getQueue s o.2
    Arrives s f 0x81 →
    ∃ t, exec (.globalEvent f) s = .next t ∧ t.doms = s.doms ∧ t.ledger = s.ledger ∧ t.pins = s.pins ∧
      (accepted = true → tget 0 t.originIds origin = fld b 4 2 + 1 ∧
        ∀ d k, d < 16 → latching (getDom s d) = true → k < (getDom s d).sites →
          latchSet (getDom t d) (getSite t d k) (8 + fld b 0 1) = true) ∧
      (accepted = false → t.sites = s.sites ∧ t.squalls = s.squalls ∧ t.auroras = s.auroras ∧ t.originIds = s.originIds ∧
        regField t Reg.ringCount 16 16 = min (regField s Reg.ringCount 16 16 + 1) 65535) ∧
      (1 < fld b 1 1 → portHasLive s o.1 = true → Takes s o.2 24 → b.length = 24 →
        regField t Reg.ringFwd 0 32 = min (regField s Reg.ringFwd 0 32 + 1) (2 ^ 32 - 1) ∧
        ∃ k, (getQueue t o.2).packets = q.packets ++ [k] ∧ k.ty = 0x81 ∧ k.flags = f.flags ∧ fld k.payload 1 1 = fld b 1 1 - 1 ∧
          k.payload.take 1 = b.take 1 ∧ k.payload.drop 2 = b.drop 2) ∧
      (fld b 1 1 ≤ 1 ∨ portHasLive s o.1 = false → t.queues = (freeLines (acceptFrame s f) f).queues)

/-- PAIR_DIGEST, DIGEST_TIMEOUT, PAIR_TAKEOVER, PAIR_OWN_IN_LOW and OWNER_CLAIM (R438, R442 to R445) answer a next state: a digest that
agrees with the device's own closes its window and is counted, one that differs, one of kind 4, or none in time, ends the job
DISCARDED, and one that comes first waits; kind 3 leaves an owner's job to go on without comparison and ends a shadow's;
PAIR_TAKEOVER only informs; a shadow that sees PAIR_OWN_IN low discards its copies and takes over at the job boundary; and a ready
device whose PAIR_ROLE is low claims ownership. -/
def Obligations.PairComparesAndTakesOver : Prop :=
  ∀ (s : State) (f : Frame) (d : Fin 16),
    let x := getDom s d
    let g := readDigest s f.payload
    let open_ : Prop := compared s x = true ∧ s.anvil.state = .running ∧ x.endClock ≠ clock x - 1 + 1
    let overrun (t : State) : Prop := (getDom t d).ended.map Ending.status = some 7 ∧ regField t Reg.anvJobErr 0 16 = 0x1101
    let ends (t : State) : Prop := overrun t ∧ regField t Reg.paiCount 16 8 = min (regField s Reg.paiCount 16 8 + 1) 255
    (Arrives s f 0x82 → slotOf s (BitVec.ofNat 32 (fld f.payload 4 4)) = some d.val → compared s x = true →
      (g.kind = 1 ∨ g.kind = 2 → x.pair.partner = [] →
        (∀ own, x.pair.own = [own] → own.window = g.window →
          (agree own g = true → ∃ t, exec (.pairDigest f) s = .next t ∧ (getDom t d).pair.own = [] ∧
            (getDom t d).pair.partner = [] ∧ (getDom t d).phase = x.phase ∧ (own.kind = 2 → (getDom t d).pair.final = true) ∧
            regField t Reg.paiCount 0 16 = min (regField s Reg.paiCount 0 16 + 1) 65535 ∧ t.ledger = s.ledger ∧ t.pins = s.pins) ∧
          (agree own g = false → open_ → ∃ t, exec (.pairDigest f) s = .next t ∧ ends t)) ∧
        ((∀ own ∈ x.pair.own, own.window ≠ g.window) → ∃ t, exec (.pairDigest f) s = .next t ∧
          (getDom t d).pair.partner = [g] ∧ (getDom t d).pair.own = x.pair.own ∧ (getDom t d).phase = x.phase ∧
          t.ledger = s.ledger ∧ t.pins = s.pins)) ∧
      (g.kind = 4 → open_ → ∃ t, exec (.pairDigest f) s = .next t ∧ ends t) ∧
      (g.kind = 3 → shadow s = true → open_ → ∃ t, exec (.pairDigest f) s = .next t ∧ overrun t) ∧
      (g.kind = 3 → shadow s = false → ∃ t, exec (.pairDigest f) s = .next t ∧
        getDom t d = { x with pair := { x.pair with alone := true } } ∧ t.ledger = s.ledger ∧ t.pins = s.pins ∧
        regField t Reg.paiUnshadowed 0 16 = min (regField s Reg.paiUnshadowed 0 16 + 1) 65535)) ∧
    (Arrives s f 0x82 → slotOf s (BitVec.ofNat 32 (fld f.payload 4 4)) = none → ∃ t, exec (.pairDigest f) s = .next t ∧
      t.doms = s.doms ∧ t.ledger = s.ledger ∧ t.pins = s.pins) ∧
    (∀ window, let due := x.pair.own.any (fun g => g.window = window && decide (g.at_ + us (digestTimeoutUs s) ≤ s.now))
      (x.phase ≠ .free → open_ → due = true → ∃ t, exec (.digestTimeout d window) s = .next t ∧ ends t) ∧
      (due = false → exec (.digestTimeout d window) s = .next s)) ∧
    (Arrives s f 0x83 → ∃ t, exec (.pairTakeover f) s = .next t ∧ t = freeLines (acceptFrame s f) f) ∧
    (shadow s = true → ready s = true →
      (allFree s = true → ∃ t, exec .pairOwnInLow s = .next t ∧ t.owner = true ∧
        t.ownIn = false ∧ t.takeover = false ∧ regField t Reg.paiCount 24 8 = min (regField s Reg.paiCount 24 8 + 1) 255 ∧
        regField t Reg.anvEvent 0 16 = 0x1102 ∧ t.doms = s.doms) ∧
      (x.phase ≠ .free → x.ended = none → ∃ t, exec .pairOwnInLow s = .next t ∧ t.owner = false ∧
        t.takeover = true ∧ t.ownIn = false ∧ (getDom t d).ended.map Ending.status = some 7)) ∧
    (shadow s = false ∨ ready s = false → exec .pairOwnInLow s = .next { s with ownIn := false }) ∧
    (pairEnable s = true → ready s = true → s.straps.getLsbD 1 = false →
      exec .ownerClaim s = .next { s with ownIn := false, owner := true }) ∧
    (pairEnable s = false ∨ ready s = false ∨ s.straps.getLsbD 1 = true → exec .ownerClaim s = .next s)

/-- EXT_TRIG, MARK_OUT, SYS_PEC_WR and PEC_FRAME_COMPLETE (R58, R459 to R464) answer a next state: EXT_TRIG_n sets latch n of every site of a
domain from its admission on, readable 6 ECLK later; a pending marker rises at its time or after the gap to the pulse before it, which is
counted; a control-port word is queued, sent at once on an idle port, and discarded unsent in a shadow; the end of its frame is
accepted, with a read's data noted, repeated once, or dropped as a nack, and the next word starts. -/
def Obligations.PinsAndPortsAct : Prop :=
  ∀ (s : State) (n : Fin 8) (o : Fin 32) (word : Word) (status : Byte) (data : BitVec 16) (crc : Byte),
    let m := getMark s n
    let x := getPec s o
    let c := exec (.pecFrameComplete o status data crc) s
    (∃ t, exec (.extTrig n) s = .next t ∧
      (∃ si sq au re, t = { s with sites := si, squalls := sq, auroras := au, regs := re }) ∧
      ∀ d k, d < 16 → latching (getDom s d) = true → k < (getDom s d).sites →
        (n.val, theClock s d + 6) ∈ (getSite t d k).latches) ∧
    (m.pending = [] → exec (.markOut n) s = .next s) ∧
    (∀ at0 r, m.pending = at0 :: r → ∃ t u, exec (.markOut n) s = .next t ∧ getMark t n = { pending := r, rise := some u } ∧
      (m.rise = none → u = at0) ∧ (∀ w, m.rise = some w → u = max at0 (w + markGap)) ∧
      (u = at0 → t.regs = s.regs) ∧
      (u ≠ at0 → regField t Reg.markStat 0 16 = min (regField s Reg.markStat 0 16 + 1) 65535) ∧
      (∀ j, j ≠ n.val → getMark t j = getMark s j) ∧ ∃ mk re, t = { s with marks := mk, regs := re }) ∧
    (pecOk word.toNat = true → pecFull s o = false → shadow s = false →
      (x.busy.isSome = true → exec (.sysPecWr o word) s = .next (setPec s o { x with queue := x.queue ++ [word] })) ∧
      (x.busy = none → x.queue = [] →
        exec (.sysPecWr o word) s = .next (setPec s o { queue := [], busy := some word, repeated := false }))) ∧
    (pecOk word.toNat = false ∨ pecFull s o = true ∨ shadow s = true → exec (.sysPecWr o word) s = .next s) ∧
    (x.busy = none → c = .next s) ∧
    (∀ w, x.busy = some w →
      (pecAccepted w status data crc = false → x.repeated = false → c = .next (setPec s o { x with repeated := true })) ∧
      (s.held3 = [] → pecAccepted w status data crc = true ∨ x.repeated = true → ∃ t pe re, c = .next t ∧
        t = { s with pecs := pe, regs := re } ∧ (getPec t o).busy = x.queue.head? ∧ (getPec t o).queue = x.queue.tail ∧
        (getPec t o).repeated = false ∧ (∀ j, j ≠ o.val → getPec t j = getPec s j) ∧
        (pecAccepted w status data crc = false →
          regField t (Reg.pecStat o) 8 8 = min (regField s (Reg.pecStat o) 8 8 + 1) 255) ∧
        (pecAccepted w status data crc = true → bits w.toNat 31 28 ≠ 3 → re = s.regs) ∧
        (pecAccepted w status data crc = true → bits w.toNat 31 28 = 3 →
          regField t (Reg.pecStat o) 16 16 = data.toNat ∧ regField t (Reg.pecStat o) 7 1 = 1)))

/-- BYPASS, IDCODE, SAMPLE_PRELOAD, EXTEST, EXTEST_PULSE, EXTEST_TRAIN, CLAMP, HIGHZ, DEBUG, UNLOCK and UNLOCK_VERIFY, the JTAG port (R465 to
R467), answer a next state: each instruction selects its register and changes nothing else; UNLOCK issues a challenge, or acts as
BYPASS after three failures; a verification that holds grants its scope and any other is a failure, each with a new challenge;
one where UNLOCK is not selected, or after three failures, does nothing. The challenge is a free value. -/
def Obligations.JtagSelectsAndUnlocks : Prop :=
  ∀ (s : State) (cells challenge signature pubkey : Bytes) (scope : Byte),
    let j := s.jtag
    let selects (c : Instr) (code : Nat) : Prop := exec c s = .next { s with jtag := { j with ir := code } }
    selects .bypass 0xFF ∧ selects .idcode 0x01 ∧ selects .extest 0x03 ∧ selects .extestPulse 0x04 ∧ selects .extestTrain 0x05 ∧
    selects .clamp 0x06 ∧ selects .highz 0x07 ∧ selects .debug 0x21 ∧
    (exec (.samplePreload cells) s = .next { s with jtag := { j with ir := 0x02, cells := cells } }) ∧
    (∀ t, exec .idcode s = .next t → captureDr t = 0x14E565B3) ∧
    (3 ≤ j.failures → selects .unlock 0xFF) ∧
    (j.failures < 3 → ∃ t v, exec .unlock s = .next t ∧
      t = { s with free := t.free, jtag := { j with ir := 0x20, challenge := v, issued := j.issued + 1 } } ∧ v < 2 ^ 256) ∧
    (j.ir = 0x20 → j.failures < 3 → ∃ t v, exec (.unlockVerify challenge scope signature pubkey) s = .next t ∧ v < 2 ^ 256 ∧
      (unlockOk s challenge scope signature pubkey = true → t = { s with free := t.free, jtag :=
        { j with scope := scope.toNat, challenge := v, issued := j.issued + 1 } } ∧ (scope = 1 ∨ scope = 2)) ∧
      (unlockOk s challenge scope signature pubkey = false → t = { s with free := t.free, jtag :=
        { j with failures := j.failures + 1, challenge := v, issued := j.issued + 1 } })) ∧
    (j.ir ≠ 0x20 ∨ 3 ≤ j.failures → exec (.unlockVerify challenge scope signature pubkey) s = .next s)

/-- DEBUG_ACCESS, PE_LOOP, JET_LOOP, PRBS, BIST_GO and BIST_COMPLETE (R468, R469) answer a next state: under DEBUG an unlocked port reads a
register, with the effects of a read, and under scope 2 or in lab state writes one, with the outcome shown; a locked port is
refused; a test mode sets its field of SYS_TEST while no domain is admitted, and is refused otherwise; without DEBUG nothing
happens; the SRAM test suspends admission until it completes. -/
def Obligations.DebugAndTestModesAct : Prop :=
  ∀ (s : State) (reg : BitVec 66) (on : Bool) (ports : BitVec 4) (errors : Nat),
    let v := reg.toNat
    let a := bits v 63 32
    let same (t : State) : Prop := t.doms = s.doms ∧ t.ledger = s.ledger ∧ t.pins = s.pins
    let shows (u : State) (r : Nat) : State := { u with jtag := { u.jtag with result := BitVec.ofNat 66 r } }
    let done (t : State) (value : Nat) : Prop := t.jtag = { s.jtag with result := BitVec.ofNat 66 (value % 2 ^ 32 + 2 ^ 65) }
    let refused (c : Instr) : Prop := exec c s = .next (shows s (2 ^ 64 + 2 ^ 65))
    let test (t : State) (lo w n : Nat) : Prop := regField t Reg.test lo w = n ∧ done t 0 ∧ same t
    let loops : Bool := bit (stored s Reg.test) 5 && decide (bits (stored s Reg.test) 4 1 ≠ 0)
    (s.jtag.ir = 0x21 →
      (bit v 65 = false → exec (.debugAccess reg) s = .next s) ∧
      (bit v 65 = true → bit v 64 = false →
        (debugOpen s = true → ∀ r, readReg s a = some r → exec (.debugAccess reg) s = .next (shows r.2 (r.1 % 2 ^ 32 + 2 ^ 65))) ∧
        (debugOpen s = false ∨ readReg s a = none → refused (.debugAccess reg))) ∧
      (bit v 65 = true → bit v 64 = true → index a (Reg.dftCfg 0) 0x10 64 = none →
        (debugWrites s = false → refused (.debugAccess reg)) ∧
        (debugWrites s = true →
          (∀ u, writeReg s true a (bits v 31 0) 0xFFFFFFFF = .done u → exec (.debugAccess reg) s = .next (shows u (2 ^ 65))) ∧
          (writeReg s true a (bits v 31 0) 0xFFFFFFFF = .wait → exec (.debugAccess reg) s = .next (shows s 0)) ∧
          (∀ e, writeReg s true a (bits v 31 0) 0xFFFFFFFF = .fail e → refused (.debugAccess reg)) ∧
          (a = Reg.drmScrub → ∃ t, exec (.debugAccess reg) s = .next t ∧
            done t 0 ∧ regField t Reg.drmScrub 0 14 = bits v 31 0 % 2 ^ 14 ∧ same t))) ∧
      (debugWrites s = true → allFree s = true →
        (∃ t, exec (.peLoop on) s = .next t ∧ test t 0 1 (b2n on)) ∧
        (∃ t, exec (.jetLoop ports) s = .next t ∧ test t 1 4 ports.toNat) ∧
        (∃ t, exec (.prbs on errors) s = .next t ∧ test t 5 1 (b2n on) ∧
          (on = true → regField s Reg.test 1 4 ≠ 0 →
            regField t Reg.testStat 0 16 = min (regField s Reg.testStat 0 16 + errors) 65535)) ∧
        (∃ t, exec .bistGo s = .next t ∧ t.bist = true ∧ done t 0 ∧ same t)) ∧
      (debugWrites s = false ∨ allFree s = false →
        refused (.peLoop on) ∧ refused (.jetLoop ports) ∧ refused .bistGo ∧ (loops = false → refused (.prbs on errors)))) ∧
    (s.jtag.ir ≠ 0x21 → exec (.debugAccess reg) s = .next s ∧ exec (.peLoop on) s = .next s ∧ exec (.jetLoop ports) s = .next s ∧
      exec .bistGo s = .next s ∧ (loops = false → exec (.prbs on errors) s = .next s)) ∧
    (∀ failed, (s.bist = true → s.window = [] → s.held0 = [] → ∃ t, exec (.bistComplete failed) s = .next t ∧ t.bist = false ∧
        regField t Reg.testStat 16 1 = 1 ∧ regField t Reg.testStat 17 1 = b2n failed ∧ same t) ∧
      (s.bist = false → exec (.bistComplete failed) s = .next s))
end

