-- ==== Sys2Proof/Laws/State.lean ====
section
/-! SUPPORT. What each update of the state leaves as it was: for every setter, one equation per field it does not
write, all by definition. -/

namespace Sys2Proof.Machine

@[simp] theorem setDom_keeps (s : State) (i : Nat) (x : Dom) :
    (setDom s i x).pending = s.pending ∧ (setDom s i x).now = s.now ∧ (setDom s i x).free = s.free ∧
    (setDom s i x).regs = s.regs ∧ (setDom s i x).window = s.window ∧ (setDom s i x).memo = s.memo ∧
    (setDom s i x).done = s.done ∧ (setDom s i x).flows = s.flows ∧ (setDom s i x).sites = s.sites ∧
    (setDom s i x).store = s.store ∧ (setDom s i x).pins = s.pins ∧ (setDom s i x).rings = s.rings ∧
    (setDom s i x).buckets = s.buckets ∧ (setDom s i x).turns = s.turns ∧ (setDom s i x).cums = s.cums ∧
    (setDom s i x).ledger = s.ledger ∧ (setDom s i x).virgas = s.virgas ∧ (setDom s i x).squalls = s.squalls ∧
    (setDom s i x).auroras = s.auroras ∧ (setDom s i x).ports = s.ports ∧ (setDom s i x).lanes = s.lanes ∧
    (setDom s i x).queues = s.queues ∧ (setDom s i x).orders = s.orders ∧ (setDom s i x).held0 = s.held0 ∧
    (setDom s i x).held1 = s.held1 ∧ (setDom s i x).held3 = s.held3 ∧ (setDom s i x).inbox = s.inbox ∧
    (setDom s i x).owed = s.owed ∧ (setDom s i x).written = s.written ∧ (setDom s i x).images = s.images ∧
    (setDom s i x).stagings = s.stagings ∧ (setDom s i x).nextHandle = s.nextHandle ∧
    (setDom s i x).nextStaging = s.nextStaging ∧ (setDom s i x).zenith = s.zenith ∧
    (setDom s i x).dram = s.dram ∧ (setDom s i x).plls = s.plls ∧ (setDom s i x).refPresent = s.refPresent ∧
    (setDom s i x).refAbsent = s.refAbsent ∧ (setDom s i x).nclkOsc = s.nclkOsc ∧
    (setDom s i x).suspended = s.suspended ∧ (setDom s i x).units = s.units ∧ (setDom s i x).power = s.power ∧
    (setDom s i x).horizon = s.horizon ∧ (setDom s i x).anvil = s.anvil ∧ (setDom s i x).boot = s.boot ∧
    (setDom s i x).launchId = s.launchId ∧ (setDom s i x).originIds = s.originIds ∧
    (setDom s i x).owner = s.owner ∧ (setDom s i x).ownIn = s.ownIn ∧ (setDom s i x).pecs = s.pecs ∧
    (setDom s i x).marks = s.marks ∧ (setDom s i x).jtag = s.jtag ∧ (setDom s i x).straps = s.straps ∧
    (setDom s i x).bist = s.bist ∧ (setDom s i x).takeover = s.takeover := by
  and_intros <;> rfl

@[simp] theorem setVirga_keeps (s : State) (i : Nat) (x : Virga) :
    (setVirga s i x).pending = s.pending ∧ (setVirga s i x).now = s.now ∧ (setVirga s i x).free = s.free ∧
    (setVirga s i x).regs = s.regs ∧ (setVirga s i x).window = s.window ∧ (setVirga s i x).memo = s.memo ∧
    (setVirga s i x).done = s.done ∧ (setVirga s i x).doms = s.doms ∧ (setVirga s i x).flows = s.flows ∧
    (setVirga s i x).sites = s.sites ∧ (setVirga s i x).store = s.store ∧ (setVirga s i x).pins = s.pins ∧
    (setVirga s i x).rings = s.rings ∧ (setVirga s i x).buckets = s.buckets ∧ (setVirga s i x).turns = s.turns ∧
    (setVirga s i x).cums = s.cums ∧ (setVirga s i x).ledger = s.ledger ∧ (setVirga s i x).squalls = s.squalls ∧
    (setVirga s i x).auroras = s.auroras ∧ (setVirga s i x).ports = s.ports ∧ (setVirga s i x).lanes = s.lanes ∧
    (setVirga s i x).queues = s.queues ∧ (setVirga s i x).orders = s.orders ∧ (setVirga s i x).held0 = s.held0 ∧
    (setVirga s i x).held1 = s.held1 ∧ (setVirga s i x).held3 = s.held3 ∧ (setVirga s i x).inbox = s.inbox ∧
    (setVirga s i x).owed = s.owed ∧ (setVirga s i x).written = s.written ∧ (setVirga s i x).images = s.images ∧
    (setVirga s i x).stagings = s.stagings ∧ (setVirga s i x).nextHandle = s.nextHandle ∧
    (setVirga s i x).nextStaging = s.nextStaging ∧ (setVirga s i x).zenith = s.zenith ∧
    (setVirga s i x).dram = s.dram ∧ (setVirga s i x).plls = s.plls ∧
    (setVirga s i x).refPresent = s.refPresent ∧ (setVirga s i x).refAbsent = s.refAbsent ∧
    (setVirga s i x).nclkOsc = s.nclkOsc ∧ (setVirga s i x).suspended = s.suspended ∧
    (setVirga s i x).units = s.units ∧ (setVirga s i x).power = s.power ∧ (setVirga s i x).horizon = s.horizon ∧
    (setVirga s i x).anvil = s.anvil ∧ (setVirga s i x).boot = s.boot ∧ (setVirga s i x).launchId = s.launchId ∧
    (setVirga s i x).originIds = s.originIds ∧ (setVirga s i x).owner = s.owner ∧
    (setVirga s i x).ownIn = s.ownIn ∧ (setVirga s i x).pecs = s.pecs ∧ (setVirga s i x).marks = s.marks ∧
    (setVirga s i x).jtag = s.jtag ∧ (setVirga s i x).straps = s.straps ∧ (setVirga s i x).bist = s.bist ∧
    (setVirga s i x).takeover = s.takeover := by
  and_intros <;> rfl

@[simp] theorem setSquall_keeps (s : State) (i : Nat) (x : Squall) :
    (setSquall s i x).pending = s.pending ∧ (setSquall s i x).now = s.now ∧ (setSquall s i x).free = s.free ∧
    (setSquall s i x).regs = s.regs ∧ (setSquall s i x).window = s.window ∧ (setSquall s i x).memo = s.memo ∧
    (setSquall s i x).done = s.done ∧ (setSquall s i x).doms = s.doms ∧ (setSquall s i x).flows = s.flows ∧
    (setSquall s i x).sites = s.sites ∧ (setSquall s i x).store = s.store ∧ (setSquall s i x).pins = s.pins ∧
    (setSquall s i x).rings = s.rings ∧ (setSquall s i x).buckets = s.buckets ∧
    (setSquall s i x).turns = s.turns ∧ (setSquall s i x).cums = s.cums ∧ (setSquall s i x).ledger = s.ledger ∧
    (setSquall s i x).virgas = s.virgas ∧ (setSquall s i x).auroras = s.auroras ∧
    (setSquall s i x).ports = s.ports ∧ (setSquall s i x).lanes = s.lanes ∧ (setSquall s i x).queues = s.queues ∧
    (setSquall s i x).orders = s.orders ∧ (setSquall s i x).held0 = s.held0 ∧ (setSquall s i x).held1 = s.held1 ∧
    (setSquall s i x).held3 = s.held3 ∧ (setSquall s i x).inbox = s.inbox ∧ (setSquall s i x).owed = s.owed ∧
    (setSquall s i x).written = s.written ∧ (setSquall s i x).images = s.images ∧
    (setSquall s i x).stagings = s.stagings ∧ (setSquall s i x).nextHandle = s.nextHandle ∧
    (setSquall s i x).nextStaging = s.nextStaging ∧ (setSquall s i x).zenith = s.zenith ∧
    (setSquall s i x).dram = s.dram ∧ (setSquall s i x).plls = s.plls ∧
    (setSquall s i x).refPresent = s.refPresent ∧ (setSquall s i x).refAbsent = s.refAbsent ∧
    (setSquall s i x).nclkOsc = s.nclkOsc ∧ (setSquall s i x).suspended = s.suspended ∧
    (setSquall s i x).units = s.units ∧ (setSquall s i x).power = s.power ∧
    (setSquall s i x).horizon = s.horizon ∧ (setSquall s i x).anvil = s.anvil ∧ (setSquall s i x).boot = s.boot ∧
    (setSquall s i x).launchId = s.launchId ∧ (setSquall s i x).originIds = s.originIds ∧
    (setSquall s i x).owner = s.owner ∧ (setSquall s i x).ownIn = s.ownIn ∧ (setSquall s i x).pecs = s.pecs ∧
    (setSquall s i x).marks = s.marks ∧ (setSquall s i x).jtag = s.jtag ∧ (setSquall s i x).straps = s.straps ∧
    (setSquall s i x).bist = s.bist ∧ (setSquall s i x).takeover = s.takeover := by
  and_intros <;> rfl

@[simp] theorem setAurora_keeps (s : State) (i : Nat) (x : Aurora) :
    (setAurora s i x).pending = s.pending ∧ (setAurora s i x).now = s.now ∧ (setAurora s i x).free = s.free ∧
    (setAurora s i x).regs = s.regs ∧ (setAurora s i x).window = s.window ∧ (setAurora s i x).memo = s.memo ∧
    (setAurora s i x).done = s.done ∧ (setAurora s i x).doms = s.doms ∧ (setAurora s i x).flows = s.flows ∧
    (setAurora s i x).sites = s.sites ∧ (setAurora s i x).store = s.store ∧ (setAurora s i x).pins = s.pins ∧
    (setAurora s i x).rings = s.rings ∧ (setAurora s i x).buckets = s.buckets ∧
    (setAurora s i x).turns = s.turns ∧ (setAurora s i x).cums = s.cums ∧ (setAurora s i x).ledger = s.ledger ∧
    (setAurora s i x).virgas = s.virgas ∧ (setAurora s i x).squalls = s.squalls ∧
    (setAurora s i x).ports = s.ports ∧ (setAurora s i x).lanes = s.lanes ∧ (setAurora s i x).queues = s.queues ∧
    (setAurora s i x).orders = s.orders ∧ (setAurora s i x).held0 = s.held0 ∧ (setAurora s i x).held1 = s.held1 ∧
    (setAurora s i x).held3 = s.held3 ∧ (setAurora s i x).inbox = s.inbox ∧ (setAurora s i x).owed = s.owed ∧
    (setAurora s i x).written = s.written ∧ (setAurora s i x).images = s.images ∧
    (setAurora s i x).stagings = s.stagings ∧ (setAurora s i x).nextHandle = s.nextHandle ∧
    (setAurora s i x).nextStaging = s.nextStaging ∧ (setAurora s i x).zenith = s.zenith ∧
    (setAurora s i x).dram = s.dram ∧ (setAurora s i x).plls = s.plls ∧
    (setAurora s i x).refPresent = s.refPresent ∧ (setAurora s i x).refAbsent = s.refAbsent ∧
    (setAurora s i x).nclkOsc = s.nclkOsc ∧ (setAurora s i x).suspended = s.suspended ∧
    (setAurora s i x).units = s.units ∧ (setAurora s i x).power = s.power ∧
    (setAurora s i x).horizon = s.horizon ∧ (setAurora s i x).anvil = s.anvil ∧ (setAurora s i x).boot = s.boot ∧
    (setAurora s i x).launchId = s.launchId ∧ (setAurora s i x).originIds = s.originIds ∧
    (setAurora s i x).owner = s.owner ∧ (setAurora s i x).ownIn = s.ownIn ∧ (setAurora s i x).pecs = s.pecs ∧
    (setAurora s i x).marks = s.marks ∧ (setAurora s i x).jtag = s.jtag ∧ (setAurora s i x).straps = s.straps ∧
    (setAurora s i x).bist = s.bist ∧ (setAurora s i x).takeover = s.takeover := by
  and_intros <;> rfl

@[simp] theorem setPin_keeps (s : State) (i : Nat) (x : Pin) :
    (setPin s i x).pending = s.pending ∧ (setPin s i x).now = s.now ∧ (setPin s i x).free = s.free ∧
    (setPin s i x).regs = s.regs ∧ (setPin s i x).window = s.window ∧ (setPin s i x).memo = s.memo ∧
    (setPin s i x).done = s.done ∧ (setPin s i x).doms = s.doms ∧ (setPin s i x).flows = s.flows ∧
    (setPin s i x).sites = s.sites ∧ (setPin s i x).store = s.store ∧ (setPin s i x).rings = s.rings ∧
    (setPin s i x).buckets = s.buckets ∧ (setPin s i x).turns = s.turns ∧ (setPin s i x).cums = s.cums ∧
    (setPin s i x).ledger = s.ledger ∧ (setPin s i x).virgas = s.virgas ∧ (setPin s i x).squalls = s.squalls ∧
    (setPin s i x).auroras = s.auroras ∧ (setPin s i x).ports = s.ports ∧ (setPin s i x).lanes = s.lanes ∧
    (setPin s i x).queues = s.queues ∧ (setPin s i x).orders = s.orders ∧ (setPin s i x).held0 = s.held0 ∧
    (setPin s i x).held1 = s.held1 ∧ (setPin s i x).held3 = s.held3 ∧ (setPin s i x).inbox = s.inbox ∧
    (setPin s i x).owed = s.owed ∧ (setPin s i x).written = s.written ∧ (setPin s i x).images = s.images ∧
    (setPin s i x).stagings = s.stagings ∧ (setPin s i x).nextHandle = s.nextHandle ∧
    (setPin s i x).nextStaging = s.nextStaging ∧ (setPin s i x).zenith = s.zenith ∧
    (setPin s i x).dram = s.dram ∧ (setPin s i x).plls = s.plls ∧ (setPin s i x).refPresent = s.refPresent ∧
    (setPin s i x).refAbsent = s.refAbsent ∧ (setPin s i x).nclkOsc = s.nclkOsc ∧
    (setPin s i x).suspended = s.suspended ∧ (setPin s i x).units = s.units ∧ (setPin s i x).power = s.power ∧
    (setPin s i x).horizon = s.horizon ∧ (setPin s i x).anvil = s.anvil ∧ (setPin s i x).boot = s.boot ∧
    (setPin s i x).launchId = s.launchId ∧ (setPin s i x).originIds = s.originIds ∧
    (setPin s i x).owner = s.owner ∧ (setPin s i x).ownIn = s.ownIn ∧ (setPin s i x).pecs = s.pecs ∧
    (setPin s i x).marks = s.marks ∧ (setPin s i x).jtag = s.jtag ∧ (setPin s i x).straps = s.straps ∧
    (setPin s i x).bist = s.bist ∧ (setPin s i x).takeover = s.takeover := by
  and_intros <;> rfl

@[simp] theorem setRing_keeps (s : State) (i : Nat) (x : PinRing) :
    (setRing s i x).pending = s.pending ∧ (setRing s i x).now = s.now ∧ (setRing s i x).free = s.free ∧
    (setRing s i x).regs = s.regs ∧ (setRing s i x).window = s.window ∧ (setRing s i x).memo = s.memo ∧
    (setRing s i x).done = s.done ∧ (setRing s i x).doms = s.doms ∧ (setRing s i x).flows = s.flows ∧
    (setRing s i x).sites = s.sites ∧ (setRing s i x).store = s.store ∧ (setRing s i x).pins = s.pins ∧
    (setRing s i x).buckets = s.buckets ∧ (setRing s i x).turns = s.turns ∧ (setRing s i x).cums = s.cums ∧
    (setRing s i x).ledger = s.ledger ∧ (setRing s i x).virgas = s.virgas ∧ (setRing s i x).squalls = s.squalls ∧
    (setRing s i x).auroras = s.auroras ∧ (setRing s i x).ports = s.ports ∧ (setRing s i x).lanes = s.lanes ∧
    (setRing s i x).queues = s.queues ∧ (setRing s i x).orders = s.orders ∧ (setRing s i x).held0 = s.held0 ∧
    (setRing s i x).held1 = s.held1 ∧ (setRing s i x).held3 = s.held3 ∧ (setRing s i x).inbox = s.inbox ∧
    (setRing s i x).owed = s.owed ∧ (setRing s i x).written = s.written ∧ (setRing s i x).images = s.images ∧
    (setRing s i x).stagings = s.stagings ∧ (setRing s i x).nextHandle = s.nextHandle ∧
    (setRing s i x).nextStaging = s.nextStaging ∧ (setRing s i x).zenith = s.zenith ∧
    (setRing s i x).dram = s.dram ∧ (setRing s i x).plls = s.plls ∧ (setRing s i x).refPresent = s.refPresent ∧
    (setRing s i x).refAbsent = s.refAbsent ∧ (setRing s i x).nclkOsc = s.nclkOsc ∧
    (setRing s i x).suspended = s.suspended ∧ (setRing s i x).units = s.units ∧ (setRing s i x).power = s.power ∧
    (setRing s i x).horizon = s.horizon ∧ (setRing s i x).anvil = s.anvil ∧ (setRing s i x).boot = s.boot ∧
    (setRing s i x).launchId = s.launchId ∧ (setRing s i x).originIds = s.originIds ∧
    (setRing s i x).owner = s.owner ∧ (setRing s i x).ownIn = s.ownIn ∧ (setRing s i x).pecs = s.pecs ∧
    (setRing s i x).marks = s.marks ∧ (setRing s i x).jtag = s.jtag ∧ (setRing s i x).straps = s.straps ∧
    (setRing s i x).bist = s.bist ∧ (setRing s i x).takeover = s.takeover := by
  and_intros <;> rfl

@[simp] theorem setBucket_keeps (s : State) (i : Nat) (x : Bucket) :
    (setBucket s i x).pending = s.pending ∧ (setBucket s i x).now = s.now ∧ (setBucket s i x).free = s.free ∧
    (setBucket s i x).regs = s.regs ∧ (setBucket s i x).window = s.window ∧ (setBucket s i x).memo = s.memo ∧
    (setBucket s i x).done = s.done ∧ (setBucket s i x).doms = s.doms ∧ (setBucket s i x).flows = s.flows ∧
    (setBucket s i x).sites = s.sites ∧ (setBucket s i x).store = s.store ∧ (setBucket s i x).pins = s.pins ∧
    (setBucket s i x).rings = s.rings ∧ (setBucket s i x).turns = s.turns ∧ (setBucket s i x).cums = s.cums ∧
    (setBucket s i x).ledger = s.ledger ∧ (setBucket s i x).virgas = s.virgas ∧
    (setBucket s i x).squalls = s.squalls ∧ (setBucket s i x).auroras = s.auroras ∧
    (setBucket s i x).ports = s.ports ∧ (setBucket s i x).lanes = s.lanes ∧ (setBucket s i x).queues = s.queues ∧
    (setBucket s i x).orders = s.orders ∧ (setBucket s i x).held0 = s.held0 ∧ (setBucket s i x).held1 = s.held1 ∧
    (setBucket s i x).held3 = s.held3 ∧ (setBucket s i x).inbox = s.inbox ∧ (setBucket s i x).owed = s.owed ∧
    (setBucket s i x).written = s.written ∧ (setBucket s i x).images = s.images ∧
    (setBucket s i x).stagings = s.stagings ∧ (setBucket s i x).nextHandle = s.nextHandle ∧
    (setBucket s i x).nextStaging = s.nextStaging ∧ (setBucket s i x).zenith = s.zenith ∧
    (setBucket s i x).dram = s.dram ∧ (setBucket s i x).plls = s.plls ∧
    (setBucket s i x).refPresent = s.refPresent ∧ (setBucket s i x).refAbsent = s.refAbsent ∧
    (setBucket s i x).nclkOsc = s.nclkOsc ∧ (setBucket s i x).suspended = s.suspended ∧
    (setBucket s i x).units = s.units ∧ (setBucket s i x).power = s.power ∧
    (setBucket s i x).horizon = s.horizon ∧ (setBucket s i x).anvil = s.anvil ∧ (setBucket s i x).boot = s.boot ∧
    (setBucket s i x).launchId = s.launchId ∧ (setBucket s i x).originIds = s.originIds ∧
    (setBucket s i x).owner = s.owner ∧ (setBucket s i x).ownIn = s.ownIn ∧ (setBucket s i x).pecs = s.pecs ∧
    (setBucket s i x).marks = s.marks ∧ (setBucket s i x).jtag = s.jtag ∧ (setBucket s i x).straps = s.straps ∧
    (setBucket s i x).bist = s.bist ∧ (setBucket s i x).takeover = s.takeover := by
  and_intros <;> rfl

@[simp] theorem setCum_keeps (s : State) (i : Nat) (x : Cum) :
    (setCum s i x).pending = s.pending ∧ (setCum s i x).now = s.now ∧ (setCum s i x).free = s.free ∧
    (setCum s i x).regs = s.regs ∧ (setCum s i x).window = s.window ∧ (setCum s i x).memo = s.memo ∧
    (setCum s i x).done = s.done ∧ (setCum s i x).doms = s.doms ∧ (setCum s i x).flows = s.flows ∧
    (setCum s i x).sites = s.sites ∧ (setCum s i x).store = s.store ∧ (setCum s i x).pins = s.pins ∧
    (setCum s i x).rings = s.rings ∧ (setCum s i x).buckets = s.buckets ∧ (setCum s i x).turns = s.turns ∧
    (setCum s i x).ledger = s.ledger ∧ (setCum s i x).virgas = s.virgas ∧ (setCum s i x).squalls = s.squalls ∧
    (setCum s i x).auroras = s.auroras ∧ (setCum s i x).ports = s.ports ∧ (setCum s i x).lanes = s.lanes ∧
    (setCum s i x).queues = s.queues ∧ (setCum s i x).orders = s.orders ∧ (setCum s i x).held0 = s.held0 ∧
    (setCum s i x).held1 = s.held1 ∧ (setCum s i x).held3 = s.held3 ∧ (setCum s i x).inbox = s.inbox ∧
    (setCum s i x).owed = s.owed ∧ (setCum s i x).written = s.written ∧ (setCum s i x).images = s.images ∧
    (setCum s i x).stagings = s.stagings ∧ (setCum s i x).nextHandle = s.nextHandle ∧
    (setCum s i x).nextStaging = s.nextStaging ∧ (setCum s i x).zenith = s.zenith ∧
    (setCum s i x).dram = s.dram ∧ (setCum s i x).plls = s.plls ∧ (setCum s i x).refPresent = s.refPresent ∧
    (setCum s i x).refAbsent = s.refAbsent ∧ (setCum s i x).nclkOsc = s.nclkOsc ∧
    (setCum s i x).suspended = s.suspended ∧ (setCum s i x).units = s.units ∧ (setCum s i x).power = s.power ∧
    (setCum s i x).horizon = s.horizon ∧ (setCum s i x).anvil = s.anvil ∧ (setCum s i x).boot = s.boot ∧
    (setCum s i x).launchId = s.launchId ∧ (setCum s i x).originIds = s.originIds ∧
    (setCum s i x).owner = s.owner ∧ (setCum s i x).ownIn = s.ownIn ∧ (setCum s i x).pecs = s.pecs ∧
    (setCum s i x).marks = s.marks ∧ (setCum s i x).jtag = s.jtag ∧ (setCum s i x).straps = s.straps ∧
    (setCum s i x).bist = s.bist ∧ (setCum s i x).takeover = s.takeover := by
  and_intros <;> rfl

@[simp] theorem setCtx_keeps (s : State) (i : Nat) (x : Ctx) :
    (setCtx s i x).pending = s.pending ∧ (setCtx s i x).now = s.now ∧ (setCtx s i x).free = s.free ∧
    (setCtx s i x).regs = s.regs ∧ (setCtx s i x).window = s.window ∧ (setCtx s i x).memo = s.memo ∧
    (setCtx s i x).done = s.done ∧ (setCtx s i x).doms = s.doms ∧ (setCtx s i x).flows = s.flows ∧
    (setCtx s i x).sites = s.sites ∧ (setCtx s i x).store = s.store ∧ (setCtx s i x).pins = s.pins ∧
    (setCtx s i x).rings = s.rings ∧ (setCtx s i x).buckets = s.buckets ∧ (setCtx s i x).turns = s.turns ∧
    (setCtx s i x).cums = s.cums ∧ (setCtx s i x).virgas = s.virgas ∧ (setCtx s i x).squalls = s.squalls ∧
    (setCtx s i x).auroras = s.auroras ∧ (setCtx s i x).ports = s.ports ∧ (setCtx s i x).lanes = s.lanes ∧
    (setCtx s i x).queues = s.queues ∧ (setCtx s i x).orders = s.orders ∧ (setCtx s i x).held0 = s.held0 ∧
    (setCtx s i x).held1 = s.held1 ∧ (setCtx s i x).held3 = s.held3 ∧ (setCtx s i x).inbox = s.inbox ∧
    (setCtx s i x).owed = s.owed ∧ (setCtx s i x).written = s.written ∧ (setCtx s i x).images = s.images ∧
    (setCtx s i x).stagings = s.stagings ∧ (setCtx s i x).nextHandle = s.nextHandle ∧
    (setCtx s i x).nextStaging = s.nextStaging ∧ (setCtx s i x).zenith = s.zenith ∧
    (setCtx s i x).dram = s.dram ∧ (setCtx s i x).plls = s.plls ∧ (setCtx s i x).refPresent = s.refPresent ∧
    (setCtx s i x).refAbsent = s.refAbsent ∧ (setCtx s i x).nclkOsc = s.nclkOsc ∧
    (setCtx s i x).suspended = s.suspended ∧ (setCtx s i x).units = s.units ∧ (setCtx s i x).power = s.power ∧
    (setCtx s i x).horizon = s.horizon ∧ (setCtx s i x).anvil = s.anvil ∧ (setCtx s i x).boot = s.boot ∧
    (setCtx s i x).launchId = s.launchId ∧ (setCtx s i x).originIds = s.originIds ∧
    (setCtx s i x).owner = s.owner ∧ (setCtx s i x).ownIn = s.ownIn ∧ (setCtx s i x).pecs = s.pecs ∧
    (setCtx s i x).marks = s.marks ∧ (setCtx s i x).jtag = s.jtag ∧ (setCtx s i x).straps = s.straps ∧
    (setCtx s i x).bist = s.bist ∧ (setCtx s i x).takeover = s.takeover := by
  and_intros <;> rfl

@[simp] theorem setLane_keeps (s : State) (i : Nat) (x : Lane) :
    (setLane s i x).pending = s.pending ∧ (setLane s i x).now = s.now ∧ (setLane s i x).free = s.free ∧
    (setLane s i x).regs = s.regs ∧ (setLane s i x).window = s.window ∧ (setLane s i x).memo = s.memo ∧
    (setLane s i x).done = s.done ∧ (setLane s i x).doms = s.doms ∧ (setLane s i x).flows = s.flows ∧
    (setLane s i x).sites = s.sites ∧ (setLane s i x).store = s.store ∧ (setLane s i x).pins = s.pins ∧
    (setLane s i x).rings = s.rings ∧ (setLane s i x).buckets = s.buckets ∧ (setLane s i x).turns = s.turns ∧
    (setLane s i x).cums = s.cums ∧ (setLane s i x).ledger = s.ledger ∧ (setLane s i x).virgas = s.virgas ∧
    (setLane s i x).squalls = s.squalls ∧ (setLane s i x).auroras = s.auroras ∧ (setLane s i x).ports = s.ports ∧
    (setLane s i x).queues = s.queues ∧ (setLane s i x).orders = s.orders ∧ (setLane s i x).held0 = s.held0 ∧
    (setLane s i x).held1 = s.held1 ∧ (setLane s i x).held3 = s.held3 ∧ (setLane s i x).inbox = s.inbox ∧
    (setLane s i x).owed = s.owed ∧ (setLane s i x).written = s.written ∧ (setLane s i x).images = s.images ∧
    (setLane s i x).stagings = s.stagings ∧ (setLane s i x).nextHandle = s.nextHandle ∧
    (setLane s i x).nextStaging = s.nextStaging ∧ (setLane s i x).zenith = s.zenith ∧
    (setLane s i x).dram = s.dram ∧ (setLane s i x).plls = s.plls ∧ (setLane s i x).refPresent = s.refPresent ∧
    (setLane s i x).refAbsent = s.refAbsent ∧ (setLane s i x).nclkOsc = s.nclkOsc ∧
    (setLane s i x).suspended = s.suspended ∧ (setLane s i x).units = s.units ∧ (setLane s i x).power = s.power ∧
    (setLane s i x).horizon = s.horizon ∧ (setLane s i x).anvil = s.anvil ∧ (setLane s i x).boot = s.boot ∧
    (setLane s i x).launchId = s.launchId ∧ (setLane s i x).originIds = s.originIds ∧
    (setLane s i x).owner = s.owner ∧ (setLane s i x).ownIn = s.ownIn ∧ (setLane s i x).pecs = s.pecs ∧
    (setLane s i x).marks = s.marks ∧ (setLane s i x).jtag = s.jtag ∧ (setLane s i x).straps = s.straps ∧
    (setLane s i x).bist = s.bist ∧ (setLane s i x).takeover = s.takeover := by
  and_intros <;> rfl

@[simp] theorem setQueue_keeps (s : State) (i : Nat) (x : Queue) :
    (setQueue s i x).pending = s.pending ∧ (setQueue s i x).now = s.now ∧ (setQueue s i x).free = s.free ∧
    (setQueue s i x).regs = s.regs ∧ (setQueue s i x).window = s.window ∧ (setQueue s i x).memo = s.memo ∧
    (setQueue s i x).done = s.done ∧ (setQueue s i x).doms = s.doms ∧ (setQueue s i x).flows = s.flows ∧
    (setQueue s i x).sites = s.sites ∧ (setQueue s i x).store = s.store ∧ (setQueue s i x).pins = s.pins ∧
    (setQueue s i x).rings = s.rings ∧ (setQueue s i x).buckets = s.buckets ∧ (setQueue s i x).turns = s.turns ∧
    (setQueue s i x).cums = s.cums ∧ (setQueue s i x).ledger = s.ledger ∧ (setQueue s i x).virgas = s.virgas ∧
    (setQueue s i x).squalls = s.squalls ∧ (setQueue s i x).auroras = s.auroras ∧
    (setQueue s i x).ports = s.ports ∧ (setQueue s i x).lanes = s.lanes ∧ (setQueue s i x).orders = s.orders ∧
    (setQueue s i x).held0 = s.held0 ∧ (setQueue s i x).held1 = s.held1 ∧ (setQueue s i x).held3 = s.held3 ∧
    (setQueue s i x).inbox = s.inbox ∧ (setQueue s i x).owed = s.owed ∧ (setQueue s i x).written = s.written ∧
    (setQueue s i x).images = s.images ∧ (setQueue s i x).stagings = s.stagings ∧
    (setQueue s i x).nextHandle = s.nextHandle ∧ (setQueue s i x).nextStaging = s.nextStaging ∧
    (setQueue s i x).zenith = s.zenith ∧ (setQueue s i x).dram = s.dram ∧ (setQueue s i x).plls = s.plls ∧
    (setQueue s i x).refPresent = s.refPresent ∧ (setQueue s i x).refAbsent = s.refAbsent ∧
    (setQueue s i x).nclkOsc = s.nclkOsc ∧ (setQueue s i x).suspended = s.suspended ∧
    (setQueue s i x).units = s.units ∧ (setQueue s i x).power = s.power ∧ (setQueue s i x).horizon = s.horizon ∧
    (setQueue s i x).anvil = s.anvil ∧ (setQueue s i x).boot = s.boot ∧ (setQueue s i x).launchId = s.launchId ∧
    (setQueue s i x).originIds = s.originIds ∧ (setQueue s i x).owner = s.owner ∧
    (setQueue s i x).ownIn = s.ownIn ∧ (setQueue s i x).pecs = s.pecs ∧ (setQueue s i x).marks = s.marks ∧
    (setQueue s i x).jtag = s.jtag ∧ (setQueue s i x).straps = s.straps ∧ (setQueue s i x).bist = s.bist ∧
    (setQueue s i x).takeover = s.takeover := by
  and_intros <;> rfl

@[simp] theorem setImage_keeps (s : State) (i : Nat) (x : Image) :
    (setImage s i x).pending = s.pending ∧ (setImage s i x).now = s.now ∧ (setImage s i x).free = s.free ∧
    (setImage s i x).regs = s.regs ∧ (setImage s i x).window = s.window ∧ (setImage s i x).memo = s.memo ∧
    (setImage s i x).done = s.done ∧ (setImage s i x).doms = s.doms ∧ (setImage s i x).flows = s.flows ∧
    (setImage s i x).sites = s.sites ∧ (setImage s i x).store = s.store ∧ (setImage s i x).pins = s.pins ∧
    (setImage s i x).rings = s.rings ∧ (setImage s i x).buckets = s.buckets ∧ (setImage s i x).turns = s.turns ∧
    (setImage s i x).cums = s.cums ∧ (setImage s i x).ledger = s.ledger ∧ (setImage s i x).virgas = s.virgas ∧
    (setImage s i x).squalls = s.squalls ∧ (setImage s i x).auroras = s.auroras ∧
    (setImage s i x).ports = s.ports ∧ (setImage s i x).lanes = s.lanes ∧ (setImage s i x).queues = s.queues ∧
    (setImage s i x).orders = s.orders ∧ (setImage s i x).held0 = s.held0 ∧ (setImage s i x).held1 = s.held1 ∧
    (setImage s i x).held3 = s.held3 ∧ (setImage s i x).inbox = s.inbox ∧ (setImage s i x).owed = s.owed ∧
    (setImage s i x).written = s.written ∧ (setImage s i x).stagings = s.stagings ∧
    (setImage s i x).nextHandle = s.nextHandle ∧ (setImage s i x).nextStaging = s.nextStaging ∧
    (setImage s i x).zenith = s.zenith ∧ (setImage s i x).dram = s.dram ∧ (setImage s i x).plls = s.plls ∧
    (setImage s i x).refPresent = s.refPresent ∧ (setImage s i x).refAbsent = s.refAbsent ∧
    (setImage s i x).nclkOsc = s.nclkOsc ∧ (setImage s i x).suspended = s.suspended ∧
    (setImage s i x).units = s.units ∧ (setImage s i x).power = s.power ∧ (setImage s i x).horizon = s.horizon ∧
    (setImage s i x).anvil = s.anvil ∧ (setImage s i x).boot = s.boot ∧ (setImage s i x).launchId = s.launchId ∧
    (setImage s i x).originIds = s.originIds ∧ (setImage s i x).owner = s.owner ∧
    (setImage s i x).ownIn = s.ownIn ∧ (setImage s i x).pecs = s.pecs ∧ (setImage s i x).marks = s.marks ∧
    (setImage s i x).jtag = s.jtag ∧ (setImage s i x).straps = s.straps ∧ (setImage s i x).bist = s.bist ∧
    (setImage s i x).takeover = s.takeover := by
  and_intros <;> rfl

@[simp] theorem setStaging_keeps (s : State) (i : Nat) (x : Staging) :
    (setStaging s i x).pending = s.pending ∧ (setStaging s i x).now = s.now ∧ (setStaging s i x).free = s.free ∧
    (setStaging s i x).regs = s.regs ∧ (setStaging s i x).window = s.window ∧ (setStaging s i x).memo = s.memo ∧
    (setStaging s i x).done = s.done ∧ (setStaging s i x).doms = s.doms ∧ (setStaging s i x).flows = s.flows ∧
    (setStaging s i x).sites = s.sites ∧ (setStaging s i x).store = s.store ∧ (setStaging s i x).pins = s.pins ∧
    (setStaging s i x).rings = s.rings ∧ (setStaging s i x).buckets = s.buckets ∧
    (setStaging s i x).turns = s.turns ∧ (setStaging s i x).cums = s.cums ∧
    (setStaging s i x).ledger = s.ledger ∧ (setStaging s i x).virgas = s.virgas ∧
    (setStaging s i x).squalls = s.squalls ∧ (setStaging s i x).auroras = s.auroras ∧
    (setStaging s i x).ports = s.ports ∧ (setStaging s i x).lanes = s.lanes ∧
    (setStaging s i x).queues = s.queues ∧ (setStaging s i x).orders = s.orders ∧
    (setStaging s i x).held0 = s.held0 ∧ (setStaging s i x).held1 = s.held1 ∧
    (setStaging s i x).held3 = s.held3 ∧ (setStaging s i x).inbox = s.inbox ∧ (setStaging s i x).owed = s.owed ∧
    (setStaging s i x).written = s.written ∧ (setStaging s i x).images = s.images ∧
    (setStaging s i x).nextHandle = s.nextHandle ∧ (setStaging s i x).nextStaging = s.nextStaging ∧
    (setStaging s i x).zenith = s.zenith ∧ (setStaging s i x).dram = s.dram ∧ (setStaging s i x).plls = s.plls ∧
    (setStaging s i x).refPresent = s.refPresent ∧ (setStaging s i x).refAbsent = s.refAbsent ∧
    (setStaging s i x).nclkOsc = s.nclkOsc ∧ (setStaging s i x).suspended = s.suspended ∧
    (setStaging s i x).units = s.units ∧ (setStaging s i x).power = s.power ∧
    (setStaging s i x).horizon = s.horizon ∧ (setStaging s i x).anvil = s.anvil ∧
    (setStaging s i x).boot = s.boot ∧ (setStaging s i x).launchId = s.launchId ∧
    (setStaging s i x).originIds = s.originIds ∧ (setStaging s i x).owner = s.owner ∧
    (setStaging s i x).ownIn = s.ownIn ∧ (setStaging s i x).pecs = s.pecs ∧ (setStaging s i x).marks = s.marks ∧
    (setStaging s i x).jtag = s.jtag ∧ (setStaging s i x).straps = s.straps ∧ (setStaging s i x).bist = s.bist ∧
    (setStaging s i x).takeover = s.takeover := by
  and_intros <;> rfl

@[simp] theorem setPll_keeps (s : State) (i : Nat) (x : Pll) :
    (setPll s i x).pending = s.pending ∧ (setPll s i x).now = s.now ∧ (setPll s i x).free = s.free ∧
    (setPll s i x).regs = s.regs ∧ (setPll s i x).window = s.window ∧ (setPll s i x).memo = s.memo ∧
    (setPll s i x).done = s.done ∧ (setPll s i x).doms = s.doms ∧ (setPll s i x).flows = s.flows ∧
    (setPll s i x).sites = s.sites ∧ (setPll s i x).store = s.store ∧ (setPll s i x).pins = s.pins ∧
    (setPll s i x).rings = s.rings ∧ (setPll s i x).buckets = s.buckets ∧ (setPll s i x).turns = s.turns ∧
    (setPll s i x).cums = s.cums ∧ (setPll s i x).ledger = s.ledger ∧ (setPll s i x).virgas = s.virgas ∧
    (setPll s i x).squalls = s.squalls ∧ (setPll s i x).auroras = s.auroras ∧ (setPll s i x).ports = s.ports ∧
    (setPll s i x).lanes = s.lanes ∧ (setPll s i x).queues = s.queues ∧ (setPll s i x).orders = s.orders ∧
    (setPll s i x).held0 = s.held0 ∧ (setPll s i x).held1 = s.held1 ∧ (setPll s i x).held3 = s.held3 ∧
    (setPll s i x).inbox = s.inbox ∧ (setPll s i x).owed = s.owed ∧ (setPll s i x).written = s.written ∧
    (setPll s i x).images = s.images ∧ (setPll s i x).stagings = s.stagings ∧
    (setPll s i x).nextHandle = s.nextHandle ∧ (setPll s i x).nextStaging = s.nextStaging ∧
    (setPll s i x).zenith = s.zenith ∧ (setPll s i x).dram = s.dram ∧ (setPll s i x).refPresent = s.refPresent ∧
    (setPll s i x).refAbsent = s.refAbsent ∧ (setPll s i x).nclkOsc = s.nclkOsc ∧
    (setPll s i x).suspended = s.suspended ∧ (setPll s i x).units = s.units ∧ (setPll s i x).power = s.power ∧
    (setPll s i x).horizon = s.horizon ∧ (setPll s i x).anvil = s.anvil ∧ (setPll s i x).boot = s.boot ∧
    (setPll s i x).launchId = s.launchId ∧ (setPll s i x).originIds = s.originIds ∧
    (setPll s i x).owner = s.owner ∧ (setPll s i x).ownIn = s.ownIn ∧ (setPll s i x).pecs = s.pecs ∧
    (setPll s i x).marks = s.marks ∧ (setPll s i x).jtag = s.jtag ∧ (setPll s i x).straps = s.straps ∧
    (setPll s i x).bist = s.bist ∧ (setPll s i x).takeover = s.takeover := by
  and_intros <;> rfl

@[simp] theorem setUnit_keeps (s : State) (i : Nat) (x : PowUnit) :
    (setUnit s i x).pending = s.pending ∧ (setUnit s i x).now = s.now ∧ (setUnit s i x).free = s.free ∧
    (setUnit s i x).regs = s.regs ∧ (setUnit s i x).window = s.window ∧ (setUnit s i x).memo = s.memo ∧
    (setUnit s i x).done = s.done ∧ (setUnit s i x).doms = s.doms ∧ (setUnit s i x).flows = s.flows ∧
    (setUnit s i x).sites = s.sites ∧ (setUnit s i x).store = s.store ∧ (setUnit s i x).pins = s.pins ∧
    (setUnit s i x).rings = s.rings ∧ (setUnit s i x).buckets = s.buckets ∧ (setUnit s i x).turns = s.turns ∧
    (setUnit s i x).cums = s.cums ∧ (setUnit s i x).ledger = s.ledger ∧ (setUnit s i x).virgas = s.virgas ∧
    (setUnit s i x).squalls = s.squalls ∧ (setUnit s i x).auroras = s.auroras ∧ (setUnit s i x).ports = s.ports ∧
    (setUnit s i x).lanes = s.lanes ∧ (setUnit s i x).queues = s.queues ∧ (setUnit s i x).orders = s.orders ∧
    (setUnit s i x).held0 = s.held0 ∧ (setUnit s i x).held1 = s.held1 ∧ (setUnit s i x).held3 = s.held3 ∧
    (setUnit s i x).inbox = s.inbox ∧ (setUnit s i x).owed = s.owed ∧ (setUnit s i x).written = s.written ∧
    (setUnit s i x).images = s.images ∧ (setUnit s i x).stagings = s.stagings ∧
    (setUnit s i x).nextHandle = s.nextHandle ∧ (setUnit s i x).nextStaging = s.nextStaging ∧
    (setUnit s i x).zenith = s.zenith ∧ (setUnit s i x).dram = s.dram ∧ (setUnit s i x).plls = s.plls ∧
    (setUnit s i x).refPresent = s.refPresent ∧ (setUnit s i x).refAbsent = s.refAbsent ∧
    (setUnit s i x).nclkOsc = s.nclkOsc ∧ (setUnit s i x).suspended = s.suspended ∧
    (setUnit s i x).power = s.power ∧ (setUnit s i x).horizon = s.horizon ∧ (setUnit s i x).anvil = s.anvil ∧
    (setUnit s i x).boot = s.boot ∧ (setUnit s i x).launchId = s.launchId ∧
    (setUnit s i x).originIds = s.originIds ∧ (setUnit s i x).owner = s.owner ∧ (setUnit s i x).ownIn = s.ownIn ∧
    (setUnit s i x).pecs = s.pecs ∧ (setUnit s i x).marks = s.marks ∧ (setUnit s i x).jtag = s.jtag ∧
    (setUnit s i x).straps = s.straps ∧ (setUnit s i x).bist = s.bist ∧ (setUnit s i x).takeover = s.takeover := by
  and_intros <;> rfl

@[simp] theorem setPec_keeps (s : State) (i : Nat) (x : Pec) :
    (setPec s i x).pending = s.pending ∧ (setPec s i x).now = s.now ∧ (setPec s i x).free = s.free ∧
    (setPec s i x).regs = s.regs ∧ (setPec s i x).window = s.window ∧ (setPec s i x).memo = s.memo ∧
    (setPec s i x).done = s.done ∧ (setPec s i x).doms = s.doms ∧ (setPec s i x).flows = s.flows ∧
    (setPec s i x).sites = s.sites ∧ (setPec s i x).store = s.store ∧ (setPec s i x).pins = s.pins ∧
    (setPec s i x).rings = s.rings ∧ (setPec s i x).buckets = s.buckets ∧ (setPec s i x).turns = s.turns ∧
    (setPec s i x).cums = s.cums ∧ (setPec s i x).ledger = s.ledger ∧ (setPec s i x).virgas = s.virgas ∧
    (setPec s i x).squalls = s.squalls ∧ (setPec s i x).auroras = s.auroras ∧ (setPec s i x).ports = s.ports ∧
    (setPec s i x).lanes = s.lanes ∧ (setPec s i x).queues = s.queues ∧ (setPec s i x).orders = s.orders ∧
    (setPec s i x).held0 = s.held0 ∧ (setPec s i x).held1 = s.held1 ∧ (setPec s i x).held3 = s.held3 ∧
    (setPec s i x).inbox = s.inbox ∧ (setPec s i x).owed = s.owed ∧ (setPec s i x).written = s.written ∧
    (setPec s i x).images = s.images ∧ (setPec s i x).stagings = s.stagings ∧
    (setPec s i x).nextHandle = s.nextHandle ∧ (setPec s i x).nextStaging = s.nextStaging ∧
    (setPec s i x).zenith = s.zenith ∧ (setPec s i x).dram = s.dram ∧ (setPec s i x).plls = s.plls ∧
    (setPec s i x).refPresent = s.refPresent ∧ (setPec s i x).refAbsent = s.refAbsent ∧
    (setPec s i x).nclkOsc = s.nclkOsc ∧ (setPec s i x).suspended = s.suspended ∧
    (setPec s i x).units = s.units ∧ (setPec s i x).power = s.power ∧ (setPec s i x).horizon = s.horizon ∧
    (setPec s i x).anvil = s.anvil ∧ (setPec s i x).boot = s.boot ∧ (setPec s i x).launchId = s.launchId ∧
    (setPec s i x).originIds = s.originIds ∧ (setPec s i x).owner = s.owner ∧ (setPec s i x).ownIn = s.ownIn ∧
    (setPec s i x).marks = s.marks ∧ (setPec s i x).jtag = s.jtag ∧ (setPec s i x).straps = s.straps ∧
    (setPec s i x).bist = s.bist ∧ (setPec s i x).takeover = s.takeover := by
  and_intros <;> rfl

@[simp] theorem setMark_keeps (s : State) (i : Nat) (x : MarkOut) :
    (setMark s i x).pending = s.pending ∧ (setMark s i x).now = s.now ∧ (setMark s i x).free = s.free ∧
    (setMark s i x).regs = s.regs ∧ (setMark s i x).window = s.window ∧ (setMark s i x).memo = s.memo ∧
    (setMark s i x).done = s.done ∧ (setMark s i x).doms = s.doms ∧ (setMark s i x).flows = s.flows ∧
    (setMark s i x).sites = s.sites ∧ (setMark s i x).store = s.store ∧ (setMark s i x).pins = s.pins ∧
    (setMark s i x).rings = s.rings ∧ (setMark s i x).buckets = s.buckets ∧ (setMark s i x).turns = s.turns ∧
    (setMark s i x).cums = s.cums ∧ (setMark s i x).ledger = s.ledger ∧ (setMark s i x).virgas = s.virgas ∧
    (setMark s i x).squalls = s.squalls ∧ (setMark s i x).auroras = s.auroras ∧ (setMark s i x).ports = s.ports ∧
    (setMark s i x).lanes = s.lanes ∧ (setMark s i x).queues = s.queues ∧ (setMark s i x).orders = s.orders ∧
    (setMark s i x).held0 = s.held0 ∧ (setMark s i x).held1 = s.held1 ∧ (setMark s i x).held3 = s.held3 ∧
    (setMark s i x).inbox = s.inbox ∧ (setMark s i x).owed = s.owed ∧ (setMark s i x).written = s.written ∧
    (setMark s i x).images = s.images ∧ (setMark s i x).stagings = s.stagings ∧
    (setMark s i x).nextHandle = s.nextHandle ∧ (setMark s i x).nextStaging = s.nextStaging ∧
    (setMark s i x).zenith = s.zenith ∧ (setMark s i x).dram = s.dram ∧ (setMark s i x).plls = s.plls ∧
    (setMark s i x).refPresent = s.refPresent ∧ (setMark s i x).refAbsent = s.refAbsent ∧
    (setMark s i x).nclkOsc = s.nclkOsc ∧ (setMark s i x).suspended = s.suspended ∧
    (setMark s i x).units = s.units ∧ (setMark s i x).power = s.power ∧ (setMark s i x).horizon = s.horizon ∧
    (setMark s i x).anvil = s.anvil ∧ (setMark s i x).boot = s.boot ∧ (setMark s i x).launchId = s.launchId ∧
    (setMark s i x).originIds = s.originIds ∧ (setMark s i x).owner = s.owner ∧ (setMark s i x).ownIn = s.ownIn ∧
    (setMark s i x).pecs = s.pecs ∧ (setMark s i x).jtag = s.jtag ∧ (setMark s i x).straps = s.straps ∧
    (setMark s i x).bist = s.bist ∧ (setMark s i x).takeover = s.takeover := by
  and_intros <;> rfl

@[simp] theorem setFlow_keeps (s : State) (d k : Nat) (x : Flow) :
    (setFlow s d k x).pending = s.pending ∧ (setFlow s d k x).now = s.now ∧ (setFlow s d k x).free = s.free ∧
    (setFlow s d k x).regs = s.regs ∧ (setFlow s d k x).window = s.window ∧ (setFlow s d k x).memo = s.memo ∧
    (setFlow s d k x).done = s.done ∧ (setFlow s d k x).doms = s.doms ∧ (setFlow s d k x).sites = s.sites ∧
    (setFlow s d k x).store = s.store ∧ (setFlow s d k x).pins = s.pins ∧ (setFlow s d k x).rings = s.rings ∧
    (setFlow s d k x).buckets = s.buckets ∧ (setFlow s d k x).turns = s.turns ∧ (setFlow s d k x).cums = s.cums ∧
    (setFlow s d k x).ledger = s.ledger ∧ (setFlow s d k x).virgas = s.virgas ∧
    (setFlow s d k x).squalls = s.squalls ∧ (setFlow s d k x).auroras = s.auroras ∧
    (setFlow s d k x).ports = s.ports ∧ (setFlow s d k x).lanes = s.lanes ∧ (setFlow s d k x).queues = s.queues ∧
    (setFlow s d k x).orders = s.orders ∧ (setFlow s d k x).held0 = s.held0 ∧ (setFlow s d k x).held1 = s.held1 ∧
    (setFlow s d k x).held3 = s.held3 ∧ (setFlow s d k x).inbox = s.inbox ∧ (setFlow s d k x).owed = s.owed ∧
    (setFlow s d k x).written = s.written ∧ (setFlow s d k x).images = s.images ∧
    (setFlow s d k x).stagings = s.stagings ∧ (setFlow s d k x).nextHandle = s.nextHandle ∧
    (setFlow s d k x).nextStaging = s.nextStaging ∧ (setFlow s d k x).zenith = s.zenith ∧
    (setFlow s d k x).dram = s.dram ∧ (setFlow s d k x).plls = s.plls ∧
    (setFlow s d k x).refPresent = s.refPresent ∧ (setFlow s d k x).refAbsent = s.refAbsent ∧
    (setFlow s d k x).nclkOsc = s.nclkOsc ∧ (setFlow s d k x).suspended = s.suspended ∧
    (setFlow s d k x).units = s.units ∧ (setFlow s d k x).power = s.power ∧
    (setFlow s d k x).horizon = s.horizon ∧ (setFlow s d k x).anvil = s.anvil ∧ (setFlow s d k x).boot = s.boot ∧
    (setFlow s d k x).launchId = s.launchId ∧ (setFlow s d k x).originIds = s.originIds ∧
    (setFlow s d k x).owner = s.owner ∧ (setFlow s d k x).ownIn = s.ownIn ∧ (setFlow s d k x).pecs = s.pecs ∧
    (setFlow s d k x).marks = s.marks ∧ (setFlow s d k x).jtag = s.jtag ∧ (setFlow s d k x).straps = s.straps ∧
    (setFlow s d k x).bist = s.bist ∧ (setFlow s d k x).takeover = s.takeover := by
  and_intros <;> rfl

@[simp] theorem setSite_keeps (s : State) (d k : Nat) (x : Site) :
    (setSite s d k x).pending = s.pending ∧ (setSite s d k x).now = s.now ∧ (setSite s d k x).free = s.free ∧
    (setSite s d k x).regs = s.regs ∧ (setSite s d k x).window = s.window ∧ (setSite s d k x).memo = s.memo ∧
    (setSite s d k x).done = s.done ∧ (setSite s d k x).doms = s.doms ∧ (setSite s d k x).flows = s.flows ∧
    (setSite s d k x).store = s.store ∧ (setSite s d k x).pins = s.pins ∧ (setSite s d k x).rings = s.rings ∧
    (setSite s d k x).buckets = s.buckets ∧ (setSite s d k x).turns = s.turns ∧ (setSite s d k x).cums = s.cums ∧
    (setSite s d k x).ledger = s.ledger ∧ (setSite s d k x).virgas = s.virgas ∧
    (setSite s d k x).squalls = s.squalls ∧ (setSite s d k x).auroras = s.auroras ∧
    (setSite s d k x).ports = s.ports ∧ (setSite s d k x).lanes = s.lanes ∧ (setSite s d k x).queues = s.queues ∧
    (setSite s d k x).orders = s.orders ∧ (setSite s d k x).held0 = s.held0 ∧ (setSite s d k x).held1 = s.held1 ∧
    (setSite s d k x).held3 = s.held3 ∧ (setSite s d k x).inbox = s.inbox ∧ (setSite s d k x).owed = s.owed ∧
    (setSite s d k x).written = s.written ∧ (setSite s d k x).images = s.images ∧
    (setSite s d k x).stagings = s.stagings ∧ (setSite s d k x).nextHandle = s.nextHandle ∧
    (setSite s d k x).nextStaging = s.nextStaging ∧ (setSite s d k x).zenith = s.zenith ∧
    (setSite s d k x).dram = s.dram ∧ (setSite s d k x).plls = s.plls ∧
    (setSite s d k x).refPresent = s.refPresent ∧ (setSite s d k x).refAbsent = s.refAbsent ∧
    (setSite s d k x).nclkOsc = s.nclkOsc ∧ (setSite s d k x).suspended = s.suspended ∧
    (setSite s d k x).units = s.units ∧ (setSite s d k x).power = s.power ∧
    (setSite s d k x).horizon = s.horizon ∧ (setSite s d k x).anvil = s.anvil ∧ (setSite s d k x).boot = s.boot ∧
    (setSite s d k x).launchId = s.launchId ∧ (setSite s d k x).originIds = s.originIds ∧
    (setSite s d k x).owner = s.owner ∧ (setSite s d k x).ownIn = s.ownIn ∧ (setSite s d k x).pecs = s.pecs ∧
    (setSite s d k x).marks = s.marks ∧ (setSite s d k x).jtag = s.jtag ∧ (setSite s d k x).straps = s.straps ∧
    (setSite s d k x).bist = s.bist ∧ (setSite s d k x).takeover = s.takeover := by
  and_intros <;> rfl

@[simp] theorem setPort_keeps (s : State) (p : Port) (x : PortSt) :
    (setPort s p x).pending = s.pending ∧ (setPort s p x).now = s.now ∧ (setPort s p x).free = s.free ∧
    (setPort s p x).regs = s.regs ∧ (setPort s p x).window = s.window ∧ (setPort s p x).memo = s.memo ∧
    (setPort s p x).done = s.done ∧ (setPort s p x).doms = s.doms ∧ (setPort s p x).flows = s.flows ∧
    (setPort s p x).sites = s.sites ∧ (setPort s p x).store = s.store ∧ (setPort s p x).pins = s.pins ∧
    (setPort s p x).rings = s.rings ∧ (setPort s p x).buckets = s.buckets ∧ (setPort s p x).turns = s.turns ∧
    (setPort s p x).cums = s.cums ∧ (setPort s p x).ledger = s.ledger ∧ (setPort s p x).virgas = s.virgas ∧
    (setPort s p x).squalls = s.squalls ∧ (setPort s p x).auroras = s.auroras ∧ (setPort s p x).lanes = s.lanes ∧
    (setPort s p x).queues = s.queues ∧ (setPort s p x).orders = s.orders ∧ (setPort s p x).held0 = s.held0 ∧
    (setPort s p x).held1 = s.held1 ∧ (setPort s p x).held3 = s.held3 ∧ (setPort s p x).inbox = s.inbox ∧
    (setPort s p x).owed = s.owed ∧ (setPort s p x).written = s.written ∧ (setPort s p x).images = s.images ∧
    (setPort s p x).stagings = s.stagings ∧ (setPort s p x).nextHandle = s.nextHandle ∧
    (setPort s p x).nextStaging = s.nextStaging ∧ (setPort s p x).zenith = s.zenith ∧
    (setPort s p x).dram = s.dram ∧ (setPort s p x).plls = s.plls ∧ (setPort s p x).refPresent = s.refPresent ∧
    (setPort s p x).refAbsent = s.refAbsent ∧ (setPort s p x).nclkOsc = s.nclkOsc ∧
    (setPort s p x).suspended = s.suspended ∧ (setPort s p x).units = s.units ∧ (setPort s p x).power = s.power ∧
    (setPort s p x).horizon = s.horizon ∧ (setPort s p x).anvil = s.anvil ∧ (setPort s p x).boot = s.boot ∧
    (setPort s p x).launchId = s.launchId ∧ (setPort s p x).originIds = s.originIds ∧
    (setPort s p x).owner = s.owner ∧ (setPort s p x).ownIn = s.ownIn ∧ (setPort s p x).pecs = s.pecs ∧
    (setPort s p x).marks = s.marks ∧ (setPort s p x).jtag = s.jtag ∧ (setPort s p x).straps = s.straps ∧
    (setPort s p x).bist = s.bist ∧ (setPort s p x).takeover = s.takeover := by
  and_intros <;> rfl

@[simp] theorem regSet_keeps (s : State) (a : Nat) (v : Word) :
    (regSet s a v).pending = s.pending ∧ (regSet s a v).now = s.now ∧ (regSet s a v).free = s.free ∧
    (regSet s a v).window = s.window ∧ (regSet s a v).memo = s.memo ∧ (regSet s a v).done = s.done ∧
    (regSet s a v).doms = s.doms ∧ (regSet s a v).flows = s.flows ∧ (regSet s a v).sites = s.sites ∧
    (regSet s a v).store = s.store ∧ (regSet s a v).pins = s.pins ∧ (regSet s a v).rings = s.rings ∧
    (regSet s a v).buckets = s.buckets ∧ (regSet s a v).turns = s.turns ∧ (regSet s a v).cums = s.cums ∧
    (regSet s a v).ledger = s.ledger ∧ (regSet s a v).virgas = s.virgas ∧ (regSet s a v).squalls = s.squalls ∧
    (regSet s a v).auroras = s.auroras ∧ (regSet s a v).ports = s.ports ∧ (regSet s a v).lanes = s.lanes ∧
    (regSet s a v).queues = s.queues ∧ (regSet s a v).orders = s.orders ∧ (regSet s a v).held0 = s.held0 ∧
    (regSet s a v).held1 = s.held1 ∧ (regSet s a v).held3 = s.held3 ∧ (regSet s a v).inbox = s.inbox ∧
    (regSet s a v).owed = s.owed ∧ (regSet s a v).written = s.written ∧ (regSet s a v).images = s.images ∧
    (regSet s a v).stagings = s.stagings ∧ (regSet s a v).nextHandle = s.nextHandle ∧
    (regSet s a v).nextStaging = s.nextStaging ∧ (regSet s a v).zenith = s.zenith ∧
    (regSet s a v).dram = s.dram ∧ (regSet s a v).plls = s.plls ∧ (regSet s a v).refPresent = s.refPresent ∧
    (regSet s a v).refAbsent = s.refAbsent ∧ (regSet s a v).nclkOsc = s.nclkOsc ∧
    (regSet s a v).suspended = s.suspended ∧ (regSet s a v).units = s.units ∧ (regSet s a v).power = s.power ∧
    (regSet s a v).horizon = s.horizon ∧ (regSet s a v).anvil = s.anvil ∧ (regSet s a v).boot = s.boot ∧
    (regSet s a v).launchId = s.launchId ∧ (regSet s a v).originIds = s.originIds ∧
    (regSet s a v).owner = s.owner ∧ (regSet s a v).ownIn = s.ownIn ∧ (regSet s a v).pecs = s.pecs ∧
    (regSet s a v).marks = s.marks ∧ (regSet s a v).jtag = s.jtag ∧ (regSet s a v).straps = s.straps ∧
    (regSet s a v).bist = s.bist ∧ (regSet s a v).takeover = s.takeover := by
  and_intros <;> rfl

@[simp] theorem regPut_keeps (s : State) (a lo w v : Nat) :
    (regPut s a lo w v).pending = s.pending ∧ (regPut s a lo w v).now = s.now ∧
    (regPut s a lo w v).free = s.free ∧ (regPut s a lo w v).window = s.window ∧
    (regPut s a lo w v).memo = s.memo ∧ (regPut s a lo w v).done = s.done ∧ (regPut s a lo w v).doms = s.doms ∧
    (regPut s a lo w v).flows = s.flows ∧ (regPut s a lo w v).sites = s.sites ∧
    (regPut s a lo w v).store = s.store ∧ (regPut s a lo w v).pins = s.pins ∧
    (regPut s a lo w v).rings = s.rings ∧ (regPut s a lo w v).buckets = s.buckets ∧
    (regPut s a lo w v).turns = s.turns ∧ (regPut s a lo w v).cums = s.cums ∧
    (regPut s a lo w v).ledger = s.ledger ∧ (regPut s a lo w v).virgas = s.virgas ∧
    (regPut s a lo w v).squalls = s.squalls ∧ (regPut s a lo w v).auroras = s.auroras ∧
    (regPut s a lo w v).ports = s.ports ∧ (regPut s a lo w v).lanes = s.lanes ∧
    (regPut s a lo w v).queues = s.queues ∧ (regPut s a lo w v).orders = s.orders ∧
    (regPut s a lo w v).held0 = s.held0 ∧ (regPut s a lo w v).held1 = s.held1 ∧
    (regPut s a lo w v).held3 = s.held3 ∧ (regPut s a lo w v).inbox = s.inbox ∧
    (regPut s a lo w v).owed = s.owed ∧ (regPut s a lo w v).written = s.written ∧
    (regPut s a lo w v).images = s.images ∧ (regPut s a lo w v).stagings = s.stagings ∧
    (regPut s a lo w v).nextHandle = s.nextHandle ∧ (regPut s a lo w v).nextStaging = s.nextStaging ∧
    (regPut s a lo w v).zenith = s.zenith ∧ (regPut s a lo w v).dram = s.dram ∧
    (regPut s a lo w v).plls = s.plls ∧ (regPut s a lo w v).refPresent = s.refPresent ∧
    (regPut s a lo w v).refAbsent = s.refAbsent ∧ (regPut s a lo w v).nclkOsc = s.nclkOsc ∧
    (regPut s a lo w v).suspended = s.suspended ∧ (regPut s a lo w v).units = s.units ∧
    (regPut s a lo w v).power = s.power ∧ (regPut s a lo w v).horizon = s.horizon ∧
    (regPut s a lo w v).anvil = s.anvil ∧ (regPut s a lo w v).boot = s.boot ∧
    (regPut s a lo w v).launchId = s.launchId ∧ (regPut s a lo w v).originIds = s.originIds ∧
    (regPut s a lo w v).owner = s.owner ∧ (regPut s a lo w v).ownIn = s.ownIn ∧
    (regPut s a lo w v).pecs = s.pecs ∧ (regPut s a lo w v).marks = s.marks ∧ (regPut s a lo w v).jtag = s.jtag ∧
    (regPut s a lo w v).straps = s.straps ∧ (regPut s a lo w v).bist = s.bist ∧
    (regPut s a lo w v).takeover = s.takeover := by
  and_intros <;> rfl

@[simp] theorem regBump_keeps (s : State) (a lo w n : Nat) :
    (regBump s a lo w n).pending = s.pending ∧ (regBump s a lo w n).now = s.now ∧
    (regBump s a lo w n).free = s.free ∧ (regBump s a lo w n).window = s.window ∧
    (regBump s a lo w n).memo = s.memo ∧ (regBump s a lo w n).done = s.done ∧
    (regBump s a lo w n).doms = s.doms ∧ (regBump s a lo w n).flows = s.flows ∧
    (regBump s a lo w n).sites = s.sites ∧ (regBump s a lo w n).store = s.store ∧
    (regBump s a lo w n).pins = s.pins ∧ (regBump s a lo w n).rings = s.rings ∧
    (regBump s a lo w n).buckets = s.buckets ∧ (regBump s a lo w n).turns = s.turns ∧
    (regBump s a lo w n).cums = s.cums ∧ (regBump s a lo w n).ledger = s.ledger ∧
    (regBump s a lo w n).virgas = s.virgas ∧ (regBump s a lo w n).squalls = s.squalls ∧
    (regBump s a lo w n).auroras = s.auroras ∧ (regBump s a lo w n).ports = s.ports ∧
    (regBump s a lo w n).lanes = s.lanes ∧ (regBump s a lo w n).queues = s.queues ∧
    (regBump s a lo w n).orders = s.orders ∧ (regBump s a lo w n).held0 = s.held0 ∧
    (regBump s a lo w n).held1 = s.held1 ∧ (regBump s a lo w n).held3 = s.held3 ∧
    (regBump s a lo w n).inbox = s.inbox ∧ (regBump s a lo w n).owed = s.owed ∧
    (regBump s a lo w n).written = s.written ∧ (regBump s a lo w n).images = s.images ∧
    (regBump s a lo w n).stagings = s.stagings ∧ (regBump s a lo w n).nextHandle = s.nextHandle ∧
    (regBump s a lo w n).nextStaging = s.nextStaging ∧ (regBump s a lo w n).zenith = s.zenith ∧
    (regBump s a lo w n).dram = s.dram ∧ (regBump s a lo w n).plls = s.plls ∧
    (regBump s a lo w n).refPresent = s.refPresent ∧ (regBump s a lo w n).refAbsent = s.refAbsent ∧
    (regBump s a lo w n).nclkOsc = s.nclkOsc ∧ (regBump s a lo w n).suspended = s.suspended ∧
    (regBump s a lo w n).units = s.units ∧ (regBump s a lo w n).power = s.power ∧
    (regBump s a lo w n).horizon = s.horizon ∧ (regBump s a lo w n).anvil = s.anvil ∧
    (regBump s a lo w n).boot = s.boot ∧ (regBump s a lo w n).launchId = s.launchId ∧
    (regBump s a lo w n).originIds = s.originIds ∧ (regBump s a lo w n).owner = s.owner ∧
    (regBump s a lo w n).ownIn = s.ownIn ∧ (regBump s a lo w n).pecs = s.pecs ∧
    (regBump s a lo w n).marks = s.marks ∧ (regBump s a lo w n).jtag = s.jtag ∧
    (regBump s a lo w n).straps = s.straps ∧ (regBump s a lo w n).bist = s.bist ∧
    (regBump s a lo w n).takeover = s.takeover := by
  and_intros <;> rfl

@[simp] theorem regWrap_keeps (s : State) (a lo w : Nat) :
    (regWrap s a lo w).pending = s.pending ∧ (regWrap s a lo w).now = s.now ∧ (regWrap s a lo w).free = s.free ∧
    (regWrap s a lo w).window = s.window ∧ (regWrap s a lo w).memo = s.memo ∧ (regWrap s a lo w).done = s.done ∧
    (regWrap s a lo w).doms = s.doms ∧ (regWrap s a lo w).flows = s.flows ∧ (regWrap s a lo w).sites = s.sites ∧
    (regWrap s a lo w).store = s.store ∧ (regWrap s a lo w).pins = s.pins ∧ (regWrap s a lo w).rings = s.rings ∧
    (regWrap s a lo w).buckets = s.buckets ∧ (regWrap s a lo w).turns = s.turns ∧
    (regWrap s a lo w).cums = s.cums ∧ (regWrap s a lo w).ledger = s.ledger ∧
    (regWrap s a lo w).virgas = s.virgas ∧ (regWrap s a lo w).squalls = s.squalls ∧
    (regWrap s a lo w).auroras = s.auroras ∧ (regWrap s a lo w).ports = s.ports ∧
    (regWrap s a lo w).lanes = s.lanes ∧ (regWrap s a lo w).queues = s.queues ∧
    (regWrap s a lo w).orders = s.orders ∧ (regWrap s a lo w).held0 = s.held0 ∧
    (regWrap s a lo w).held1 = s.held1 ∧ (regWrap s a lo w).held3 = s.held3 ∧
    (regWrap s a lo w).inbox = s.inbox ∧ (regWrap s a lo w).owed = s.owed ∧
    (regWrap s a lo w).written = s.written ∧ (regWrap s a lo w).images = s.images ∧
    (regWrap s a lo w).stagings = s.stagings ∧ (regWrap s a lo w).nextHandle = s.nextHandle ∧
    (regWrap s a lo w).nextStaging = s.nextStaging ∧ (regWrap s a lo w).zenith = s.zenith ∧
    (regWrap s a lo w).dram = s.dram ∧ (regWrap s a lo w).plls = s.plls ∧
    (regWrap s a lo w).refPresent = s.refPresent ∧ (regWrap s a lo w).refAbsent = s.refAbsent ∧
    (regWrap s a lo w).nclkOsc = s.nclkOsc ∧ (regWrap s a lo w).suspended = s.suspended ∧
    (regWrap s a lo w).units = s.units ∧ (regWrap s a lo w).power = s.power ∧
    (regWrap s a lo w).horizon = s.horizon ∧ (regWrap s a lo w).anvil = s.anvil ∧
    (regWrap s a lo w).boot = s.boot ∧ (regWrap s a lo w).launchId = s.launchId ∧
    (regWrap s a lo w).originIds = s.originIds ∧ (regWrap s a lo w).owner = s.owner ∧
    (regWrap s a lo w).ownIn = s.ownIn ∧ (regWrap s a lo w).pecs = s.pecs ∧ (regWrap s a lo w).marks = s.marks ∧
    (regWrap s a lo w).jtag = s.jtag ∧ (regWrap s a lo w).straps = s.straps ∧ (regWrap s a lo w).bist = s.bist ∧
    (regWrap s a lo w).takeover = s.takeover := by
  and_intros <;> rfl

@[simp] theorem flagTag_keeps (s : State) (t : Word) (n : Nat) :
    (flagTag s t n).pending = s.pending ∧ (flagTag s t n).now = s.now ∧ (flagTag s t n).free = s.free ∧
    (flagTag s t n).regs = s.regs ∧ (flagTag s t n).window = s.window ∧ (flagTag s t n).memo = s.memo ∧
    (flagTag s t n).done = s.done ∧ (flagTag s t n).flows = s.flows ∧ (flagTag s t n).sites = s.sites ∧
    (flagTag s t n).store = s.store ∧ (flagTag s t n).pins = s.pins ∧ (flagTag s t n).rings = s.rings ∧
    (flagTag s t n).buckets = s.buckets ∧ (flagTag s t n).turns = s.turns ∧ (flagTag s t n).cums = s.cums ∧
    (flagTag s t n).ledger = s.ledger ∧ (flagTag s t n).virgas = s.virgas ∧ (flagTag s t n).squalls = s.squalls ∧
    (flagTag s t n).auroras = s.auroras ∧ (flagTag s t n).ports = s.ports ∧ (flagTag s t n).lanes = s.lanes ∧
    (flagTag s t n).queues = s.queues ∧ (flagTag s t n).orders = s.orders ∧ (flagTag s t n).held0 = s.held0 ∧
    (flagTag s t n).held1 = s.held1 ∧ (flagTag s t n).held3 = s.held3 ∧ (flagTag s t n).inbox = s.inbox ∧
    (flagTag s t n).owed = s.owed ∧ (flagTag s t n).written = s.written ∧ (flagTag s t n).images = s.images ∧
    (flagTag s t n).stagings = s.stagings ∧ (flagTag s t n).nextHandle = s.nextHandle ∧
    (flagTag s t n).nextStaging = s.nextStaging ∧ (flagTag s t n).zenith = s.zenith ∧
    (flagTag s t n).dram = s.dram ∧ (flagTag s t n).plls = s.plls ∧ (flagTag s t n).refPresent = s.refPresent ∧
    (flagTag s t n).refAbsent = s.refAbsent ∧ (flagTag s t n).nclkOsc = s.nclkOsc ∧
    (flagTag s t n).suspended = s.suspended ∧ (flagTag s t n).units = s.units ∧ (flagTag s t n).power = s.power ∧
    (flagTag s t n).horizon = s.horizon ∧ (flagTag s t n).anvil = s.anvil ∧ (flagTag s t n).boot = s.boot ∧
    (flagTag s t n).launchId = s.launchId ∧ (flagTag s t n).originIds = s.originIds ∧
    (flagTag s t n).owner = s.owner ∧ (flagTag s t n).ownIn = s.ownIn ∧ (flagTag s t n).pecs = s.pecs ∧
    (flagTag s t n).marks = s.marks ∧ (flagTag s t n).jtag = s.jtag ∧ (flagTag s t n).straps = s.straps ∧
    (flagTag s t n).bist = s.bist ∧ (flagTag s t n).takeover = s.takeover := by
  and_intros <;> rfl

@[simp] theorem parkDom_keeps (s : State) (d : Nat) :
    (parkDom s d).pending = s.pending ∧ (parkDom s d).now = s.now ∧ (parkDom s d).free = s.free ∧
    (parkDom s d).regs = s.regs ∧ (parkDom s d).window = s.window ∧ (parkDom s d).memo = s.memo ∧
    (parkDom s d).done = s.done ∧ (parkDom s d).doms = s.doms ∧ (parkDom s d).flows = s.flows ∧
    (parkDom s d).sites = s.sites ∧ (parkDom s d).store = s.store ∧ (parkDom s d).rings = s.rings ∧
    (parkDom s d).buckets = s.buckets ∧ (parkDom s d).turns = s.turns ∧ (parkDom s d).cums = s.cums ∧
    (parkDom s d).ledger = s.ledger ∧ (parkDom s d).virgas = s.virgas ∧ (parkDom s d).squalls = s.squalls ∧
    (parkDom s d).auroras = s.auroras ∧ (parkDom s d).ports = s.ports ∧ (parkDom s d).lanes = s.lanes ∧
    (parkDom s d).queues = s.queues ∧ (parkDom s d).orders = s.orders ∧ (parkDom s d).held0 = s.held0 ∧
    (parkDom s d).held1 = s.held1 ∧ (parkDom s d).held3 = s.held3 ∧ (parkDom s d).inbox = s.inbox ∧
    (parkDom s d).owed = s.owed ∧ (parkDom s d).written = s.written ∧ (parkDom s d).images = s.images ∧
    (parkDom s d).stagings = s.stagings ∧ (parkDom s d).nextHandle = s.nextHandle ∧
    (parkDom s d).nextStaging = s.nextStaging ∧ (parkDom s d).zenith = s.zenith ∧ (parkDom s d).dram = s.dram ∧
    (parkDom s d).plls = s.plls ∧ (parkDom s d).refPresent = s.refPresent ∧
    (parkDom s d).refAbsent = s.refAbsent ∧ (parkDom s d).nclkOsc = s.nclkOsc ∧
    (parkDom s d).suspended = s.suspended ∧ (parkDom s d).units = s.units ∧ (parkDom s d).power = s.power ∧
    (parkDom s d).horizon = s.horizon ∧ (parkDom s d).anvil = s.anvil ∧ (parkDom s d).boot = s.boot ∧
    (parkDom s d).launchId = s.launchId ∧ (parkDom s d).originIds = s.originIds ∧ (parkDom s d).owner = s.owner ∧
    (parkDom s d).ownIn = s.ownIn ∧ (parkDom s d).pecs = s.pecs ∧ (parkDom s d).marks = s.marks ∧
    (parkDom s d).jtag = s.jtag ∧ (parkDom s d).straps = s.straps ∧ (parkDom s d).bist = s.bist ∧
    (parkDom s d).takeover = s.takeover := by
  and_intros <;> rfl

end Sys2Proof.Machine
end

