-- ==== Sys2Proof/Laws/Tables.lean ====
section
/-! SUPPORT. The laws of tables: reading after a write, writing twice, and the canonical form every write keeps. -/

namespace Sys2Proof.Machine

variable {α : Type} {d : α}

theorem tget_tdel_same (t : Tbl α) (k : Nat) : tget d (tdel t k) k = d := by
  induction t with
  | nil => rfl
  | cons e r ih =>
    obtain ⟨k', v⟩ := e
    by_cases h : k' = k <;> simp [tdel, tget, h, ih]

theorem tget_tdel_ne (t : Tbl α) {k j : Nat} (h : j ≠ k) : tget d (tdel t k) j = tget d t j := by
  induction t with
  | nil => rfl
  | cons e r ih =>
    obtain ⟨k', v⟩ := e
    by_cases h1 : k' = k
    · subst h1; simp [tdel, tget, ih, Ne.symm h]
    · simp [tdel, tget, h1, ih]

theorem tget_tins_same (t : Tbl α) (k : Nat) (v : α) (h : ∀ e ∈ t, e.1 ≠ k) : tget d (tins t k v) k = v := by
  induction t with
  | nil => simp [tins, tget]
  | cons e r ih =>
    obtain ⟨k', v'⟩ := e
    have h1 : k' ≠ k := h (k', v') (by simp)
    have h2 := ih (fun e he => h e (by simp [he]))
    by_cases h3 : k < k' <;> simp [tins, tget, h1, h2, h3]

theorem tget_tins_ne (t : Tbl α) {k j : Nat} (v : α) (h : j ≠ k) : tget d (tins t k v) j = tget d t j := by
  induction t with
  | nil => simp [tins, tget, Ne.symm h]
  | cons e r ih =>
    obtain ⟨k', v'⟩ := e
    by_cases h3 : k < k' <;> simp [tins, tget, h3, ih, Ne.symm h]

theorem tdel_absent (t : Tbl α) (k : Nat) : ∀ e ∈ tdel t k, e.1 ≠ k := by
  induction t with
  | nil => simp [tdel]
  | cons e r ih =>
    obtain ⟨k', v⟩ := e
    by_cases h : k' = k
    · simpa [tdel, h] using ih
    · intro e he
      simp only [tdel, h, if_false, List.mem_cons] at he
      rcases he with rfl | he
      · exact h
      · exact ih e he

/-- A read at the index just written gives the value written. -/
@[simp] theorem tget_tset_same [DecidableEq α] (t : Tbl α) (k : Nat) (v : α) : tget d (tset d t k v) k = v := by
  by_cases h : v = d
  · simp [tset, h, tget_tdel_same]
  · simp [tset, h, tget_tins_same _ _ _ (tdel_absent t k)]

/-- A write leaves every other index as it was. -/
theorem tget_tset_ne [DecidableEq α] (t : Tbl α) {k j : Nat} (v : α) (h : j ≠ k) : tget d (tset d t k v) j = tget d t j := by
  by_cases h1 : v = d
  · simp [tset, h1, tget_tdel_ne t h]
  · simp [tset, h1, tget_tins_ne _ v h, tget_tdel_ne t h]

theorem tget_tset [DecidableEq α] (t : Tbl α) (k j : Nat) (v : α) :
    tget d (tset d t k v) j = if j = k then v else tget d t j := by
  by_cases h : j = k
  · subst h; simp
  · simp [h, tget_tset_ne t v h]

theorem tdel_tdel (t : Tbl α) (k : Nat) : tdel (tdel t k) k = tdel t k := by
  induction t with
  | nil => rfl
  | cons e r ih =>
    obtain ⟨k', v⟩ := e
    by_cases h : k' = k <;> simp [tdel, h, ih]

theorem tdel_tins (t : Tbl α) (k : Nat) (v : α) : tdel (tins t k v) k = tdel t k := by
  induction t with
  | nil => simp [tins, tdel]
  | cons e r ih =>
    obtain ⟨k', v'⟩ := e
    by_cases h : k < k'
    · simp [tins, h, tdel]
    · by_cases h1 : k' = k <;> simp [tins, h, tdel, h1, ih]

/-- Of two writes at one index the later stands. -/
@[simp] theorem tset_tset [DecidableEq α] (t : Tbl α) (k : Nat) (v w : α) : tset d (tset d t k v) k w = tset d t k w := by
  have e : tdel (tset d t k v) k = tdel t k := by
    by_cases h : v = d
    · simp [tset, h, tdel_tdel]
    · simp [tset, h, tdel_tins, tdel_tdel]
  simp only [tset] at e ⊢
  rw [e]

theorem twf_mono [DecidableEq α] (t : Tbl α) {lo hi : Nat} (h : lo ≤ hi) (w : twf d hi t = true) : twf d lo t = true := by
  cases t with
  | nil => rfl
  | cons e r =>
    simp only [twf, Bool.and_eq_true, decide_eq_true_eq] at w ⊢
    exact ⟨⟨by omega, w.1.2⟩, w.2⟩

theorem twf_tdel [DecidableEq α] (t : Tbl α) (lo k : Nat) (w : twf d lo t = true) : twf d lo (tdel t k) = true := by
  induction t generalizing lo with
  | nil => rfl
  | cons e r ih =>
    obtain ⟨k', v⟩ := e
    simp only [twf, Bool.and_eq_true, decide_eq_true_eq] at w
    by_cases h : k' = k
    · simp only [tdel, h, if_true]
      exact twf_mono _ (by omega : lo ≤ k' + 1) (h ▸ ih _ w.2)
    · simp only [tdel, h, if_false, twf, Bool.and_eq_true, decide_eq_true_eq]
      exact ⟨w.1, ih _ w.2⟩

theorem twf_tins [DecidableEq α] (t : Tbl α) (lo k : Nat) (v : α) (hv : v ≠ d) (hk : lo ≤ k) (ha : ∀ e ∈ t, e.1 ≠ k)
    (w : twf d lo t = true) : twf d lo (tins t k v) = true := by
  induction t generalizing lo with
  | nil => simp [tins, twf, hk, hv]
  | cons e r ih =>
    obtain ⟨k', v'⟩ := e
    simp only [twf, Bool.and_eq_true, decide_eq_true_eq] at w
    have h1 : k' ≠ k := ha (k', v') (by simp)
    by_cases h : k < k'
    · simp only [tins, h, if_true, twf, Bool.and_eq_true, decide_eq_true_eq]
      exact ⟨⟨hk, hv⟩, ⟨by omega, w.1.2⟩, w.2⟩
    · simp only [tins, h, if_false, twf, Bool.and_eq_true, decide_eq_true_eq]
      exact ⟨w.1, ih _ (by omega) (fun e he => ha e (by simp [he])) w.2⟩

/-- A write keeps the canonical form. -/
theorem twf_tset [DecidableEq α] (t : Tbl α) (lo k : Nat) (v : α) (hk : lo ≤ k) (w : twf d lo t = true) :
    twf d lo (tset d t k v) = true := by
  by_cases h : v = d
  · simp [tset, h, twf_tdel t lo k w]
  · simp only [tset, h, if_false]
    exact twf_tins _ lo k v h hk (tdel_absent t k) (twf_tdel t lo k w)

/-- Dropping entries keeps the canonical form. -/
theorem twf_filter [DecidableEq α] (t : Tbl α) (lo : Nat) (p : Nat × α → Bool) (w : twf d lo t = true) :
    twf d lo (t.filter p) = true := by
  induction t generalizing lo with
  | nil => rfl
  | cons e r ih =>
    obtain ⟨k, v⟩ := e
    simp only [twf, Bool.and_eq_true, decide_eq_true_eq] at w
    rw [List.filter_cons]
    split
    · simp only [twf, Bool.and_eq_true, decide_eq_true_eq]
      exact ⟨w.1, ih _ w.2⟩
    · exact twf_mono _ (by omega : lo ≤ k + 1) (ih _ w.2)

/-- A map over the entries keeps the canonical form. -/
theorem twf_tmap [DecidableEq α] (t : Tbl α) (lo : Nat) (f : Nat → α → α) (w : twf d lo t = true) :
    twf d lo (tmap d f t) = true := by
  induction t generalizing lo with
  | nil => rfl
  | cons e r ih =>
    obtain ⟨k, v⟩ := e
    simp only [twf, Bool.and_eq_true, decide_eq_true_eq] at w
    by_cases h : f k v = d
    · simp only [tmap, h, if_true]
      exact twf_tdel _ _ _ (twf_mono _ (by omega : lo ≤ k + 1) (ih _ w.2))
    · simp only [tmap, h, if_false, twf, Bool.and_eq_true, decide_eq_true_eq]
      exact ⟨⟨w.1.1, h⟩, ih _ w.2⟩

/-- A map that keeps the default maps every entry. -/
theorem tget_tmap [DecidableEq α] (t : Tbl α) (f : Nat → α → α) (j : Nat) (h : f j d = d) :
    tget d (tmap d f t) j = f j (tget d t j) := by
  induction t with
  | nil => simp [tmap, tget, h]
  | cons e r ih =>
    obtain ⟨k, v⟩ := e
    by_cases h1 : f k v = d
    · by_cases h2 : k = j
      · subst h2; simp [tmap, h1, tget_tdel_same, tget]
      · simp [tmap, h1, tget_tdel_ne _ (Ne.symm h2), tget, h2, ih]
    · by_cases h2 : k = j
      · subst h2; simp [tmap, h1, tget]
      · simp [tmap, h1, tget, h2, ih]

end Sys2Proof.Machine
end

