-- ==== Sys2Proof/Laws/Ops.lean ====
section
/-! SUPPORT. What a reader of the state answers after a setter: the value just written at its index, and the old value at
every other; and the stored registers, bytes and memory likewise. -/

namespace Sys2Proof.Machine

@[simp] theorem getDom_setDom (s : State) (i : Nat) (x : Dom) : getDom (setDom s i x) i = x :=
  tget_tset_same _ _ _
theorem getDom_setDom_ne (s : State) {i j : Nat} (x : Dom) (h : j ≠ i) : getDom (setDom s i x) j = getDom s j :=
  tget_tset_ne _ _ h
@[simp] theorem setDom_setDom (s : State) (i : Nat) (x y : Dom) : setDom (setDom s i x) i y = setDom s i y := by
  simp [setDom]

@[simp] theorem getVirga_setVirga (s : State) (i : Nat) (x : Virga) : getVirga (setVirga s i x) i = x :=
  tget_tset_same _ _ _
theorem getVirga_setVirga_ne (s : State) {i j : Nat} (x : Virga) (h : j ≠ i) : getVirga (setVirga s i x) j = getVirga s j :=
  tget_tset_ne _ _ h
@[simp] theorem setVirga_setVirga (s : State) (i : Nat) (x y : Virga) : setVirga (setVirga s i x) i y = setVirga s i y := by
  simp [setVirga]

@[simp] theorem getSquall_setSquall (s : State) (i : Nat) (x : Squall) : getSquall (setSquall s i x) i = x :=
  tget_tset_same _ _ _
theorem getSquall_setSquall_ne (s : State) {i j : Nat} (x : Squall) (h : j ≠ i) : getSquall (setSquall s i x) j = getSquall s j :=
  tget_tset_ne _ _ h
@[simp] theorem setSquall_setSquall (s : State) (i : Nat) (x y : Squall) : setSquall (setSquall s i x) i y = setSquall s i y := by
  simp [setSquall]

@[simp] theorem getAurora_setAurora (s : State) (i : Nat) (x : Aurora) : getAurora (setAurora s i x) i = x :=
  tget_tset_same _ _ _
theorem getAurora_setAurora_ne (s : State) {i j : Nat} (x : Aurora) (h : j ≠ i) : getAurora (setAurora s i x) j = getAurora s j :=
  tget_tset_ne _ _ h
@[simp] theorem setAurora_setAurora (s : State) (i : Nat) (x y : Aurora) : setAurora (setAurora s i x) i y = setAurora s i y := by
  simp [setAurora]

@[simp] theorem getPin_setPin (s : State) (i : Nat) (x : Pin) : getPin (setPin s i x) i = x :=
  tget_tset_same _ _ _
theorem getPin_setPin_ne (s : State) {i j : Nat} (x : Pin) (h : j ≠ i) : getPin (setPin s i x) j = getPin s j :=
  tget_tset_ne _ _ h
@[simp] theorem setPin_setPin (s : State) (i : Nat) (x y : Pin) : setPin (setPin s i x) i y = setPin s i y := by
  simp [setPin]

@[simp] theorem getRing_setRing (s : State) (i : Nat) (x : PinRing) : getRing (setRing s i x) i = x :=
  tget_tset_same _ _ _
theorem getRing_setRing_ne (s : State) {i j : Nat} (x : PinRing) (h : j ≠ i) : getRing (setRing s i x) j = getRing s j :=
  tget_tset_ne _ _ h
@[simp] theorem setRing_setRing (s : State) (i : Nat) (x y : PinRing) : setRing (setRing s i x) i y = setRing s i y := by
  simp [setRing]

@[simp] theorem getBucket_setBucket (s : State) (i : Nat) (x : Bucket) : getBucket (setBucket s i x) i = x :=
  tget_tset_same _ _ _
theorem getBucket_setBucket_ne (s : State) {i j : Nat} (x : Bucket) (h : j ≠ i) : getBucket (setBucket s i x) j = getBucket s j :=
  tget_tset_ne _ _ h
@[simp] theorem setBucket_setBucket (s : State) (i : Nat) (x y : Bucket) : setBucket (setBucket s i x) i y = setBucket s i y := by
  simp [setBucket]

@[simp] theorem getCum_setCum (s : State) (i : Nat) (x : Cum) : getCum (setCum s i x) i = x :=
  tget_tset_same _ _ _
theorem getCum_setCum_ne (s : State) {i j : Nat} (x : Cum) (h : j ≠ i) : getCum (setCum s i x) j = getCum s j :=
  tget_tset_ne _ _ h
@[simp] theorem setCum_setCum (s : State) (i : Nat) (x y : Cum) : setCum (setCum s i x) i y = setCum s i y := by
  simp [setCum]

@[simp] theorem getCtx_setCtx (s : State) (i : Nat) (x : Ctx) : getCtx (setCtx s i x) i = x :=
  tget_tset_same _ _ _
theorem getCtx_setCtx_ne (s : State) {i j : Nat} (x : Ctx) (h : j ≠ i) : getCtx (setCtx s i x) j = getCtx s j :=
  tget_tset_ne _ _ h
@[simp] theorem setCtx_setCtx (s : State) (i : Nat) (x y : Ctx) : setCtx (setCtx s i x) i y = setCtx s i y := by
  simp [setCtx]

@[simp] theorem getLane_setLane (s : State) (i : Nat) (x : Lane) : getLane (setLane s i x) i = x :=
  tget_tset_same _ _ _
theorem getLane_setLane_ne (s : State) {i j : Nat} (x : Lane) (h : j ≠ i) : getLane (setLane s i x) j = getLane s j :=
  tget_tset_ne _ _ h
@[simp] theorem setLane_setLane (s : State) (i : Nat) (x y : Lane) : setLane (setLane s i x) i y = setLane s i y := by
  simp [setLane]

@[simp] theorem getQueue_setQueue (s : State) (i : Nat) (x : Queue) : getQueue (setQueue s i x) i = x :=
  tget_tset_same _ _ _
theorem getQueue_setQueue_ne (s : State) {i j : Nat} (x : Queue) (h : j ≠ i) : getQueue (setQueue s i x) j = getQueue s j :=
  tget_tset_ne _ _ h
@[simp] theorem setQueue_setQueue (s : State) (i : Nat) (x y : Queue) : setQueue (setQueue s i x) i y = setQueue s i y := by
  simp [setQueue]

@[simp] theorem getImage_setImage (s : State) (i : Nat) (x : Image) : getImage (setImage s i x) i = x :=
  tget_tset_same _ _ _
theorem getImage_setImage_ne (s : State) {i j : Nat} (x : Image) (h : j ≠ i) : getImage (setImage s i x) j = getImage s j :=
  tget_tset_ne _ _ h
@[simp] theorem setImage_setImage (s : State) (i : Nat) (x y : Image) : setImage (setImage s i x) i y = setImage s i y := by
  simp [setImage]

@[simp] theorem getStaging_setStaging (s : State) (i : Nat) (x : Staging) : getStaging (setStaging s i x) i = x :=
  tget_tset_same _ _ _
theorem getStaging_setStaging_ne (s : State) {i j : Nat} (x : Staging) (h : j ≠ i) : getStaging (setStaging s i x) j = getStaging s j :=
  tget_tset_ne _ _ h
@[simp] theorem setStaging_setStaging (s : State) (i : Nat) (x y : Staging) : setStaging (setStaging s i x) i y = setStaging s i y := by
  simp [setStaging]

@[simp] theorem getPll_setPll (s : State) (i : Nat) (x : Pll) : getPll (setPll s i x) i = x :=
  tget_tset_same _ _ _
theorem getPll_setPll_ne (s : State) {i j : Nat} (x : Pll) (h : j ≠ i) : getPll (setPll s i x) j = getPll s j :=
  tget_tset_ne _ _ h
@[simp] theorem setPll_setPll (s : State) (i : Nat) (x y : Pll) : setPll (setPll s i x) i y = setPll s i y := by
  simp [setPll]

@[simp] theorem getUnit_setUnit (s : State) (i : Nat) (x : PowUnit) : getUnit (setUnit s i x) i = x :=
  tget_tset_same _ _ _
theorem getUnit_setUnit_ne (s : State) {i j : Nat} (x : PowUnit) (h : j ≠ i) : getUnit (setUnit s i x) j = getUnit s j :=
  tget_tset_ne _ _ h
@[simp] theorem setUnit_setUnit (s : State) (i : Nat) (x y : PowUnit) : setUnit (setUnit s i x) i y = setUnit s i y := by
  simp [setUnit]

@[simp] theorem getPec_setPec (s : State) (i : Nat) (x : Pec) : getPec (setPec s i x) i = x :=
  tget_tset_same _ _ _
theorem getPec_setPec_ne (s : State) {i j : Nat} (x : Pec) (h : j ≠ i) : getPec (setPec s i x) j = getPec s j :=
  tget_tset_ne _ _ h
@[simp] theorem setPec_setPec (s : State) (i : Nat) (x y : Pec) : setPec (setPec s i x) i y = setPec s i y := by
  simp [setPec]

@[simp] theorem getMark_setMark (s : State) (i : Nat) (x : MarkOut) : getMark (setMark s i x) i = x :=
  tget_tset_same _ _ _
theorem getMark_setMark_ne (s : State) {i j : Nat} (x : MarkOut) (h : j ≠ i) : getMark (setMark s i x) j = getMark s j :=
  tget_tset_ne _ _ h
@[simp] theorem setMark_setMark (s : State) (i : Nat) (x y : MarkOut) : setMark (setMark s i x) i y = setMark s i y := by
  simp [setMark]

@[simp] theorem getFlow_setFlow (s : State) (d k : Nat) (x : Flow) : getFlow (setFlow s d k x) d k = x :=
  tget_tset_same _ _ _
theorem getFlow_setFlow_ne (s : State) {d k j : Nat} (x : Flow) (h : j ≠ k) : getFlow (setFlow s d k x) d j = getFlow s d j :=
  tget_tset_ne _ _ (by simp only [siteKey]; omega)
@[simp] theorem setFlow_setFlow (s : State) (d k : Nat) (x y : Flow) : setFlow (setFlow s d k x) d k y = setFlow s d k y := by
  simp [setFlow]

@[simp] theorem getSite_setSite (s : State) (d k : Nat) (x : Site) : getSite (setSite s d k x) d k = x :=
  tget_tset_same _ _ _
theorem getSite_setSite_ne (s : State) {d k j : Nat} (x : Site) (h : j ≠ k) : getSite (setSite s d k x) d j = getSite s d j :=
  tget_tset_ne _ _ (by simp only [siteKey]; omega)
@[simp] theorem setSite_setSite (s : State) (d k : Nat) (x y : Site) : setSite (setSite s d k x) d k y = setSite s d k y := by
  simp [setSite]

@[simp] theorem getPort_setPort (s : State) (p : Port) (x : PortSt) : getPort (setPort s p x) p = x :=
  tget_tset_same _ _ _

theorem portIx_inj {p q : Port} (h : portIx p = portIx q) : p = q := by
  cases p <;> cases q <;> simp_all [portIx]

theorem getPort_setPort_ne (s : State) {p q : Port} (x : PortSt) (h : q ≠ p) : getPort (setPort s p x) q = getPort s q :=
  tget_tset_ne _ _ (fun e => h (portIx_inj e))

/-! ### Registers -/

@[simp] theorem regGet_regSet (s : State) (a : Nat) (v : Word) : regGet (regSet s a v) a = v := tget_tset_same _ _ _

/-! ### Readers of one table after a setter of another -/

@[simp] theorem setDom_reads (s : State) (i : Nat) (x : Dom) :
    (∀ j, getVirga (setDom s i x) j = getVirga s j) ∧ (∀ j, getSquall (setDom s i x) j = getSquall s j) ∧
    (∀ j, getAurora (setDom s i x) j = getAurora s j) ∧ (∀ j, getPin (setDom s i x) j = getPin s j) ∧
    (∀ j, getRing (setDom s i x) j = getRing s j) ∧ (∀ j, getBucket (setDom s i x) j = getBucket s j) ∧
    (∀ j, getCum (setDom s i x) j = getCum s j) ∧ (∀ j, getCtx (setDom s i x) j = getCtx s j) ∧
    (∀ j, getLane (setDom s i x) j = getLane s j) ∧ (∀ j, getQueue (setDom s i x) j = getQueue s j) ∧
    (∀ j, getImage (setDom s i x) j = getImage s j) ∧ (∀ j, getStaging (setDom s i x) j = getStaging s j) ∧
    (∀ j, getPll (setDom s i x) j = getPll s j) ∧ (∀ j, getUnit (setDom s i x) j = getUnit s j) ∧
    (∀ j, getPec (setDom s i x) j = getPec s j) ∧ (∀ j, getMark (setDom s i x) j = getMark s j) ∧
    (∀ e j, getFlow (setDom s i x) e j = getFlow s e j) ∧ (∀ e j, getSite (setDom s i x) e j = getSite s e j) ∧
    (∀ q, getPort (setDom s i x) q = getPort s q) ∧ (∀ c, regGet (setDom s i x) c = regGet s c) := by
  and_intros <;> intros <;> rfl

@[simp] theorem setVirga_reads (s : State) (i : Nat) (x : Virga) :
    (∀ j, getDom (setVirga s i x) j = getDom s j) ∧ (∀ j, getSquall (setVirga s i x) j = getSquall s j) ∧
    (∀ j, getAurora (setVirga s i x) j = getAurora s j) ∧ (∀ j, getPin (setVirga s i x) j = getPin s j) ∧
    (∀ j, getRing (setVirga s i x) j = getRing s j) ∧ (∀ j, getBucket (setVirga s i x) j = getBucket s j) ∧
    (∀ j, getCum (setVirga s i x) j = getCum s j) ∧ (∀ j, getCtx (setVirga s i x) j = getCtx s j) ∧
    (∀ j, getLane (setVirga s i x) j = getLane s j) ∧ (∀ j, getQueue (setVirga s i x) j = getQueue s j) ∧
    (∀ j, getImage (setVirga s i x) j = getImage s j) ∧ (∀ j, getStaging (setVirga s i x) j = getStaging s j) ∧
    (∀ j, getPll (setVirga s i x) j = getPll s j) ∧ (∀ j, getUnit (setVirga s i x) j = getUnit s j) ∧
    (∀ j, getPec (setVirga s i x) j = getPec s j) ∧ (∀ j, getMark (setVirga s i x) j = getMark s j) ∧
    (∀ e j, getFlow (setVirga s i x) e j = getFlow s e j) ∧ (∀ e j, getSite (setVirga s i x) e j = getSite s e j) ∧
    (∀ q, getPort (setVirga s i x) q = getPort s q) ∧ (∀ c, regGet (setVirga s i x) c = regGet s c) := by
  and_intros <;> intros <;> rfl

@[simp] theorem setSquall_reads (s : State) (i : Nat) (x : Squall) :
    (∀ j, getDom (setSquall s i x) j = getDom s j) ∧ (∀ j, getVirga (setSquall s i x) j = getVirga s j) ∧
    (∀ j, getAurora (setSquall s i x) j = getAurora s j) ∧ (∀ j, getPin (setSquall s i x) j = getPin s j) ∧
    (∀ j, getRing (setSquall s i x) j = getRing s j) ∧ (∀ j, getBucket (setSquall s i x) j = getBucket s j) ∧
    (∀ j, getCum (setSquall s i x) j = getCum s j) ∧ (∀ j, getCtx (setSquall s i x) j = getCtx s j) ∧
    (∀ j, getLane (setSquall s i x) j = getLane s j) ∧ (∀ j, getQueue (setSquall s i x) j = getQueue s j) ∧
    (∀ j, getImage (setSquall s i x) j = getImage s j) ∧ (∀ j, getStaging (setSquall s i x) j = getStaging s j) ∧
    (∀ j, getPll (setSquall s i x) j = getPll s j) ∧ (∀ j, getUnit (setSquall s i x) j = getUnit s j) ∧
    (∀ j, getPec (setSquall s i x) j = getPec s j) ∧ (∀ j, getMark (setSquall s i x) j = getMark s j) ∧
    (∀ e j, getFlow (setSquall s i x) e j = getFlow s e j) ∧ (∀ e j, getSite (setSquall s i x) e j = getSite s e j) ∧
    (∀ q, getPort (setSquall s i x) q = getPort s q) ∧ (∀ c, regGet (setSquall s i x) c = regGet s c) := by
  and_intros <;> intros <;> rfl

@[simp] theorem setAurora_reads (s : State) (i : Nat) (x : Aurora) :
    (∀ j, getDom (setAurora s i x) j = getDom s j) ∧ (∀ j, getVirga (setAurora s i x) j = getVirga s j) ∧
    (∀ j, getSquall (setAurora s i x) j = getSquall s j) ∧ (∀ j, getPin (setAurora s i x) j = getPin s j) ∧
    (∀ j, getRing (setAurora s i x) j = getRing s j) ∧ (∀ j, getBucket (setAurora s i x) j = getBucket s j) ∧
    (∀ j, getCum (setAurora s i x) j = getCum s j) ∧ (∀ j, getCtx (setAurora s i x) j = getCtx s j) ∧
    (∀ j, getLane (setAurora s i x) j = getLane s j) ∧ (∀ j, getQueue (setAurora s i x) j = getQueue s j) ∧
    (∀ j, getImage (setAurora s i x) j = getImage s j) ∧ (∀ j, getStaging (setAurora s i x) j = getStaging s j) ∧
    (∀ j, getPll (setAurora s i x) j = getPll s j) ∧ (∀ j, getUnit (setAurora s i x) j = getUnit s j) ∧
    (∀ j, getPec (setAurora s i x) j = getPec s j) ∧ (∀ j, getMark (setAurora s i x) j = getMark s j) ∧
    (∀ e j, getFlow (setAurora s i x) e j = getFlow s e j) ∧ (∀ e j, getSite (setAurora s i x) e j = getSite s e j) ∧
    (∀ q, getPort (setAurora s i x) q = getPort s q) ∧ (∀ c, regGet (setAurora s i x) c = regGet s c) := by
  and_intros <;> intros <;> rfl

@[simp] theorem setPin_reads (s : State) (i : Nat) (x : Pin) :
    (∀ j, getDom (setPin s i x) j = getDom s j) ∧ (∀ j, getVirga (setPin s i x) j = getVirga s j) ∧
    (∀ j, getSquall (setPin s i x) j = getSquall s j) ∧ (∀ j, getAurora (setPin s i x) j = getAurora s j) ∧
    (∀ j, getRing (setPin s i x) j = getRing s j) ∧ (∀ j, getBucket (setPin s i x) j = getBucket s j) ∧
    (∀ j, getCum (setPin s i x) j = getCum s j) ∧ (∀ j, getCtx (setPin s i x) j = getCtx s j) ∧
    (∀ j, getLane (setPin s i x) j = getLane s j) ∧ (∀ j, getQueue (setPin s i x) j = getQueue s j) ∧
    (∀ j, getImage (setPin s i x) j = getImage s j) ∧ (∀ j, getStaging (setPin s i x) j = getStaging s j) ∧
    (∀ j, getPll (setPin s i x) j = getPll s j) ∧ (∀ j, getUnit (setPin s i x) j = getUnit s j) ∧
    (∀ j, getPec (setPin s i x) j = getPec s j) ∧ (∀ j, getMark (setPin s i x) j = getMark s j) ∧
    (∀ e j, getFlow (setPin s i x) e j = getFlow s e j) ∧ (∀ e j, getSite (setPin s i x) e j = getSite s e j) ∧
    (∀ q, getPort (setPin s i x) q = getPort s q) ∧ (∀ c, regGet (setPin s i x) c = regGet s c) := by
  and_intros <;> intros <;> rfl

@[simp] theorem setRing_reads (s : State) (i : Nat) (x : PinRing) :
    (∀ j, getDom (setRing s i x) j = getDom s j) ∧ (∀ j, getVirga (setRing s i x) j = getVirga s j) ∧
    (∀ j, getSquall (setRing s i x) j = getSquall s j) ∧ (∀ j, getAurora (setRing s i x) j = getAurora s j) ∧
    (∀ j, getPin (setRing s i x) j = getPin s j) ∧ (∀ j, getBucket (setRing s i x) j = getBucket s j) ∧
    (∀ j, getCum (setRing s i x) j = getCum s j) ∧ (∀ j, getCtx (setRing s i x) j = getCtx s j) ∧
    (∀ j, getLane (setRing s i x) j = getLane s j) ∧ (∀ j, getQueue (setRing s i x) j = getQueue s j) ∧
    (∀ j, getImage (setRing s i x) j = getImage s j) ∧ (∀ j, getStaging (setRing s i x) j = getStaging s j) ∧
    (∀ j, getPll (setRing s i x) j = getPll s j) ∧ (∀ j, getUnit (setRing s i x) j = getUnit s j) ∧
    (∀ j, getPec (setRing s i x) j = getPec s j) ∧ (∀ j, getMark (setRing s i x) j = getMark s j) ∧
    (∀ e j, getFlow (setRing s i x) e j = getFlow s e j) ∧ (∀ e j, getSite (setRing s i x) e j = getSite s e j) ∧
    (∀ q, getPort (setRing s i x) q = getPort s q) ∧ (∀ c, regGet (setRing s i x) c = regGet s c) := by
  and_intros <;> intros <;> rfl

@[simp] theorem setBucket_reads (s : State) (i : Nat) (x : Bucket) :
    (∀ j, getDom (setBucket s i x) j = getDom s j) ∧ (∀ j, getVirga (setBucket s i x) j = getVirga s j) ∧
    (∀ j, getSquall (setBucket s i x) j = getSquall s j) ∧ (∀ j, getAurora (setBucket s i x) j = getAurora s j) ∧
    (∀ j, getPin (setBucket s i x) j = getPin s j) ∧ (∀ j, getRing (setBucket s i x) j = getRing s j) ∧
    (∀ j, getCum (setBucket s i x) j = getCum s j) ∧ (∀ j, getCtx (setBucket s i x) j = getCtx s j) ∧
    (∀ j, getLane (setBucket s i x) j = getLane s j) ∧ (∀ j, getQueue (setBucket s i x) j = getQueue s j) ∧
    (∀ j, getImage (setBucket s i x) j = getImage s j) ∧ (∀ j, getStaging (setBucket s i x) j = getStaging s j) ∧
    (∀ j, getPll (setBucket s i x) j = getPll s j) ∧ (∀ j, getUnit (setBucket s i x) j = getUnit s j) ∧
    (∀ j, getPec (setBucket s i x) j = getPec s j) ∧ (∀ j, getMark (setBucket s i x) j = getMark s j) ∧
    (∀ e j, getFlow (setBucket s i x) e j = getFlow s e j) ∧ (∀ e j, getSite (setBucket s i x) e j = getSite s e j) ∧
    (∀ q, getPort (setBucket s i x) q = getPort s q) ∧ (∀ c, regGet (setBucket s i x) c = regGet s c) := by
  and_intros <;> intros <;> rfl

@[simp] theorem setCum_reads (s : State) (i : Nat) (x : Cum) :
    (∀ j, getDom (setCum s i x) j = getDom s j) ∧ (∀ j, getVirga (setCum s i x) j = getVirga s j) ∧
    (∀ j, getSquall (setCum s i x) j = getSquall s j) ∧ (∀ j, getAurora (setCum s i x) j = getAurora s j) ∧
    (∀ j, getPin (setCum s i x) j = getPin s j) ∧ (∀ j, getRing (setCum s i x) j = getRing s j) ∧
    (∀ j, getBucket (setCum s i x) j = getBucket s j) ∧ (∀ j, getCtx (setCum s i x) j = getCtx s j) ∧
    (∀ j, getLane (setCum s i x) j = getLane s j) ∧ (∀ j, getQueue (setCum s i x) j = getQueue s j) ∧
    (∀ j, getImage (setCum s i x) j = getImage s j) ∧ (∀ j, getStaging (setCum s i x) j = getStaging s j) ∧
    (∀ j, getPll (setCum s i x) j = getPll s j) ∧ (∀ j, getUnit (setCum s i x) j = getUnit s j) ∧
    (∀ j, getPec (setCum s i x) j = getPec s j) ∧ (∀ j, getMark (setCum s i x) j = getMark s j) ∧
    (∀ e j, getFlow (setCum s i x) e j = getFlow s e j) ∧ (∀ e j, getSite (setCum s i x) e j = getSite s e j) ∧
    (∀ q, getPort (setCum s i x) q = getPort s q) ∧ (∀ c, regGet (setCum s i x) c = regGet s c) := by
  and_intros <;> intros <;> rfl

@[simp] theorem setCtx_reads (s : State) (i : Nat) (x : Ctx) :
    (∀ j, getDom (setCtx s i x) j = getDom s j) ∧ (∀ j, getVirga (setCtx s i x) j = getVirga s j) ∧
    (∀ j, getSquall (setCtx s i x) j = getSquall s j) ∧ (∀ j, getAurora (setCtx s i x) j = getAurora s j) ∧
    (∀ j, getPin (setCtx s i x) j = getPin s j) ∧ (∀ j, getRing (setCtx s i x) j = getRing s j) ∧
    (∀ j, getBucket (setCtx s i x) j = getBucket s j) ∧ (∀ j, getCum (setCtx s i x) j = getCum s j) ∧
    (∀ j, getLane (setCtx s i x) j = getLane s j) ∧ (∀ j, getQueue (setCtx s i x) j = getQueue s j) ∧
    (∀ j, getImage (setCtx s i x) j = getImage s j) ∧ (∀ j, getStaging (setCtx s i x) j = getStaging s j) ∧
    (∀ j, getPll (setCtx s i x) j = getPll s j) ∧ (∀ j, getUnit (setCtx s i x) j = getUnit s j) ∧
    (∀ j, getPec (setCtx s i x) j = getPec s j) ∧ (∀ j, getMark (setCtx s i x) j = getMark s j) ∧
    (∀ e j, getFlow (setCtx s i x) e j = getFlow s e j) ∧ (∀ e j, getSite (setCtx s i x) e j = getSite s e j) ∧
    (∀ q, getPort (setCtx s i x) q = getPort s q) ∧ (∀ c, regGet (setCtx s i x) c = regGet s c) := by
  and_intros <;> intros <;> rfl

@[simp] theorem setLane_reads (s : State) (i : Nat) (x : Lane) :
    (∀ j, getDom (setLane s i x) j = getDom s j) ∧ (∀ j, getVirga (setLane s i x) j = getVirga s j) ∧
    (∀ j, getSquall (setLane s i x) j = getSquall s j) ∧ (∀ j, getAurora (setLane s i x) j = getAurora s j) ∧
    (∀ j, getPin (setLane s i x) j = getPin s j) ∧ (∀ j, getRing (setLane s i x) j = getRing s j) ∧
    (∀ j, getBucket (setLane s i x) j = getBucket s j) ∧ (∀ j, getCum (setLane s i x) j = getCum s j) ∧
    (∀ j, getCtx (setLane s i x) j = getCtx s j) ∧ (∀ j, getQueue (setLane s i x) j = getQueue s j) ∧
    (∀ j, getImage (setLane s i x) j = getImage s j) ∧ (∀ j, getStaging (setLane s i x) j = getStaging s j) ∧
    (∀ j, getPll (setLane s i x) j = getPll s j) ∧ (∀ j, getUnit (setLane s i x) j = getUnit s j) ∧
    (∀ j, getPec (setLane s i x) j = getPec s j) ∧ (∀ j, getMark (setLane s i x) j = getMark s j) ∧
    (∀ e j, getFlow (setLane s i x) e j = getFlow s e j) ∧ (∀ e j, getSite (setLane s i x) e j = getSite s e j) ∧
    (∀ q, getPort (setLane s i x) q = getPort s q) ∧ (∀ c, regGet (setLane s i x) c = regGet s c) := by
  and_intros <;> intros <;> rfl

@[simp] theorem setQueue_reads (s : State) (i : Nat) (x : Queue) :
    (∀ j, getDom (setQueue s i x) j = getDom s j) ∧ (∀ j, getVirga (setQueue s i x) j = getVirga s j) ∧
    (∀ j, getSquall (setQueue s i x) j = getSquall s j) ∧ (∀ j, getAurora (setQueue s i x) j = getAurora s j) ∧
    (∀ j, getPin (setQueue s i x) j = getPin s j) ∧ (∀ j, getRing (setQueue s i x) j = getRing s j) ∧
    (∀ j, getBucket (setQueue s i x) j = getBucket s j) ∧ (∀ j, getCum (setQueue s i x) j = getCum s j) ∧
    (∀ j, getCtx (setQueue s i x) j = getCtx s j) ∧ (∀ j, getLane (setQueue s i x) j = getLane s j) ∧
    (∀ j, getImage (setQueue s i x) j = getImage s j) ∧ (∀ j, getStaging (setQueue s i x) j = getStaging s j) ∧
    (∀ j, getPll (setQueue s i x) j = getPll s j) ∧ (∀ j, getUnit (setQueue s i x) j = getUnit s j) ∧
    (∀ j, getPec (setQueue s i x) j = getPec s j) ∧ (∀ j, getMark (setQueue s i x) j = getMark s j) ∧
    (∀ e j, getFlow (setQueue s i x) e j = getFlow s e j) ∧ (∀ e j, getSite (setQueue s i x) e j = getSite s e j) ∧
    (∀ q, getPort (setQueue s i x) q = getPort s q) ∧ (∀ c, regGet (setQueue s i x) c = regGet s c) := by
  and_intros <;> intros <;> rfl

@[simp] theorem setImage_reads (s : State) (i : Nat) (x : Image) :
    (∀ j, getDom (setImage s i x) j = getDom s j) ∧ (∀ j, getVirga (setImage s i x) j = getVirga s j) ∧
    (∀ j, getSquall (setImage s i x) j = getSquall s j) ∧ (∀ j, getAurora (setImage s i x) j = getAurora s j) ∧
    (∀ j, getPin (setImage s i x) j = getPin s j) ∧ (∀ j, getRing (setImage s i x) j = getRing s j) ∧
    (∀ j, getBucket (setImage s i x) j = getBucket s j) ∧ (∀ j, getCum (setImage s i x) j = getCum s j) ∧
    (∀ j, getCtx (setImage s i x) j = getCtx s j) ∧ (∀ j, getLane (setImage s i x) j = getLane s j) ∧
    (∀ j, getQueue (setImage s i x) j = getQueue s j) ∧ (∀ j, getStaging (setImage s i x) j = getStaging s j) ∧
    (∀ j, getPll (setImage s i x) j = getPll s j) ∧ (∀ j, getUnit (setImage s i x) j = getUnit s j) ∧
    (∀ j, getPec (setImage s i x) j = getPec s j) ∧ (∀ j, getMark (setImage s i x) j = getMark s j) ∧
    (∀ e j, getFlow (setImage s i x) e j = getFlow s e j) ∧ (∀ e j, getSite (setImage s i x) e j = getSite s e j) ∧
    (∀ q, getPort (setImage s i x) q = getPort s q) ∧ (∀ c, regGet (setImage s i x) c = regGet s c) := by
  and_intros <;> intros <;> rfl

@[simp] theorem setStaging_reads (s : State) (i : Nat) (x : Staging) :
    (∀ j, getDom (setStaging s i x) j = getDom s j) ∧ (∀ j, getVirga (setStaging s i x) j = getVirga s j) ∧
    (∀ j, getSquall (setStaging s i x) j = getSquall s j) ∧ (∀ j, getAurora (setStaging s i x) j = getAurora s j) ∧
    (∀ j, getPin (setStaging s i x) j = getPin s j) ∧ (∀ j, getRing (setStaging s i x) j = getRing s j) ∧
    (∀ j, getBucket (setStaging s i x) j = getBucket s j) ∧ (∀ j, getCum (setStaging s i x) j = getCum s j) ∧
    (∀ j, getCtx (setStaging s i x) j = getCtx s j) ∧ (∀ j, getLane (setStaging s i x) j = getLane s j) ∧
    (∀ j, getQueue (setStaging s i x) j = getQueue s j) ∧ (∀ j, getImage (setStaging s i x) j = getImage s j) ∧
    (∀ j, getPll (setStaging s i x) j = getPll s j) ∧ (∀ j, getUnit (setStaging s i x) j = getUnit s j) ∧
    (∀ j, getPec (setStaging s i x) j = getPec s j) ∧ (∀ j, getMark (setStaging s i x) j = getMark s j) ∧
    (∀ e j, getFlow (setStaging s i x) e j = getFlow s e j) ∧ (∀ e j, getSite (setStaging s i x) e j = getSite s e j) ∧
    (∀ q, getPort (setStaging s i x) q = getPort s q) ∧ (∀ c, regGet (setStaging s i x) c = regGet s c) := by
  and_intros <;> intros <;> rfl

@[simp] theorem setPll_reads (s : State) (i : Nat) (x : Pll) :
    (∀ j, getDom (setPll s i x) j = getDom s j) ∧ (∀ j, getVirga (setPll s i x) j = getVirga s j) ∧
    (∀ j, getSquall (setPll s i x) j = getSquall s j) ∧ (∀ j, getAurora (setPll s i x) j = getAurora s j) ∧
    (∀ j, getPin (setPll s i x) j = getPin s j) ∧ (∀ j, getRing (setPll s i x) j = getRing s j) ∧
    (∀ j, getBucket (setPll s i x) j = getBucket s j) ∧ (∀ j, getCum (setPll s i x) j = getCum s j) ∧
    (∀ j, getCtx (setPll s i x) j = getCtx s j) ∧ (∀ j, getLane (setPll s i x) j = getLane s j) ∧
    (∀ j, getQueue (setPll s i x) j = getQueue s j) ∧ (∀ j, getImage (setPll s i x) j = getImage s j) ∧
    (∀ j, getStaging (setPll s i x) j = getStaging s j) ∧ (∀ j, getUnit (setPll s i x) j = getUnit s j) ∧
    (∀ j, getPec (setPll s i x) j = getPec s j) ∧ (∀ j, getMark (setPll s i x) j = getMark s j) ∧
    (∀ e j, getFlow (setPll s i x) e j = getFlow s e j) ∧ (∀ e j, getSite (setPll s i x) e j = getSite s e j) ∧
    (∀ q, getPort (setPll s i x) q = getPort s q) ∧ (∀ c, regGet (setPll s i x) c = regGet s c) := by
  and_intros <;> intros <;> rfl

@[simp] theorem setUnit_reads (s : State) (i : Nat) (x : PowUnit) :
    (∀ j, getDom (setUnit s i x) j = getDom s j) ∧ (∀ j, getVirga (setUnit s i x) j = getVirga s j) ∧
    (∀ j, getSquall (setUnit s i x) j = getSquall s j) ∧ (∀ j, getAurora (setUnit s i x) j = getAurora s j) ∧
    (∀ j, getPin (setUnit s i x) j = getPin s j) ∧ (∀ j, getRing (setUnit s i x) j = getRing s j) ∧
    (∀ j, getBucket (setUnit s i x) j = getBucket s j) ∧ (∀ j, getCum (setUnit s i x) j = getCum s j) ∧
    (∀ j, getCtx (setUnit s i x) j = getCtx s j) ∧ (∀ j, getLane (setUnit s i x) j = getLane s j) ∧
    (∀ j, getQueue (setUnit s i x) j = getQueue s j) ∧ (∀ j, getImage (setUnit s i x) j = getImage s j) ∧
    (∀ j, getStaging (setUnit s i x) j = getStaging s j) ∧ (∀ j, getPll (setUnit s i x) j = getPll s j) ∧
    (∀ j, getPec (setUnit s i x) j = getPec s j) ∧ (∀ j, getMark (setUnit s i x) j = getMark s j) ∧
    (∀ e j, getFlow (setUnit s i x) e j = getFlow s e j) ∧ (∀ e j, getSite (setUnit s i x) e j = getSite s e j) ∧
    (∀ q, getPort (setUnit s i x) q = getPort s q) ∧ (∀ c, regGet (setUnit s i x) c = regGet s c) := by
  and_intros <;> intros <;> rfl

@[simp] theorem setPec_reads (s : State) (i : Nat) (x : Pec) :
    (∀ j, getDom (setPec s i x) j = getDom s j) ∧ (∀ j, getVirga (setPec s i x) j = getVirga s j) ∧
    (∀ j, getSquall (setPec s i x) j = getSquall s j) ∧ (∀ j, getAurora (setPec s i x) j = getAurora s j) ∧
    (∀ j, getPin (setPec s i x) j = getPin s j) ∧ (∀ j, getRing (setPec s i x) j = getRing s j) ∧
    (∀ j, getBucket (setPec s i x) j = getBucket s j) ∧ (∀ j, getCum (setPec s i x) j = getCum s j) ∧
    (∀ j, getCtx (setPec s i x) j = getCtx s j) ∧ (∀ j, getLane (setPec s i x) j = getLane s j) ∧
    (∀ j, getQueue (setPec s i x) j = getQueue s j) ∧ (∀ j, getImage (setPec s i x) j = getImage s j) ∧
    (∀ j, getStaging (setPec s i x) j = getStaging s j) ∧ (∀ j, getPll (setPec s i x) j = getPll s j) ∧
    (∀ j, getUnit (setPec s i x) j = getUnit s j) ∧ (∀ j, getMark (setPec s i x) j = getMark s j) ∧
    (∀ e j, getFlow (setPec s i x) e j = getFlow s e j) ∧ (∀ e j, getSite (setPec s i x) e j = getSite s e j) ∧
    (∀ q, getPort (setPec s i x) q = getPort s q) ∧ (∀ c, regGet (setPec s i x) c = regGet s c) := by
  and_intros <;> intros <;> rfl

@[simp] theorem setMark_reads (s : State) (i : Nat) (x : MarkOut) :
    (∀ j, getDom (setMark s i x) j = getDom s j) ∧ (∀ j, getVirga (setMark s i x) j = getVirga s j) ∧
    (∀ j, getSquall (setMark s i x) j = getSquall s j) ∧ (∀ j, getAurora (setMark s i x) j = getAurora s j) ∧
    (∀ j, getPin (setMark s i x) j = getPin s j) ∧ (∀ j, getRing (setMark s i x) j = getRing s j) ∧
    (∀ j, getBucket (setMark s i x) j = getBucket s j) ∧ (∀ j, getCum (setMark s i x) j = getCum s j) ∧
    (∀ j, getCtx (setMark s i x) j = getCtx s j) ∧ (∀ j, getLane (setMark s i x) j = getLane s j) ∧
    (∀ j, getQueue (setMark s i x) j = getQueue s j) ∧ (∀ j, getImage (setMark s i x) j = getImage s j) ∧
    (∀ j, getStaging (setMark s i x) j = getStaging s j) ∧ (∀ j, getPll (setMark s i x) j = getPll s j) ∧
    (∀ j, getUnit (setMark s i x) j = getUnit s j) ∧ (∀ j, getPec (setMark s i x) j = getPec s j) ∧
    (∀ e j, getFlow (setMark s i x) e j = getFlow s e j) ∧ (∀ e j, getSite (setMark s i x) e j = getSite s e j) ∧
    (∀ q, getPort (setMark s i x) q = getPort s q) ∧ (∀ c, regGet (setMark s i x) c = regGet s c) := by
  and_intros <;> intros <;> rfl

@[simp] theorem setFlow_reads (s : State) (d k : Nat) (x : Flow) :
    (∀ j, getDom (setFlow s d k x) j = getDom s j) ∧ (∀ j, getVirga (setFlow s d k x) j = getVirga s j) ∧
    (∀ j, getSquall (setFlow s d k x) j = getSquall s j) ∧ (∀ j, getAurora (setFlow s d k x) j = getAurora s j) ∧
    (∀ j, getPin (setFlow s d k x) j = getPin s j) ∧ (∀ j, getRing (setFlow s d k x) j = getRing s j) ∧
    (∀ j, getBucket (setFlow s d k x) j = getBucket s j) ∧ (∀ j, getCum (setFlow s d k x) j = getCum s j) ∧
    (∀ j, getCtx (setFlow s d k x) j = getCtx s j) ∧ (∀ j, getLane (setFlow s d k x) j = getLane s j) ∧
    (∀ j, getQueue (setFlow s d k x) j = getQueue s j) ∧ (∀ j, getImage (setFlow s d k x) j = getImage s j) ∧
    (∀ j, getStaging (setFlow s d k x) j = getStaging s j) ∧ (∀ j, getPll (setFlow s d k x) j = getPll s j) ∧
    (∀ j, getUnit (setFlow s d k x) j = getUnit s j) ∧ (∀ j, getPec (setFlow s d k x) j = getPec s j) ∧
    (∀ j, getMark (setFlow s d k x) j = getMark s j) ∧ (∀ e j, getSite (setFlow s d k x) e j = getSite s e j) ∧
    (∀ q, getPort (setFlow s d k x) q = getPort s q) ∧ (∀ c, regGet (setFlow s d k x) c = regGet s c) := by
  and_intros <;> intros <;> rfl

@[simp] theorem setSite_reads (s : State) (d k : Nat) (x : Site) :
    (∀ j, getDom (setSite s d k x) j = getDom s j) ∧ (∀ j, getVirga (setSite s d k x) j = getVirga s j) ∧
    (∀ j, getSquall (setSite s d k x) j = getSquall s j) ∧ (∀ j, getAurora (setSite s d k x) j = getAurora s j) ∧
    (∀ j, getPin (setSite s d k x) j = getPin s j) ∧ (∀ j, getRing (setSite s d k x) j = getRing s j) ∧
    (∀ j, getBucket (setSite s d k x) j = getBucket s j) ∧ (∀ j, getCum (setSite s d k x) j = getCum s j) ∧
    (∀ j, getCtx (setSite s d k x) j = getCtx s j) ∧ (∀ j, getLane (setSite s d k x) j = getLane s j) ∧
    (∀ j, getQueue (setSite s d k x) j = getQueue s j) ∧ (∀ j, getImage (setSite s d k x) j = getImage s j) ∧
    (∀ j, getStaging (setSite s d k x) j = getStaging s j) ∧ (∀ j, getPll (setSite s d k x) j = getPll s j) ∧
    (∀ j, getUnit (setSite s d k x) j = getUnit s j) ∧ (∀ j, getPec (setSite s d k x) j = getPec s j) ∧
    (∀ j, getMark (setSite s d k x) j = getMark s j) ∧ (∀ e j, getFlow (setSite s d k x) e j = getFlow s e j) ∧
    (∀ q, getPort (setSite s d k x) q = getPort s q) ∧ (∀ c, regGet (setSite s d k x) c = regGet s c) := by
  and_intros <;> intros <;> rfl

@[simp] theorem setPort_reads (s : State) (p : Port) (x : PortSt) :
    (∀ j, getDom (setPort s p x) j = getDom s j) ∧ (∀ j, getVirga (setPort s p x) j = getVirga s j) ∧
    (∀ j, getSquall (setPort s p x) j = getSquall s j) ∧ (∀ j, getAurora (setPort s p x) j = getAurora s j) ∧
    (∀ j, getPin (setPort s p x) j = getPin s j) ∧ (∀ j, getRing (setPort s p x) j = getRing s j) ∧
    (∀ j, getBucket (setPort s p x) j = getBucket s j) ∧ (∀ j, getCum (setPort s p x) j = getCum s j) ∧
    (∀ j, getCtx (setPort s p x) j = getCtx s j) ∧ (∀ j, getLane (setPort s p x) j = getLane s j) ∧
    (∀ j, getQueue (setPort s p x) j = getQueue s j) ∧ (∀ j, getImage (setPort s p x) j = getImage s j) ∧
    (∀ j, getStaging (setPort s p x) j = getStaging s j) ∧ (∀ j, getPll (setPort s p x) j = getPll s j) ∧
    (∀ j, getUnit (setPort s p x) j = getUnit s j) ∧ (∀ j, getPec (setPort s p x) j = getPec s j) ∧
    (∀ j, getMark (setPort s p x) j = getMark s j) ∧ (∀ e j, getFlow (setPort s p x) e j = getFlow s e j) ∧
    (∀ e j, getSite (setPort s p x) e j = getSite s e j) ∧ (∀ c, regGet (setPort s p x) c = regGet s c) := by
  and_intros <;> intros <;> rfl

@[simp] theorem regSet_reads (s : State) (a : Nat) (v : Word) :
    (∀ j, getDom (regSet s a v) j = getDom s j) ∧ (∀ j, getVirga (regSet s a v) j = getVirga s j) ∧
    (∀ j, getSquall (regSet s a v) j = getSquall s j) ∧ (∀ j, getAurora (regSet s a v) j = getAurora s j) ∧
    (∀ j, getPin (regSet s a v) j = getPin s j) ∧ (∀ j, getRing (regSet s a v) j = getRing s j) ∧
    (∀ j, getBucket (regSet s a v) j = getBucket s j) ∧ (∀ j, getCum (regSet s a v) j = getCum s j) ∧
    (∀ j, getCtx (regSet s a v) j = getCtx s j) ∧ (∀ j, getLane (regSet s a v) j = getLane s j) ∧
    (∀ j, getQueue (regSet s a v) j = getQueue s j) ∧ (∀ j, getImage (regSet s a v) j = getImage s j) ∧
    (∀ j, getStaging (regSet s a v) j = getStaging s j) ∧ (∀ j, getPll (regSet s a v) j = getPll s j) ∧
    (∀ j, getUnit (regSet s a v) j = getUnit s j) ∧ (∀ j, getPec (regSet s a v) j = getPec s j) ∧
    (∀ j, getMark (regSet s a v) j = getMark s j) ∧ (∀ e j, getFlow (regSet s a v) e j = getFlow s e j) ∧
    (∀ e j, getSite (regSet s a v) e j = getSite s e j) ∧ (∀ q, getPort (regSet s a v) q = getPort s q) := by
  and_intros <;> intros <;> rfl

@[simp] theorem regPut_reads (s : State) (a lo w v : Nat) :
    (∀ j, getDom (regPut s a lo w v) j = getDom s j) ∧ (∀ j, getVirga (regPut s a lo w v) j = getVirga s j) ∧
    (∀ j, getSquall (regPut s a lo w v) j = getSquall s j) ∧ (∀ j, getAurora (regPut s a lo w v) j = getAurora s j) ∧
    (∀ j, getPin (regPut s a lo w v) j = getPin s j) ∧ (∀ j, getRing (regPut s a lo w v) j = getRing s j) ∧
    (∀ j, getBucket (regPut s a lo w v) j = getBucket s j) ∧ (∀ j, getCum (regPut s a lo w v) j = getCum s j) ∧
    (∀ j, getCtx (regPut s a lo w v) j = getCtx s j) ∧ (∀ j, getLane (regPut s a lo w v) j = getLane s j) ∧
    (∀ j, getQueue (regPut s a lo w v) j = getQueue s j) ∧ (∀ j, getImage (regPut s a lo w v) j = getImage s j) ∧
    (∀ j, getStaging (regPut s a lo w v) j = getStaging s j) ∧ (∀ j, getPll (regPut s a lo w v) j = getPll s j) ∧
    (∀ j, getUnit (regPut s a lo w v) j = getUnit s j) ∧ (∀ j, getPec (regPut s a lo w v) j = getPec s j) ∧
    (∀ j, getMark (regPut s a lo w v) j = getMark s j) ∧ (∀ e j, getFlow (regPut s a lo w v) e j = getFlow s e j) ∧
    (∀ e j, getSite (regPut s a lo w v) e j = getSite s e j) ∧ (∀ q, getPort (regPut s a lo w v) q = getPort s q) := by
  and_intros <;> intros <;> rfl

@[simp] theorem regBump_reads (s : State) (a lo w n : Nat) :
    (∀ j, getDom (regBump s a lo w n) j = getDom s j) ∧ (∀ j, getVirga (regBump s a lo w n) j = getVirga s j) ∧
    (∀ j, getSquall (regBump s a lo w n) j = getSquall s j) ∧ (∀ j, getAurora (regBump s a lo w n) j = getAurora s j) ∧
    (∀ j, getPin (regBump s a lo w n) j = getPin s j) ∧ (∀ j, getRing (regBump s a lo w n) j = getRing s j) ∧
    (∀ j, getBucket (regBump s a lo w n) j = getBucket s j) ∧ (∀ j, getCum (regBump s a lo w n) j = getCum s j) ∧
    (∀ j, getCtx (regBump s a lo w n) j = getCtx s j) ∧ (∀ j, getLane (regBump s a lo w n) j = getLane s j) ∧
    (∀ j, getQueue (regBump s a lo w n) j = getQueue s j) ∧ (∀ j, getImage (regBump s a lo w n) j = getImage s j) ∧
    (∀ j, getStaging (regBump s a lo w n) j = getStaging s j) ∧ (∀ j, getPll (regBump s a lo w n) j = getPll s j) ∧
    (∀ j, getUnit (regBump s a lo w n) j = getUnit s j) ∧ (∀ j, getPec (regBump s a lo w n) j = getPec s j) ∧
    (∀ j, getMark (regBump s a lo w n) j = getMark s j) ∧ (∀ e j, getFlow (regBump s a lo w n) e j = getFlow s e j) ∧
    (∀ e j, getSite (regBump s a lo w n) e j = getSite s e j) ∧ (∀ q, getPort (regBump s a lo w n) q = getPort s q) := by
  and_intros <;> intros <;> rfl

@[simp] theorem regWrap_reads (s : State) (a lo w : Nat) :
    (∀ j, getDom (regWrap s a lo w) j = getDom s j) ∧ (∀ j, getVirga (regWrap s a lo w) j = getVirga s j) ∧
    (∀ j, getSquall (regWrap s a lo w) j = getSquall s j) ∧ (∀ j, getAurora (regWrap s a lo w) j = getAurora s j) ∧
    (∀ j, getPin (regWrap s a lo w) j = getPin s j) ∧ (∀ j, getRing (regWrap s a lo w) j = getRing s j) ∧
    (∀ j, getBucket (regWrap s a lo w) j = getBucket s j) ∧ (∀ j, getCum (regWrap s a lo w) j = getCum s j) ∧
    (∀ j, getCtx (regWrap s a lo w) j = getCtx s j) ∧ (∀ j, getLane (regWrap s a lo w) j = getLane s j) ∧
    (∀ j, getQueue (regWrap s a lo w) j = getQueue s j) ∧ (∀ j, getImage (regWrap s a lo w) j = getImage s j) ∧
    (∀ j, getStaging (regWrap s a lo w) j = getStaging s j) ∧ (∀ j, getPll (regWrap s a lo w) j = getPll s j) ∧
    (∀ j, getUnit (regWrap s a lo w) j = getUnit s j) ∧ (∀ j, getPec (regWrap s a lo w) j = getPec s j) ∧
    (∀ j, getMark (regWrap s a lo w) j = getMark s j) ∧ (∀ e j, getFlow (regWrap s a lo w) e j = getFlow s e j) ∧
    (∀ e j, getSite (regWrap s a lo w) e j = getSite s e j) ∧ (∀ q, getPort (regWrap s a lo w) q = getPort s q) := by
  and_intros <;> intros <;> rfl

end Sys2Proof.Machine
end

