-- ==== Sys2Proof/Laws/Frames.lean ====
section
/-! SUPPORT. What the shared operations over registers, queues and frames do: counters, a commit that fits, a frame that its
port accepts, and a request that passes its checks. -/

namespace Sys2Proof.Machine

/-! ### Registers -/

/-- A write leaves every other index as it was, whatever an unlisted index there reads as. -/
theorem tget_tset_other {α : Type} [DecidableEq α] (d e : α) (t : Tbl α) {k j : Nat} (v : α) (h : j ≠ k) :
    tget e (tset d t k v) j = tget e t j := by
  unfold tset
  split
  · exact tget_tdel_ne t h
  · rw [tget_tins_ne _ v h, tget_tdel_ne t h]

theorem regGet_regSet_ne (s : State) {a c : Nat} (v : Word) (h : c ≠ a) : regGet (regSet s a v) c = regGet s c :=
  tget_tset_other _ _ s.regs v h

theorem regGet_regPut_ne (s : State) {a c : Nat} (lo w v : Nat) (h : c ≠ a) : regGet (regPut s a lo w v) c = regGet s c :=
  regGet_regSet_ne s _ h

theorem regGet_regBump_ne (s : State) {a c : Nat} (lo w n : Nat) (h : c ≠ a) : regGet (regBump s a lo w n) c = regGet s c :=
  regGet_regSet_ne s _ h

theorem regField_regSet_ne (s : State) {a c : Nat} (v : Word) (lo w : Nat) (h : c ≠ a) :
    regField (regSet s a v) c lo w = regField s c lo w := by
  unfold regField
  rw [regGet_regSet_ne s v h]

theorem regField_regPut_ne (s : State) {a c : Nat} (lo w v lo' w' : Nat) (h : c ≠ a) :
    regField (regPut s a lo w v) c lo' w' = regField s c lo' w' := regField_regSet_ne s _ _ _ h

theorem regField_regBump_ne (s : State) {a c : Nat} (lo w n lo' w' : Nat) (h : c ≠ a) :
    regField (regBump s a lo w n) c lo' w' = regField s c lo' w' := regField_regSet_ne s _ _ _ h

/-- A number with the digit at weight `l`, base `w`, replaced by `u`: the digit there is `u`, and the digits below stay. -/
theorem digit_replaced (n l w u : Nat) (hl : 0 < l) (hu : u < w) :
    n - n / l % w * l + u * l = l * (w * (n / l / w) + u) + n % l ∧ (n - n / l % w * l + u * l) / l % w = u := by
  have e1 : l * (n / l) + n % l = n := Nat.div_add_mod n l
  have e2 : w * (n / l / w) + n / l % w = n / l := Nat.div_add_mod (n / l) w
  have e3 : l * (n / l) = l * (w * (n / l / w)) + n / l % w * l := by
    rw [Nat.mul_comm (n / l % w) l, ← Nat.mul_add, e2]
  have key : n - n / l % w * l + u * l = l * (w * (n / l / w) + u) + n % l := by
    rw [Nat.mul_add l, Nat.mul_comm u l]; omega
  refine ⟨key, ?_⟩
  rw [key, Nat.mul_add_div hl, Nat.div_eq_of_lt (Nat.mod_lt _ hl), Nat.add_zero, Nat.mul_add_mod, Nat.mod_eq_of_lt hu]

/-- A field of a word reads as the value put there. -/
theorem putField_same (x : Word) (lo w v : Nat) (h : lo + w ≤ 32) : (putField x lo w v).toNat / 2 ^ lo % 2 ^ w = v % 2 ^ w := by
  have hl : 0 < 2 ^ lo := Nat.pow_pos (by decide)
  have hw : 0 < 2 ^ w := Nat.pow_pos (by decide)
  have hu : v % 2 ^ w < 2 ^ w := Nat.mod_lt _ hw
  obtain ⟨key, dig⟩ := digit_replaced x.toNat (2 ^ lo) (2 ^ w) (v % 2 ^ w) hl hu
  have hM : 2 ^ 32 = 2 ^ lo * (2 ^ w * 2 ^ (32 - lo - w)) := by
    rw [← Nat.pow_add, ← Nat.pow_add]; congr 1; omega
  have hc : x.toNat / 2 ^ lo / 2 ^ w < 2 ^ (32 - lo - w) := by
    rw [Nat.div_lt_iff_lt_mul hw, Nat.div_lt_iff_lt_mul hl, Nat.mul_comm, Nat.mul_comm (2 ^ (32 - lo - w)), ← hM]
    exact x.isLt
  have hlt : x.toNat - x.toNat / 2 ^ lo % 2 ^ w * 2 ^ lo + v % 2 ^ w * 2 ^ lo < 2 ^ 32 := by
    rw [key, hM]
    have hr : x.toNat % 2 ^ lo < 2 ^ lo := Nat.mod_lt _ hl
    have h2 : 2 ^ w * (x.toNat / 2 ^ lo / 2 ^ w + 1) ≤ 2 ^ w * 2 ^ (32 - lo - w) := Nat.mul_le_mul_left _ hc
    have h3 : 2 ^ w * (x.toNat / 2 ^ lo / 2 ^ w) + v % 2 ^ w + 1 ≤ 2 ^ w * 2 ^ (32 - lo - w) := by
      rw [Nat.mul_add] at h2; omega
    have h4 := Nat.mul_le_mul_left (2 ^ lo) h3
    rw [Nat.mul_add, Nat.mul_one] at h4
    omega
  unfold putField
  rw [BitVec.toNat_ofNat, Nat.mod_eq_of_lt hlt, dig]

@[simp] theorem regField_regPut (s : State) (a lo w v : Nat) (h : lo + w ≤ 32) :
    regField (regPut s a lo w v) a lo w = v % 2 ^ w := by
  unfold regField regPut
  rw [regGet_regSet]
  exact putField_same _ lo w v h

/-- A counter saturates at its last value (R7, R8). -/
theorem regField_regBump (s : State) (a lo w n : Nat) (h : lo + w ≤ 32) :
    regField (regBump s a lo w n) a lo w = min (regField s a lo w + n) (2 ^ w - 1) := by
  have hw : 0 < 2 ^ w := Nat.pow_pos (by decide)
  unfold regBump
  rw [regField_regPut _ _ _ _ _ h, Nat.mod_eq_of_lt (by omega)]

/-! ### Queues and frames -/

/-- A frame that finds no merge window open and Nimbus running, in a queue with storage and room, joins its end (R280). -/
theorem commitFrame_fits (s : State) (q ty : Nat) (flags : BitVec 16) (tag : Word) (p : Bytes) (hw : s.anvil.window = false)
    (hn : s.anvil.stopped = false) (hl : (getQueue s q).lines ≠ 0) (hf : fits (openQueue s q) p.length = true) :
    commitFrame s q ty flags tag p =
      { setQueue s q { getQueue s q with
          packets := (getQueue s q).packets ++
            [{ ty := ty, flags := flags, seq := 0, tag := tag, payload := p, popped := 0, order := s.orders }] }
        with orders := s.orders + 1 } := by
  have hn : ¬ ((s.anvil.window = true ∨ s.anvil.stopped = true) ∧ 16 ≤ q ∧ q ≤ 42) := by rw [hw, hn]; simp
  unfold commitFrame enqueue
  rw [if_neg hn]
  dsimp only
  rw [if_neg hl, if_pos hf]

/-- A commit to a host queue while the merge window is open, or Nimbus has failed, waits for FAULT_NOTICE (R394, R402, R404). -/
theorem commitFrame_deferred (s : State) (q ty : Nat) (flags : BitVec 16) (tag : Word) (p : Bytes)
    (hw : s.anvil.window = true ∨ s.anvil.stopped = true)
    (h1 : 16 ≤ q) (h2 : q ≤ 42) :
    commitFrame s q ty flags tag p = { s with anvil := { s.anvil with
      deferred := s.anvil.deferred ++ [{ ty := ty, flags := flags, seq := 0, tag := tag, payload := p, popped := 0, order := q }] } } := by
  unfold commitFrame
  rw [if_pos ⟨hw, h1, h2⟩]

/-- A reply that waits for no earlier one and finds room is the request's answer (R290, R291). -/
theorem reply_answers (s : State) (f : Frame) (status detail : Nat) (data : Bytes) (ho : s.owed = [])
    (hw : s.anvil.window = false) (hn : s.anvil.stopped = false) (hl : (getQueue s 17).lines ≠ 0)
    (hf : fits (openQueue s 17) (replyPayload f status detail data).length = true) :
    Answers s (reply s f status detail data) f status detail data := by
  unfold reply sendReply
  rw [ho]
  dsimp only
  rw [commitFrame_fits s 17 0x49 0 f.tag _ hw hn hl hf]
  exact ⟨_, congrArg Queue.packets (getQueue_setQueue s 17 _), rfl, rfl, rfl⟩

/-! ### What arriving leaves alone -/

/-- Using a unit changes nothing but the units. -/
theorem useUnit_frame (s : State) (u : Nat) : ∃ un, useUnit s u = { s with units := un } := by
  unfold useUnit
  dsimp only
  split <;> exact ⟨_, rfl⟩

/-- The core in use changes nothing but units and PLLs. -/
theorem useCore_frame (s : State) : ∃ un pl, useCore s = { s with units := un, plls := pl } := by
  unfold useCore
  dsimp only
  split
  · split <;> exact ⟨_, _, rfl⟩
  · obtain ⟨un, e⟩ := useUnit_frame s 21
    exact ⟨un, s.plls, e⟩

/-- A frame's use of its port changes nothing but ports, units and PLLs. -/
theorem touchPort_frame (s : State) (p : Port) : ∃ po un pl, touchPort s p = { s with ports := po, units := un, plls := pl } := by
  unfold touchPort
  obtain ⟨u1, e1⟩ := useUnit_frame (setPort s p { getPort s p with lastUse := s.now }) (16 + portIx p)
  obtain ⟨u2, pl, e2⟩ := useCore_frame (useUnit (setPort s p { getPort s p with lastUse := s.now }) (16 + portIx p))
  exact ⟨_, u2, pl, by rw [e2, e1]; rfl⟩

/-- Accepting a frame changes nothing but registers, ports, power units, PLLs and queues. -/
theorem acceptFrame_frame (s : State) (f : Frame) :
    ∃ re po un pl qu, acceptFrame s f = { s with regs := re, ports := po, units := un, plls := pl, queues := qu } := by
  unfold acceptFrame useLines
  obtain ⟨po, un, pl, e⟩ := touchPort_frame (regBump s (Reg.jetPortRxf (portIx f.port)) 0 32 1) f.port
  simp only [e]
  split <;> exact ⟨_, _, _, _, _, rfl⟩

/-- Freeing a frame's lines changes nothing but queues, and in no queue a packet or its lines. -/
theorem freeLines_frame (s : State) (f : Frame) : ∃ qu, freeLines s f = { s with queues := qu } := by
  unfold freeLines
  dsimp only
  split <;> exact ⟨_, rfl⟩

@[simp] theorem acceptFrame_boot (s : State) (f : Frame) : (acceptFrame s f).boot = s.boot := by
  obtain ⟨re, po, un, pl, qu, e⟩ := acceptFrame_frame s f
  rw [e]

@[simp] theorem acceptFrame_anvil (s : State) (f : Frame) : (acceptFrame s f).anvil = s.anvil := by
  obtain ⟨re, po, un, pl, qu, e⟩ := acceptFrame_frame s f
  rw [e]

@[simp] theorem acceptFrame_pending (s : State) (f : Frame) : (acceptFrame s f).pending = s.pending := by
  obtain ⟨re, po, un, pl, qu, e⟩ := acceptFrame_frame s f
  rw [e]

@[simp] theorem freeLines_boot (s : State) (f : Frame) : (freeLines s f).boot = s.boot := by
  obtain ⟨qu, e⟩ := freeLines_frame s f
  rw [e]

@[simp] theorem freeLines_anvil (s : State) (f : Frame) : (freeLines s f).anvil = s.anvil := by
  obtain ⟨qu, e⟩ := freeLines_frame s f
  rw [e]

@[simp] theorem freeLines_pending (s : State) (f : Frame) : (freeLines s f).pending = s.pending := by
  obtain ⟨qu, e⟩ := freeLines_frame s f
  rw [e]

theorem freeLines_packets (s : State) (f : Frame) (q : Nat) :
    (getQueue (freeLines s f) q).packets = (getQueue s q).packets ∧ (getQueue (freeLines s f) q).lines = (getQueue s q).lines := by
  unfold freeLines
  split
  · by_cases h : q = inQueue f
    · subst h; dsimp only; rw [getQueue_setQueue]; exact ⟨rfl, rfl⟩
    · dsimp only; rw [getQueue_setQueue_ne s _ h]; exact ⟨rfl, rfl⟩
  · exact ⟨rfl, rfl⟩

@[simp] theorem acceptFrame_inbox (s : State) (f : Frame) : (acceptFrame s f).inbox = s.inbox := by
  obtain ⟨re, po, un, pl, qu, e⟩ := acceptFrame_frame s f
  rw [e]

/-- Accepting a frame leaves the consumer of every queue as it was. -/
theorem acceptFrame_jtag (s : State) (f : Frame) (q : Nat) : (getQueue (acceptFrame s f) q).jtag = (getQueue s q).jtag := by
  unfold acceptFrame useLines
  obtain ⟨po, un, pl, e⟩ := touchPort_frame (regBump s (Reg.jetPortRxf (portIx f.port)) 0 32 1) f.port
  simp only [e]
  split
  · by_cases h : q = inQueue f
    · subst h; rw [getQueue_setQueue]; rfl
    · rw [getQueue_setQueue_ne _ _ h]; rfl
  · rfl

theorem nimbusStopped_acceptFrame (s : State) (f : Frame) (q : Nat) :
    nimbusStopped (acceptFrame s f) q = nimbusStopped s q := by
  unfold nimbusStopped recoverWaits
  rw [acceptFrame_boot, acceptFrame_jtag, acceptFrame_anvil, acceptFrame_inbox]

/-! ### Frames and requests -/

/-- A frame that its port accepts, and that Nimbus takes at once, is handled (R278, R281). -/
theorem onFrame_arrives (s : State) (f : Frame) (ty : Nat) (k : State → State) (h : Arrives s f ty) :
    onFrame s f ty k = k (acceptFrame s f) := by
  obtain ⟨ht, hp, hd, hn, hi⟩ := h
  unfold onFrame arrive toNimbus
  simp [ht, hp, hd, hn, hi, nimbusStopped_acceptFrame, acceptFrame_inbox]

/-- A frame of another type that its port accepts, or on a port that is not Up, has no effect (R265). -/
theorem onFrame_other (s : State) (f : Frame) (ty : Nat) (k : State → State)
    (h : (getPort s f.port).state ≠ .up ∨ (discardReason s f = 0 ∧ f.ty ≠ ty)) : onFrame s f ty k = s := by
  unfold onFrame arrive
  rcases h with h | ⟨h, h'⟩ <;> simp [*]

/-- A request without a fault is handled by a device that no boot-halt stops (R290, R426). -/
theorem request_runs (s : State) (f : Frame) (haltOk : Bool) (cs : List Check) (k : State → State)
    (hb : s.boot.state ≠ 2 ∨ haltOk = true) (hc : firstFault cs = none) : request s f haltOk cs k = k (freeLines s f) := by
  unfold request
  rcases hb with hb | hb <;> simp [hb, hc]

/-- A malformed request is answered with status 0x01 and the offset of its first faulty field (R290). -/
theorem request_malformed (s : State) (f : Frame) (haltOk : Bool) (cs : List Check) (k : State → State) (off : Nat)
    (hb : s.boot.state ≠ 2 ∨ haltOk = true) (hc : firstFault cs = some off) :
    request s f haltOk cs k = reply (freeLines s f) f 1 off [] := by
  unfold request
  rcases hb with hb | hb <;> simp [hb, hc]

/-- In boot-halt a request that is not among those of R426 is answered with status 0x06. -/
theorem request_halted (s : State) (f : Frame) (cs : List Check) (k : State → State) (hb : s.boot.state = 2) :
    request s f false cs k = reply (freeLines s f) f 6 0 [] := by
  unfold request
  simp [hb]

/-- A request of another op of its type is not this command. -/
theorem onOp_other (s : State) (f : Frame) (ty : Nat) (others : List Nat) (k : State → State)
    (hp : f.payload ≠ []) (ho : others.contains (fld f.payload 0 1) = true) : onOp s f ty others k = s := by
  unfold onOp
  rw [if_pos ⟨hp, ho⟩]

/-- A request of its own op is a frame of its type. -/
theorem onOp_own (s : State) (f : Frame) (ty : Nat) (others : List Nat) (k : State → State)
    (ho : others.contains (fld f.payload 0 1) = false) : onOp s f ty others k = onFrame s f ty k := by
  unfold onOp
  rw [if_neg (fun h => by rw [ho] at h; exact Bool.noConfusion h.2)]

end Sys2Proof.Machine
end

