-- ==== Sys2Proof/Laws/Keeps.lean ====
section
/-! SUPPORT. What the operations of the chapters leave alone: the waiting commands, the cancel memo, Zenith, JTAG and the raw
DRAM, one lemma per operation. -/

namespace Sys2Proof.Machine

@[simp] theorem foldl_pending {α : Type} (f : State → α → State) (l : List α) (s : State) (h : ∀ s a, (f s a).pending = s.pending) :
    (l.foldl f s).pending = s.pending := by
  induction l generalizing s with
  | nil => rfl
  | cons a r ih => rw [List.foldl_cons, ih, h]

@[simp] theorem foldl_memo {α : Type} (f : State → α → State) (l : List α) (s : State) (h : ∀ s a, (f s a).memo = s.memo) :
    (l.foldl f s).memo = s.memo := by
  induction l generalizing s with
  | nil => rfl
  | cons a r ih => rw [List.foldl_cons, ih, h]

@[simp] theorem foldl_zenith {α : Type} (f : State → α → State) (l : List α) (s : State) (h : ∀ s a, (f s a).zenith = s.zenith) :
    (l.foldl f s).zenith = s.zenith := by
  induction l generalizing s with
  | nil => rfl
  | cons a r ih => rw [List.foldl_cons, ih, h]

@[simp] theorem foldl_jtag {α : Type} (f : State → α → State) (l : List α) (s : State) (h : ∀ s a, (f s a).jtag = s.jtag) :
    (l.foldl f s).jtag = s.jtag := by
  induction l generalizing s with
  | nil => rfl
  | cons a r ih => rw [List.foldl_cons, ih, h]

@[simp] theorem foldl_cells {α : Type} (f : State → α → State) (l : List α) (s : State) (h : ∀ s a, (f s a).dram.cells = s.dram.cells) :
    (l.foldl f s).dram.cells = s.dram.cells := by
  induction l generalizing s with
  | nil => rfl
  | cons a r ih => rw [List.foldl_cons, ih, h]

@[simp] theorem ite_pending (c : Prop) [Decidable c] (s t : State) : (if c then s else t).pending = if c then s.pending else t.pending := by split <;> rfl

@[simp] theorem ite_memo (c : Prop) [Decidable c] (s t : State) : (if c then s else t).memo = if c then s.memo else t.memo := by split <;> rfl

@[simp] theorem ite_zenith (c : Prop) [Decidable c] (s t : State) : (if c then s else t).zenith = if c then s.zenith else t.zenith := by split <;> rfl

@[simp] theorem ite_jtag (c : Prop) [Decidable c] (s t : State) : (if c then s else t).jtag = if c then s.jtag else t.jtag := by split <;> rfl

@[simp] theorem ite_cells (c : Prop) [Decidable c] (s t : State) : (if c then s else t).dram.cells = if c then s.dram.cells else t.dram.cells := by split <;> rfl

@[simp] theorem endJobAt_keeps (s : State) (d : Nat) (c : Nat) (e : Ending) (src : Nat) :
    (endJobAt s d c e src).pending = s.pending ∧
      (endJobAt s d c e src).memo = s.memo ∧
      (endJobAt s d c e src).zenith = s.zenith ∧
      (endJobAt s d c e src).jtag = s.jtag ∧
      (endJobAt s d c e src).dram.cells = s.dram.cells := by simp [endJobAt]

@[simp] theorem endJob_keeps (s : State) (d : Nat) (e : Ending) :
    (endJob s d e).pending = s.pending ∧
      (endJob s d e).memo = s.memo ∧
      (endJob s d e).zenith = s.zenith ∧
      (endJob s d e).jtag = s.jtag ∧
      (endJob s d e).dram.cells = s.dram.cells := by simp [endJob]

@[simp] theorem settle_keeps (s : State) (d : Nat) :
    (settle s d).pending = s.pending ∧
      (settle s d).memo = s.memo ∧
      (settle s d).zenith = s.zenith ∧
      (settle s d).jtag = s.jtag ∧
      (settle s d).dram.cells = s.dram.cells := by simp [settle]

@[simp] theorem leaveBarr_keeps (s : State) (d : Nat) (k : Nat) (A : Nat) :
    (leaveBarr s d k A).pending = s.pending ∧
      (leaveBarr s d k A).memo = s.memo ∧
      (leaveBarr s d k A).zenith = s.zenith ∧
      (leaveBarr s d k A).jtag = s.jtag ∧
      (leaveBarr s d k A).dram.cells = s.dram.cells := by
  unfold leaveBarr
  dsimp only
  repeat' split
  all_goals simp

@[simp] theorem releaseBarr_keeps (s : State) (d : Nat) :
    (releaseBarr s d).pending = s.pending ∧
      (releaseBarr s d).memo = s.memo ∧
      (releaseBarr s d).zenith = s.zenith ∧
      (releaseBarr s d).jtag = s.jtag ∧
      (releaseBarr s d).dram.cells = s.dram.cells := by
  unfold releaseBarr
  dsimp only
  repeat' split
  all_goals simp

@[simp] theorem refreshCums_keeps (s : State) (d : Nat) :
    (refreshCums s d).pending = s.pending ∧
      (refreshCums s d).memo = s.memo ∧
      (refreshCums s d).zenith = s.zenith ∧
      (refreshCums s d).jtag = s.jtag ∧
      (refreshCums s d).dram.cells = s.dram.cells := by simp [refreshCums]

@[simp] theorem takeEvent_keeps (s : State) (d : Nat) (k : Nat) (cancel : Bool) :
    (takeEvent s d k cancel).pending = s.pending ∧
      (takeEvent s d k cancel).memo = s.memo ∧
      (takeEvent s d k cancel).zenith = s.zenith ∧
      (takeEvent s d k cancel).jtag = s.jtag ∧
      (takeEvent s d k cancel).dram.cells = s.dram.cells := by simp [takeEvent]

@[simp] theorem takeEvents_keeps (s : State) (d : Nat) (fi : Nat) :
    (takeEvents s d fi).pending = s.pending ∧
      (takeEvents s d fi).memo = s.memo ∧
      (takeEvents s d fi).zenith = s.zenith ∧
      (takeEvents s d fi).jtag = s.jtag ∧
      (takeEvents s d fi).dram.cells = s.dram.cells := by
  unfold takeEvents
  dsimp only
  repeat' split
  all_goals simp

@[simp] theorem barrierEvents_keeps (s : State) (d : Nat) :
    (barrierEvents s d).pending = s.pending ∧
      (barrierEvents s d).memo = s.memo ∧
      (barrierEvents s d).zenith = s.zenith ∧
      (barrierEvents s d).jtag = s.jtag ∧
      (barrierEvents s d).dram.cells = s.dram.cells := by simp [barrierEvents]

@[simp] theorem playApg_keeps (s : State) (d : Nat) (fi : Nat) (f : Flow) (e : Emit) (banks : Nat) (vcount : Nat) :
    (playApg s d fi f e banks vcount).pending = s.pending ∧
      (playApg s d fi f e banks vcount).memo = s.memo ∧
      (playApg s d fi f e banks vcount).zenith = s.zenith ∧
      (playApg s d fi f e banks vcount).jtag = s.jtag ∧
      (playApg s d fi f e banks vcount).dram.cells = s.dram.cells := by simp [playApg]

@[simp] theorem leaveApg_keeps (s : State) (d : Nat) (k : Nat) (A : Nat) (exit : Nat) :
    (leaveApg s d k A exit).pending = s.pending ∧
      (leaveApg s d k A exit).memo = s.memo ∧
      (leaveApg s d k A exit).zenith = s.zenith ∧
      (leaveApg s d k A exit).jtag = s.jtag ∧
      (leaveApg s d k A exit).dram.cells = s.dram.cells := by
  unfold leaveApg
  dsimp only
  repeat' split
  all_goals simp

@[simp] theorem startCum_keeps (s : State) (d : Nat) (b : Nat) (entry : Nat) (v : Nat) (vcount : Nat) :
    (startCum s d b entry v vcount).pending = s.pending ∧
      (startCum s d b entry v vcount).memo = s.memo ∧
      (startCum s d b entry v vcount).zenith = s.zenith ∧
      (startCum s d b entry v vcount).jtag = s.jtag ∧
      (startCum s d b entry v vcount).dram.cells = s.dram.cells := by simp [startCum]

@[simp] theorem releaseApg_keeps (s : State) (d : Nat) (k : Nat) :
    (releaseApg s d k).pending = s.pending ∧
      (releaseApg s d k).memo = s.memo ∧
      (releaseApg s d k).zenith = s.zenith ∧
      (releaseApg s d k).jtag = s.jtag ∧
      (releaseApg s d k).dram.cells = s.dram.cells := by
  unfold releaseApg
  repeat' split
  all_goals simp

@[simp] theorem noteUndo_keeps (s0 : State) (s : State) (d : Nat) (as : List Nat) :
    (noteUndo s0 s d as).pending = s.pending ∧
      (noteUndo s0 s d as).memo = s.memo ∧
      (noteUndo s0 s d as).zenith = s.zenith ∧
      (noteUndo s0 s d as).jtag = s.jtag ∧
      (noteUndo s0 s d as).dram.cells = s.dram.cells := by simp [noteUndo]

@[simp] theorem recordEnd_keeps (s : State) (d : Nat) (kind : Nat) (k : Nat) (addr : Nat) :
    (recordEnd s d kind k addr).pending = s.pending ∧
      (recordEnd s d kind k addr).memo = s.memo ∧
      (recordEnd s d kind k addr).zenith = s.zenith ∧
      (recordEnd s d kind k addr).jtag = s.jtag ∧
      (recordEnd s d kind k addr).dram.cells = s.dram.cells := by simp [recordEnd]

@[simp] theorem unrecord_keeps (s : State) (d : Nat) (c : Nat) :
    (unrecord s d c).pending = s.pending ∧
      (unrecord s d c).memo = s.memo ∧
      (unrecord s d c).zenith = s.zenith ∧
      (unrecord s d c).jtag = s.jtag ∧
      (unrecord s d c).dram.cells = s.dram.cells := by simp [unrecord]

@[simp] theorem stopUnits_keeps (s : State) (d : Nat) :
    (stopUnits s d).pending = s.pending ∧
      (stopUnits s d).memo = s.memo ∧
      (stopUnits s d).zenith = s.zenith ∧
      (stopUnits s d).jtag = s.jtag ∧
      (stopUnits s d).dram.cells = s.dram.cells := by simp [stopUnits]

@[simp] theorem stopAuroras_keeps (s : State) (d : Nat) :
    (stopAuroras s d).pending = s.pending ∧
      (stopAuroras s d).memo = s.memo ∧
      (stopAuroras s d).zenith = s.zenith ∧
      (stopAuroras s d).jtag = s.jtag ∧
      (stopAuroras s d).dram.cells = s.dram.cells := by simp [stopAuroras]

@[simp] theorem withdrawDom_keeps (s : State) (d : Nat) (v : Nat) :
    (withdrawDom s d v).pending = s.pending ∧
      (withdrawDom s d v).memo = s.memo ∧
      (withdrawDom s d v).zenith = s.zenith ∧
      (withdrawDom s d v).jtag = s.jtag ∧
      (withdrawDom s d v).dram.cells = s.dram.cells := by simp [withdrawDom]

@[simp] theorem discardAt_keeps (s : State) (d : Nat) (c : Nat) (src : Nat) (endV : Nat) :
    (discardAt s d c src endV).pending = s.pending ∧
      (discardAt s d c src endV).memo = s.memo ∧
      (discardAt s d c src endV).zenith = s.zenith ∧
      (discardAt s d c src endV).jtag = s.jtag ∧
      (discardAt s d c src endV).dram.cells = s.dram.cells := by simp [discardAt]

@[simp] theorem progErrorAt_keeps (s : State) (d : Nat) (c : Nat) (k : Nat) (kind : Nat) (addr : Nat) (w : Nat) :
    (progErrorAt s d c k kind addr w).pending = s.pending ∧
      (progErrorAt s d c k kind addr w).memo = s.memo ∧
      (progErrorAt s d c k kind addr w).zenith = s.zenith ∧
      (progErrorAt s d c k kind addr w).jtag = s.jtag ∧
      (progErrorAt s d c k kind addr w).dram.cells = s.dram.cells := by simp [progErrorAt]

@[simp] theorem progErrorL_keeps (s : State) (d : Nat) (k : Nat) (kind : Nat) (addr : Nat) (late : Bool) :
    (progErrorL s d k kind addr late).pending = s.pending ∧
      (progErrorL s d k kind addr late).memo = s.memo ∧
      (progErrorL s d k kind addr late).zenith = s.zenith ∧
      (progErrorL s d k kind addr late).jtag = s.jtag ∧
      (progErrorL s d k kind addr late).dram.cells = s.dram.cells := by simp [progErrorL]

@[simp] theorem progError_keeps (s : State) (d : Nat) (k : Nat) (kind : Nat) (addr : Nat) :
    (progError s d k kind addr).pending = s.pending ∧
      (progError s d k kind addr).memo = s.memo ∧
      (progError s d k kind addr).zenith = s.zenith ∧
      (progError s d k kind addr).jtag = s.jtag ∧
      (progError s d k kind addr).dram.cells = s.dram.cells := by simp [progError]

@[simp] theorem barriers_keeps (s : State) (d : Nat) :
    (barriers s d).pending = s.pending ∧
      (barriers s d).memo = s.memo ∧
      (barriers s d).zenith = s.zenith ∧
      (barriers s d).jtag = s.jtag ∧
      (barriers s d).dram.cells = s.dram.cells := by simp [barriers]

@[simp] theorem retireFlow_keeps (s : State) (d : Nat) (fi : Nat) (f : Flow) :
    (retireFlow s d fi f).pending = s.pending ∧
      (retireFlow s d fi f).memo = s.memo ∧
      (retireFlow s d fi f).zenith = s.zenith ∧
      (retireFlow s d fi f).jtag = s.jtag ∧
      (retireFlow s d fi f).dram.cells = s.dram.cells := by simp [retireFlow]

@[simp] theorem failPll_keeps (s : State) (n : Nat) :
    (failPll s n).pending = s.pending ∧
      (failPll s n).memo = s.memo ∧
      (failPll s n).zenith = s.zenith ∧
      (failPll s n).jtag = s.jtag ∧
      (failPll s n).dram.cells = s.dram.cells := by simp [failPll]

@[simp] theorem drawFree_keeps (s : State) :
    (drawFree s).2.pending = s.pending ∧
      (drawFree s).2.memo = s.memo ∧
      (drawFree s).2.zenith = s.zenith ∧
      (drawFree s).2.jtag = s.jtag ∧
      (drawFree s).2.dram.cells = s.dram.cells := by simp [drawFree]

@[simp] theorem startMicro_keeps (s : State) :
    (startMicro s).2.pending = s.pending ∧
      (startMicro s).2.memo = s.memo ∧
      (startMicro s).2.zenith = s.zenith ∧
      (startMicro s).2.jtag = s.jtag ∧
      (startMicro s).2.dram.cells = s.dram.cells := by simp [startMicro]

@[simp] theorem dropPacket_keeps (s : State) (q : Nat) (job : Word) :
    (dropPacket s q job).pending = s.pending ∧
      (dropPacket s q job).memo = s.memo ∧
      (dropPacket s q job).zenith = s.zenith ∧
      (dropPacket s q job).jtag = s.jtag ∧
      (dropPacket s q job).dram.cells = s.dram.cells := by
  unfold dropPacket
  dsimp only
  repeat' split
  all_goals simp

@[simp] theorem enqueue_keeps (s : State) (q : Nat) (ty : Nat) (flags : BitVec 16) (tag : Word) (payload : Bytes) :
    (enqueue s q ty flags tag payload).pending = s.pending ∧
      (enqueue s q ty flags tag payload).memo = s.memo ∧
      (enqueue s q ty flags tag payload).zenith = s.zenith ∧
      (enqueue s q ty flags tag payload).jtag = s.jtag ∧
      (enqueue s q ty flags tag payload).dram.cells = s.dram.cells := by simp [enqueue]

@[simp] theorem commitFrame_keeps (s : State) (q : Nat) (ty : Nat) (flags : BitVec 16) (tag : Word) (payload : Bytes) :
    (commitFrame s q ty flags tag payload).pending = s.pending ∧
      (commitFrame s q ty flags tag payload).memo = s.memo ∧
      (commitFrame s q ty flags tag payload).zenith = s.zenith ∧
      (commitFrame s q ty flags tag payload).jtag = s.jtag ∧
      (commitFrame s q ty flags tag payload).dram.cells = s.dram.cells := by simp [commitFrame]

@[simp] theorem raiseEvent_keeps (s : State) (src : Nat) (arg : Bytes) :
    (raiseEvent s src arg).pending = s.pending ∧
      (raiseEvent s src arg).memo = s.memo ∧
      (raiseEvent s src arg).zenith = s.zenith ∧
      (raiseEvent s src arg).jtag = s.jtag ∧
      (raiseEvent s src arg).dram.cells = s.dram.cells := by simp [raiseEvent]

@[simp] theorem judgeCal_keeps (s : State) (ch : Nat) (n1 : Nat) (n2 : Nat) (den : Nat) :
    (judgeCal s ch n1 n2 den).pending = s.pending ∧
      (judgeCal s ch n1 n2 den).memo = s.memo ∧
      (judgeCal s ch n1 n2 den).zenith = s.zenith ∧
      (judgeCal s ch n1 n2 den).jtag = s.jtag ∧
      (judgeCal s ch n1 n2 den).dram.cells = s.dram.cells := by
  unfold judgeCal
  repeat' split
  all_goals simp

@[simp] theorem runCalibration_keeps (s : State) (item : CalItem) (a : List Int) :
    (runCalibration s item a).pending = s.pending ∧
      (runCalibration s item a).memo = s.memo ∧
      (runCalibration s item a).zenith = s.zenith ∧
      (runCalibration s item a).jtag = s.jtag ∧
      (runCalibration s item a).dram.cells = s.dram.cells := by
  unfold runCalibration
  repeat' split
  all_goals simp

@[simp] theorem recordConflict_keeps (s : State) (d : Nat) (w : Nat) (c : Nat × EdgeName × EdgeName) :
    (recordConflict s d w c).pending = s.pending ∧
      (recordConflict s d w c).memo = s.memo ∧
      (recordConflict s d w c).zenith = s.zenith ∧
      (recordConflict s d w c).jtag = s.jtag ∧
      (recordConflict s d w c).dram.cells = s.dram.cells := by simp [recordConflict]

@[simp] theorem discardJob_keeps (s : State) (d : Nat) (src : Nat) (endV : Nat) :
    (discardJob s d src endV).pending = s.pending ∧
      (discardJob s d src endV).memo = s.memo ∧
      (discardJob s d src endV).zenith = s.zenith ∧
      (discardJob s d src endV).jtag = s.jtag ∧
      (discardJob s d src endV).dram.cells = s.dram.cells := by simp [discardJob]

@[simp] theorem parkFrom_keeps (s : State) (d : Nat) (w : Nat) :
    (parkFrom s d w).pending = s.pending ∧
      (parkFrom s d w).memo = s.memo ∧
      (parkFrom s d w).zenith = s.zenith ∧
      (parkFrom s d w).jtag = s.jtag ∧
      (parkFrom s d w).dram.cells = s.dram.cells := by simp [parkFrom]

@[simp] theorem separation_keeps (s : State) (d : Nat) (w : Nat) (c : Nat × EdgeName × EdgeName) :
    (separation s d w c).pending = s.pending ∧
      (separation s d w c).memo = s.memo ∧
      (separation s d w c).zenith = s.zenith ∧
      (separation s d w c).jtag = s.jtag ∧
      (separation s d w c).dram.cells = s.dram.cells := by simp [separation]

@[simp] theorem retune_keeps (s : State) (n : Nat) :
    (retune s n).pending = s.pending ∧
      (retune s n).memo = s.memo ∧
      (retune s n).zenith = s.zenith ∧
      (retune s n).jtag = s.jtag ∧
      (retune s n).dram.cells = s.dram.cells := by simp [retune]

@[simp] theorem useUnit_keeps (s : State) (u : Nat) :
    (useUnit s u).pending = s.pending ∧
      (useUnit s u).memo = s.memo ∧
      (useUnit s u).zenith = s.zenith ∧
      (useUnit s u).jtag = s.jtag ∧
      (useUnit s u).dram.cells = s.dram.cells := by simp [useUnit]

@[simp] theorem useCore_keeps (s : State) :
    (useCore s).pending = s.pending ∧
      (useCore s).memo = s.memo ∧
      (useCore s).zenith = s.zenith ∧
      (useCore s).jtag = s.jtag ∧
      (useCore s).dram.cells = s.dram.cells := by simp [useCore]

@[simp] theorem touchPort_keeps (s : State) (p : Port) :
    (touchPort s p).pending = s.pending ∧
      (touchPort s p).memo = s.memo ∧
      (touchPort s p).zenith = s.zenith ∧
      (touchPort s p).jtag = s.jtag ∧
      (touchPort s p).dram.cells = s.dram.cells := by simp [touchPort]

@[simp] theorem freeLines_keeps (s : State) (f : Frame) :
    (freeLines s f).pending = s.pending ∧
      (freeLines s f).memo = s.memo ∧
      (freeLines s f).zenith = s.zenith ∧
      (freeLines s f).jtag = s.jtag ∧
      (freeLines s f).dram.cells = s.dram.cells := by simp [freeLines]

@[simp] theorem useLines_keeps (s : State) (f : Frame) :
    (useLines s f).pending = s.pending ∧
      (useLines s f).memo = s.memo ∧
      (useLines s f).zenith = s.zenith ∧
      (useLines s f).jtag = s.jtag ∧
      (useLines s f).dram.cells = s.dram.cells := by simp [useLines]

@[simp] theorem discardFrame_keeps (s : State) (f : Frame) (reason : Nat) :
    (discardFrame s f reason).pending = s.pending ∧
      (discardFrame s f reason).memo = s.memo ∧
      (discardFrame s f reason).zenith = s.zenith ∧
      (discardFrame s f reason).jtag = s.jtag ∧
      (discardFrame s f reason).dram.cells = s.dram.cells := by simp [discardFrame]

@[simp] theorem acceptFrame_keeps (s : State) (f : Frame) :
    (acceptFrame s f).pending = s.pending ∧
      (acceptFrame s f).memo = s.memo ∧
      (acceptFrame s f).zenith = s.zenith ∧
      (acceptFrame s f).jtag = s.jtag ∧
      (acceptFrame s f).dram.cells = s.dram.cells := by simp [acceptFrame]

@[simp] theorem sendReply_keeps (s : State) (f : Frame) (p : Bytes) :
    (sendReply s f p).pending = s.pending ∧
      (sendReply s f p).memo = s.memo ∧
      (sendReply s f p).zenith = s.zenith ∧
      (sendReply s f p).jtag = s.jtag ∧
      (sendReply s f p).dram.cells = s.dram.cells := by simp [sendReply]

@[simp] theorem sendOwed_keeps (l : List (Frame × Option Bytes)) (s : State) :
    (sendOwed l s).pending = s.pending ∧
      (sendOwed l s).memo = s.memo ∧
      (sendOwed l s).zenith = s.zenith ∧
      (sendOwed l s).jtag = s.jtag ∧
      (sendOwed l s).dram.cells = s.dram.cells := by
  induction l generalizing s with
  | nil => exact ⟨rfl, rfl, rfl, rfl, rfl⟩
  | cons a r ih =>
    obtain ⟨f, o⟩ := a
    cases o with
    | none => exact ⟨rfl, rfl, rfl, rfl, rfl⟩
    | some p => simp [sendOwed, ih]

@[simp] theorem reply_keeps (s : State) (f : Frame) (status detail : Nat) (data : Bytes) :
    (reply s f status detail data).pending = s.pending ∧
      (reply s f status detail data).memo = s.memo ∧
      (reply s f status detail data).zenith = s.zenith ∧
      (reply s f status detail data).jtag = s.jtag ∧
      (reply s f status detail data).dram.cells = s.dram.cells := by
  unfold reply
  dsimp only
  split <;> simp

@[simp] theorem owe_keeps (s : State) (f : Frame) :
    (owe s f).pending = s.pending ∧
      (owe s f).memo = s.memo ∧
      (owe s f).zenith = s.zenith ∧
      (owe s f).jtag = s.jtag ∧
      (owe s f).dram.cells = s.dram.cells := by simp [owe]

@[simp] theorem flagUnderrun_keeps (s : State) (a : Aurora) :
    (flagUnderrun s a).pending = s.pending ∧
      (flagUnderrun s a).memo = s.memo ∧
      (flagUnderrun s a).zenith = s.zenith ∧
      (flagUnderrun s a).jtag = s.jtag ∧
      (flagUnderrun s a).dram.cells = s.dram.cells := by
  unfold flagUnderrun
  repeat' split
  all_goals simp

@[simp] theorem stopEarly_keeps (s : State) (n : Nat) (cause : Nat) (sample : Nat) :
    (stopEarly s n cause sample).pending = s.pending ∧
      (stopEarly s n cause sample).memo = s.memo ∧
      (stopEarly s n cause sample).zenith = s.zenith ∧
      (stopEarly s n cause sample).jtag = s.jtag ∧
      (stopEarly s n cause sample).dram.cells = s.dram.cells := by simp [stopEarly]

@[simp] theorem mergeFault_keeps (s : State) (src : Nat) (arg : Nat) :
    (mergeFault s src arg).pending = s.pending ∧
      (mergeFault s src arg).memo = s.memo ∧
      (mergeFault s src arg).zenith = s.zenith ∧
      (mergeFault s src arg).jtag = s.jtag ∧
      (mergeFault s src arg).dram.cells = s.dram.cells := by
  unfold mergeFault
  dsimp only
  repeat' split
  all_goals simp

@[simp] theorem recoveryNotice_keeps (s : State) (result : Nat) (level : Nat) (flags : Nat) :
    (recoveryNotice s result level flags).pending = s.pending ∧
      (recoveryNotice s result level flags).memo = s.memo ∧
      (recoveryNotice s result level flags).zenith = s.zenith ∧
      (recoveryNotice s result level flags).jtag = s.jtag ∧
      (recoveryNotice s result level flags).dram.cells = s.dram.cells := by simp [recoveryNotice]

@[simp] theorem overflowFault_keeps (s : State) (src : Nat) :
    (overflowFault s src).pending = s.pending ∧
      (overflowFault s src).memo = s.memo ∧
      (overflowFault s src).zenith = s.zenith ∧
      (overflowFault s src).jtag = s.jtag ∧
      (overflowFault s src).dram.cells = s.dram.cells := by simp [overflowFault]

@[simp] theorem setLatch_keeps (s : State) (d : Nat) (n : Nat) (c : Nat) (k : Nat) :
    (setLatch s d n c k).pending = s.pending ∧
      (setLatch s d n c k).memo = s.memo ∧
      (setLatch s d n c k).zenith = s.zenith ∧
      (setLatch s d n c k).jtag = s.jtag ∧
      (setLatch s d n c k).dram.cells = s.dram.cells := by simp [setLatch]

@[simp] theorem setLatches_keeps (s : State) (n : Nat) (from_ : Dom → Nat) :
    (setLatches s n from_).pending = s.pending ∧
      (setLatches s n from_).memo = s.memo ∧
      (setLatches s n from_).zenith = s.zenith ∧
      (setLatches s n from_).jtag = s.jtag ∧
      (setLatches s n from_).dram.cells = s.dram.cells := by simp [setLatches]

@[simp] theorem occur_keeps (s : State) (n : Nat) (src : AurSource) (tr : Int) :
    (occur s n src tr).pending = s.pending ∧
      (occur s n src tr).memo = s.memo ∧
      (occur s n src tr).zenith = s.zenith ∧
      (occur s n src tr).jtag = s.jtag ∧
      (occur s n src tr).dram.cells = s.dram.cells := by
  unfold occur
  dsimp only
  repeat' split
  all_goals simp

@[simp] theorem eventSeen_keeps (n : Nat) (from_ : Dom → Nat) (s : State) (c : Nat) :
    (eventSeen n from_ s c).pending = s.pending ∧
      (eventSeen n from_ s c).memo = s.memo ∧
      (eventSeen n from_ s c).zenith = s.zenith ∧
      (eventSeen n from_ s c).jtag = s.jtag ∧
      (eventSeen n from_ s c).dram.cells = s.dram.cells := by
  unfold eventSeen
  split <;> simp

@[simp] theorem noteArrivals_keeps (s : State) (n : Nat) (from_ : Dom → Nat) :
    (noteArrivals s n from_).pending = s.pending ∧
      (noteArrivals s n from_).memo = s.memo ∧
      (noteArrivals s n from_).zenith = s.zenith ∧
      (noteArrivals s n from_).jtag = s.jtag ∧
      (noteArrivals s n from_).dram.cells = s.dram.cells :=
  ⟨rfl, rfl, rfl, rfl, rfl⟩

@[simp] theorem setEventAt_keeps (s : State) (n : Nat) (from_ : Dom → Nat) :
    (setEventAt s n from_).pending = s.pending ∧
      (setEventAt s n from_).memo = s.memo ∧
      (setEventAt s n from_).zenith = s.zenith ∧
      (setEventAt s n from_).jtag = s.jtag ∧
      (setEventAt s n from_).dram.cells = s.dram.cells := by
  unfold setEventAt
  simp

@[simp] theorem setEvent_keeps (s : State) (n delay : Nat) :
    (setEvent s n delay).pending = s.pending ∧
      (setEvent s n delay).memo = s.memo ∧
      (setEvent s n delay).zenith = s.zenith ∧
      (setEvent s n delay).jtag = s.jtag ∧
      (setEvent s n delay).dram.cells = s.dram.cells := by
  unfold setEvent
  simp

@[simp] theorem forwardEvent_keeps (s : State) (f : Frame) :
    (forwardEvent s f).pending = s.pending ∧
      (forwardEvent s f).memo = s.memo ∧
      (forwardEvent s f).zenith = s.zenith ∧
      (forwardEvent s f).jtag = s.jtag ∧
      (forwardEvent s f).dram.cells = s.dram.cells := by simp [forwardEvent]

@[simp] theorem passEvent_keeps (f : Frame) (s : State) :
    (passEvent f s).pending = s.pending ∧
      (passEvent f s).memo = s.memo ∧
      (passEvent f s).zenith = s.zenith ∧
      (passEvent f s).jtag = s.jtag ∧
      (passEvent f s).dram.cells = s.dram.cells := by simp [passEvent]

@[simp] theorem doGlobalEvent_keeps (f : Frame) (s : State) :
    (doGlobalEvent f s).pending = s.pending ∧
      (doGlobalEvent f s).memo = s.memo ∧
      (doGlobalEvent f s).zenith = s.zenith ∧
      (doGlobalEvent f s).jtag = s.jtag ∧
      (doGlobalEvent f s).dram.cells = s.dram.cells := by simp [doGlobalEvent]

@[simp] theorem grantLines_keeps (s : State) (q : Nat) (n : Nat) :
    (grantLines s q n).pending = s.pending ∧
      (grantLines s q n).memo = s.memo ∧
      (grantLines s q n).zenith = s.zenith ∧
      (grantLines s q n).jtag = s.jtag ∧
      (grantLines s q n).dram.cells = s.dram.cells := by simp [grantLines]

@[simp] theorem dropFrames_keeps (s : State) (q : Nat) (n : Nat) :
    (dropFrames s q n).pending = s.pending ∧
      (dropFrames s q n).memo = s.memo ∧
      (dropFrames s q n).zenith = s.zenith ∧
      (dropFrames s q n).jtag = s.jtag ∧
      (dropFrames s q n).dram.cells = s.dram.cells := by simp [dropFrames]

@[simp] theorem resetQueue_keeps (s : State) (q : Nat) (src : Nat) :
    (resetQueue s q src).pending = s.pending ∧
      (resetQueue s q src).memo = s.memo ∧
      (resetQueue s q src).zenith = s.zenith ∧
      (resetQueue s q src).jtag = s.jtag ∧
      (resetQueue s q src).dram.cells = s.dram.cells := by simp [resetQueue]

@[simp] theorem dropDue_keeps (s : State) (item : CalItem) :
    (dropDue s item).pending = s.pending ∧
      (dropDue s item).memo = s.memo ∧
      (dropDue s item).zenith = s.zenith ∧
      (dropDue s item).jtag = s.jtag ∧
      (dropDue s item).dram.cells = s.dram.cells := by simp [dropDue]

@[simp] theorem addRecord_keeps (s : State) (d : Nat) (buf : Nat) (r : Bytes) :
    (addRecord s d buf r).pending = s.pending ∧
      (addRecord s d buf r).memo = s.memo ∧
      (addRecord s d buf r).zenith = s.zenith ∧
      (addRecord s d buf r).jtag = s.jtag ∧
      (addRecord s d buf r).dram.cells = s.dram.cells := by simp [addRecord]

@[simp] theorem logFail_keeps (s : State) (d : Nat) (k : Nat) (x : Failing) :
    (logFail s d k x).pending = s.pending ∧
      (logFail s d k x).memo = s.memo ∧
      (logFail s d k x).zenith = s.zenith ∧
      (logFail s d k x).jtag = s.jtag ∧
      (logFail s d k x).dram.cells = s.dram.cells := by simp [logFail]

@[simp] theorem endEngines_keeps (s : State) (d : Nat) :
    (endEngines s d).pending = s.pending ∧
      (endEngines s d).memo = s.memo ∧
      (endEngines s d).zenith = s.zenith ∧
      (endEngines s d).jtag = s.jtag ∧
      (endEngines s d).dram.cells = s.dram.cells := by simp [endEngines]

@[simp] theorem noteStep_keeps (s : State) (b : BootInput) (k : Nat) (attempts : Nat) (result : Nat) (fallback : Nat) (detail : Bytes) :
    (noteStep s b k attempts result fallback detail).pending = s.pending ∧
      (noteStep s b k attempts result fallback detail).memo = s.memo ∧
      (noteStep s b k attempts result fallback detail).zenith = s.zenith ∧
      (noteStep s b k attempts result fallback detail).jtag = s.jtag ∧
      (noteStep s b k attempts result fallback detail).dram.cells = s.dram.cells := by simp [noteStep]

@[simp] theorem passStep_keeps (s : State) (b : BootInput) (k : Nat) (attempts : Nat) (fallback : Nat) (detail : Bytes) :
    (passStep s b k attempts fallback detail).pending = s.pending ∧
      (passStep s b k attempts fallback detail).memo = s.memo ∧
      (passStep s b k attempts fallback detail).zenith = s.zenith ∧
      (passStep s b k attempts fallback detail).jtag = s.jtag ∧
      (passStep s b k attempts fallback detail).dram.cells = s.dram.cells := by simp [passStep]

@[simp] theorem step1_keeps (b : BootInput) (s : State) :
    (step1 b s).pending = s.pending ∧
      (step1 b s).memo = s.memo ∧
      (step1 b s).zenith = s.zenith ∧
      (step1 b s).jtag = s.jtag ∧
      (step1 b s).dram.cells = s.dram.cells := by simp [step1]

@[simp] theorem tellAbsent_keeps (s : State) (tag : Word) (status : Nat) :
    (tellAbsent s tag status).pending = s.pending ∧
      (tellAbsent s tag status).memo = s.memo ∧
      (tellAbsent s tag status).zenith = s.zenith ∧
      (tellAbsent s tag status).jtag = s.jtag ∧
      (tellAbsent s tag status).dram.cells = s.dram.cells := by simp [tellAbsent]

@[simp] theorem noteDone_keeps (s : State) (tag : Word) :
    (noteDone s tag).pending = s.pending ∧
      (noteDone s tag).memo = s.memo ∧
      (noteDone s tag).zenith = s.zenith ∧
      (noteDone s tag).jtag = s.jtag ∧
      (noteDone s tag).dram.cells = s.dram.cells := by simp [noteDone]

@[simp] theorem refuseJob_keeps (s : State) (tag : Word) (status : Nat) (reason : Nat) (flags : Nat) (sites : Nat) (waitUs : Nat) :
    (refuseJob s tag status reason flags sites waitUs).pending = s.pending ∧
      (refuseJob s tag status reason flags sites waitUs).memo = s.memo ∧
      (refuseJob s tag status reason flags sites waitUs).zenith = s.zenith ∧
      (refuseJob s tag status reason flags sites waitUs).jtag = s.jtag ∧
      (refuseJob s tag status reason flags sites waitUs).dram.cells = s.dram.cells := by simp [refuseJob]

@[simp] theorem refuseWaiting_keeps (s : State) (w : Waiting) (status : Nat) (reason : Nat) :
    (refuseWaiting s w status reason).pending = s.pending ∧
      (refuseWaiting s w status reason).memo = s.memo ∧
      (refuseWaiting s w status reason).zenith = s.zenith ∧
      (refuseWaiting s w status reason).jtag = s.jtag ∧
      (refuseWaiting s w status reason).dram.cells = s.dram.cells := by simp [refuseWaiting]

@[simp] theorem abandonFor_keeps (s : State) (p : Bytes) :
    (abandonFor s p).pending = s.pending ∧
      (abandonFor s p).memo = s.memo ∧
      (abandonFor s p).zenith = s.zenith ∧
      (abandonFor s p).jtag = s.jtag ∧
      (abandonFor s p).dram.cells = s.dram.cells := by simp [abandonFor]

@[simp] theorem doFence_keeps (s : State) :
    (doFence s).pending = s.pending ∧
      (doFence s).memo = s.memo ∧
      (doFence s).zenith = s.zenith ∧
      (doFence s).jtag = s.jtag ∧
      (doFence s).dram.cells = s.dram.cells := by simp [doFence]

@[simp] theorem tryFence_keeps (s : State) :
    (tryFence s).pending = s.pending ∧
      (tryFence s).memo = s.memo ∧
      (tryFence s).zenith = s.zenith ∧
      (tryFence s).jtag = s.jtag ∧
      (tryFence s).dram.cells = s.dram.cells := by simp [tryFence]

@[simp] theorem claimUnits_keeps (s : State) (d : Nat) (p : Bytes) :
    (claimUnits s d p).pending = s.pending ∧
      (claimUnits s d p).memo = s.memo ∧
      (claimUnits s d p).zenith = s.zenith ∧
      (claimUnits s d p).jtag = s.jtag ∧
      (claimUnits s d p).dram.cells = s.dram.cells := by simp [claimUnits]

@[simp] theorem claimPins_keeps (s : State) (d : Nat) (p : Bytes) :
    (claimPins s d p).pending = s.pending ∧
      (claimPins s d p).memo = s.memo ∧
      (claimPins s d p).zenith = s.zenith ∧
      (claimPins s d p).jtag = s.jtag ∧
      (claimPins s d p).dram.cells = s.dram.cells := by simp [claimPins]

@[simp] theorem clearRange_keeps (s : State) (p : Bytes) :
    (clearRange s p).pending = s.pending ∧
      (clearRange s p).memo = s.memo ∧
      (clearRange s p).zenith = s.zenith ∧
      (clearRange s p).jtag = s.jtag ∧
      (clearRange s p).dram.cells = s.dram.cells := by simp [clearRange]

@[simp] theorem beginChange_keeps (s : State) :
    (beginChange s).pending = s.pending ∧
      (beginChange s).memo = s.memo ∧
      (beginChange s).zenith = s.zenith ∧
      (beginChange s).jtag = s.jtag ∧
      (beginChange s).dram.cells = s.dram.cells := by simp [beginChange]

@[simp] theorem askPoint_keeps (s : State) (b : Bool) (f : Option Frame) :
    (askPoint s b f).pending = s.pending ∧
      (askPoint s b f).memo = s.memo ∧
      (askPoint s b f).zenith = s.zenith ∧
      (askPoint s b f).jtag = s.jtag ∧
      (askPoint s b f).dram.cells = s.dram.cells := by simp [askPoint]

@[simp] theorem syncPlls_keeps (s : State) :
    (syncPlls s).pending = s.pending ∧
      (syncPlls s).memo = s.memo ∧
      (syncPlls s).zenith = s.zenith ∧
      (syncPlls s).jtag = s.jtag ∧
      (syncPlls s).dram.cells = s.dram.cells := by simp [syncPlls]

@[simp] theorem wakeUnit_keeps (s : State) (u : Nat) :
    (wakeUnit s u).pending = s.pending ∧
      (wakeUnit s u).memo = s.memo ∧
      (wakeUnit s u).zenith = s.zenith ∧
      (wakeUnit s u).jtag = s.jtag ∧
      (wakeUnit s u).dram.cells = s.dram.cells := by simp [wakeUnit]

@[simp] theorem admitJob_keeps (s : State) (d : Nat) (w : Waiting) :
    (admitJob s d w).pending = s.pending ∧
      (admitJob s d w).memo = s.memo ∧
      (admitJob s d w).zenith = s.zenith ∧
      (admitJob s d w).jtag = s.jtag ∧
      (admitJob s d w).dram.cells = s.dram.cells := by simp [admitJob]

@[simp] theorem touchDram_keeps (s : State) :
    (touchDram s).pending = s.pending ∧
      (touchDram s).memo = s.memo ∧
      (touchDram s).zenith = s.zenith ∧
      (touchDram s).jtag = s.jtag ∧
      (touchDram s).dram.cells = s.dram.cells := by simp [touchDram]

@[simp] theorem debit_keeps (s : State) (key : Nat) (units : Nat) (n : Nat) :
    (debit s key units n).pending = s.pending ∧
      (debit s key units n).memo = s.memo ∧
      (debit s key units n).zenith = s.zenith ∧
      (debit s key units n).jtag = s.jtag ∧
      (debit s key units n).dram.cells = s.dram.cells := by simp [debit]

@[simp] theorem askDram_keeps (s : State) (r : DramReq) :
    (askDram s r).pending = s.pending ∧
      (askDram s r).memo = s.memo ∧
      (askDram s r).zenith = s.zenith ∧
      (askDram s r).jtag = s.jtag ∧
      (askDram s r).dram.cells = s.dram.cells := by simp [askDram]

@[simp] theorem hostDram_keeps (s : State) (q : Nat) (n : Nat) :
    (hostDram s q n).1.pending = s.pending ∧
      (hostDram s q n).1.memo = s.memo ∧
      (hostDram s q n).1.zenith = s.zenith ∧
      (hostDram s q n).1.jtag = s.jtag ∧
      (hostDram s q n).1.dram.cells = s.dram.cells := by
  unfold hostDram
  repeat' split
  all_goals simp

@[simp] theorem loadDram_keeps (s : State) (f : Frame) :
    (loadDram s f).1.pending = s.pending ∧
      (loadDram s f).1.memo = s.memo ∧
      (loadDram s f).1.zenith = s.zenith ∧
      (loadDram s f).1.jtag = s.jtag ∧
      (loadDram s f).1.dram.cells = s.dram.cells := by
  unfold loadDram
  repeat' split
  all_goals simp

@[simp] theorem loadOpen_keeps (s : State) (f : Frame) :
    (loadOpen s f).pending = s.pending ∧
      (loadOpen s f).memo = s.memo ∧
      (loadOpen s f).zenith = s.zenith ∧
      (loadOpen s f).jtag = s.jtag ∧
      (loadOpen s f).dram.cells = s.dram.cells := by simp [loadOpen]

@[simp] theorem freeImage_keeps (s : State) (h : Nat) :
    (freeImage s h).pending = s.pending ∧
      (freeImage s h).memo = s.memo ∧
      (freeImage s h).zenith = s.zenith ∧
      (freeImage s h).jtag = s.jtag ∧
      (freeImage s h).dram.cells = s.dram.cells := by simp [freeImage]

@[simp] theorem holdImage_keeps (s : State) (n : Nat) (h : Nat) :
    (holdImage s n h).pending = s.pending ∧
      (holdImage s n h).memo = s.memo ∧
      (holdImage s n h).zenith = s.zenith ∧
      (holdImage s n h).jtag = s.jtag ∧
      (holdImage s n h).dram.cells = s.dram.cells := by simp [holdImage]

@[simp] theorem placeImage_keeps (s : State) (h : Nat) (kind : Nat) (data : Bytes) (ps : List Nat) :
    (placeImage s h kind data ps).pending = s.pending ∧
      (placeImage s h kind data ps).memo = s.memo ∧
      (placeImage s h kind data ps).zenith = s.zenith ∧
      (placeImage s h kind data ps).jtag = s.jtag ∧
      (placeImage s h kind data ps).dram.cells = s.dram.cells := by simp [placeImage]

@[simp] theorem loadFree_keeps (s : State) (f : Frame) :
    (loadFree s f).pending = s.pending ∧
      (loadFree s f).memo = s.memo ∧
      (loadFree s f).zenith = s.zenith ∧
      (loadFree s f).jtag = s.jtag ∧
      (loadFree s f).dram.cells = s.dram.cells := by simp [loadFree]

@[simp] theorem loadAbort_keeps (s : State) (f : Frame) :
    (loadAbort s f).pending = s.pending ∧
      (loadAbort s f).memo = s.memo ∧
      (loadAbort s f).zenith = s.zenith ∧
      (loadAbort s f).jtag = s.jtag ∧
      (loadAbort s f).dram.cells = s.dram.cells := by simp [loadAbort]

@[simp] theorem unshadow_keeps (s : State) :
    (unshadow s).pending = s.pending ∧
      (unshadow s).memo = s.memo ∧
      (unshadow s).zenith = s.zenith ∧
      (unshadow s).jtag = s.jtag ∧
      (unshadow s).dram.cells = s.dram.cells := by simp [unshadow]

@[simp] theorem killLane_keeps (s : State) (lane : Nat) :
    (killLane s lane).pending = s.pending ∧
      (killLane s lane).memo = s.memo ∧
      (killLane s lane).zenith = s.zenith ∧
      (killLane s lane).jtag = s.jtag ∧
      (killLane s lane).dram.cells = s.dram.cells := by simp [killLane]

@[simp] theorem countMarker_keeps (s : State) (lane : Nat) (right : Bool) (errors : Nat) (late : Nat) :
    (countMarker s lane right errors late).pending = s.pending ∧
      (countMarker s lane right errors late).memo = s.memo ∧
      (countMarker s lane right errors late).zenith = s.zenith ∧
      (countMarker s lane right errors late).jtag = s.jtag ∧
      (countMarker s lane right errors late).dram.cells = s.dram.cells := by simp [countMarker]

@[simp] theorem loseDramPart_keeps (s : State) (q : Nat) :
    (loseDramPart s q).pending = s.pending ∧
      (loseDramPart s q).memo = s.memo ∧
      (loseDramPart s q).zenith = s.zenith ∧
      (loseDramPart s q).jtag = s.jtag ∧
      (loseDramPart s q).dram.cells = s.dram.cells := by simp [loseDramPart]

@[simp] theorem purgeQueues_keeps (s : State) (tags : List Word) :
    (purgeQueues s tags).pending = s.pending ∧
      (purgeQueues s tags).memo = s.memo ∧
      (purgeQueues s tags).zenith = s.zenith ∧
      (purgeQueues s tags).jtag = s.jtag ∧
      (purgeQueues s tags).dram.cells = s.dram.cells := by simp [purgeQueues]

@[simp] theorem dropStaged_keeps (s : State) (ch : Nat) :
    (dropStaged s ch).pending = s.pending ∧
      (dropStaged s ch).memo = s.memo ∧
      (dropStaged s ch).zenith = s.zenith ∧
      (dropStaged s ch).jtag = s.jtag ∧
      (dropStaged s ch).dram.cells = s.dram.cells := by simp [dropStaged]

@[simp] theorem losePower_keeps (s : State) (u : Nat) :
    (losePower s u).pending = s.pending ∧
      (losePower s u).memo = s.memo ∧
      (losePower s u).zenith = s.zenith ∧
      (losePower s u).jtag = s.jtag ∧
      (losePower s u).dram.cells = s.dram.cells := by simp [losePower]

@[simp] theorem bankDown_keeps (s : State) (u : Nat) :
    (bankDown s u).pending = s.pending ∧
      (bankDown s u).memo = s.memo ∧
      (bankDown s u).zenith = s.zenith ∧
      (bankDown s u).jtag = s.jtag ∧
      (bankDown s u).dram.cells = s.dram.cells := by simp [bankDown]

@[simp] theorem unitOff_keeps (s : State) (u : Nat) :
    (unitOff s u).pending = s.pending ∧
      (unitOff s u).memo = s.memo ∧
      (unitOff s u).zenith = s.zenith ∧
      (unitOff s u).jtag = s.jtag ∧
      (unitOff s u).dram.cells = s.dram.cells := by simp [unitOff]

@[simp] theorem freeAuroraImage_keeps (s : State) (n : Nat) :
    (freeAuroraImage s n).pending = s.pending ∧
      (freeAuroraImage s n).memo = s.memo ∧
      (freeAuroraImage s n).zenith = s.zenith ∧
      (freeAuroraImage s n).jtag = s.jtag ∧
      (freeAuroraImage s n).dram.cells = s.dram.cells := by
  unfold freeAuroraImage
  repeat' split
  all_goals simp

@[simp] theorem freeCtx_keeps (s : State) :
    (freeCtx s).2.pending = s.pending ∧
      (freeCtx s).2.memo = s.memo ∧
      (freeCtx s).2.zenith = s.zenith ∧
      (freeCtx s).2.jtag = s.jtag ∧
      (freeCtx s).2.dram.cells = s.dram.cells := by simp [freeCtx]

@[simp] theorem voidRange_keeps (s : State) (p : Bytes) :
    (voidRange s p).pending = s.pending ∧
      (voidRange s p).memo = s.memo ∧
      (voidRange s p).zenith = s.zenith ∧
      (voidRange s p).jtag = s.jtag ∧
      (voidRange s p).dram.cells = s.dram.cells := by simp [voidRange]

@[simp] theorem releaseDeferred_keeps (s : State) :
    (releaseDeferred s).pending = s.pending ∧
      (releaseDeferred s).memo = s.memo ∧
      (releaseDeferred s).zenith = s.zenith ∧
      (releaseDeferred s).jtag = s.jtag ∧
      (releaseDeferred s).dram.cells = s.dram.cells := by simp [releaseDeferred]

@[simp] theorem eachLane_keeps (s : State) (p : Port) (k : Lane → Lane) :
    (eachLane s p k).pending = s.pending ∧
      (eachLane s p k).memo = s.memo ∧
      (eachLane s p k).zenith = s.zenith ∧
      (eachLane s p k).jtag = s.jtag ∧
      (eachLane s p k).dram.cells = s.dram.cells := by simp [eachLane]

@[simp] theorem txOn_keeps (s : State) (p : Port) :
    (txOn s p).pending = s.pending ∧
      (txOn s p).memo = s.memo ∧
      (txOn s p).zenith = s.zenith ∧
      (txOn s p).jtag = s.jtag ∧
      (txOn s p).dram.cells = s.dram.cells := by simp [txOn]

@[simp] theorem loseFrame_keeps (s : State) (p : Port) :
    (loseFrame s p).pending = s.pending ∧
      (loseFrame s p).memo = s.memo ∧
      (loseFrame s p).zenith = s.zenith ∧
      (loseFrame s p).jtag = s.jtag ∧
      (loseFrame s p).dram.cells = s.dram.cells := by
  unfold loseFrame
  dsimp only
  repeat' split
  all_goals simp

@[simp] theorem restartCredits_keeps (s : State) (p : Port) :
    (restartCredits s p).pending = s.pending ∧
      (restartCredits s p).memo = s.memo ∧
      (restartCredits s p).zenith = s.zenith ∧
      (restartCredits s p).jtag = s.jtag ∧
      (restartCredits s p).dram.cells = s.dram.cells := by simp [restartCredits]

@[simp] theorem startPath_keeps (s : State) (p : Port) (st : PortState) :
    (startPath s p st).pending = s.pending ∧
      (startPath s p st).memo = s.memo ∧
      (startPath s p st).zenith = s.zenith ∧
      (startPath s p st).jtag = s.jtag ∧
      (startPath s p st).dram.cells = s.dram.cells := by simp [startPath]

@[simp] theorem bringUp_keeps (s : State) (p : Port) (fallback : Bool) :
    (bringUp s p fallback).pending = s.pending ∧
      (bringUp s p fallback).memo = s.memo ∧
      (bringUp s p fallback).zenith = s.zenith ∧
      (bringUp s p fallback).jtag = s.jtag ∧
      (bringUp s p fallback).dram.cells = s.dram.cells := by simp [bringUp]

@[simp] theorem appendLog_keeps (s : State) :
    (appendLog s).pending = s.pending ∧
      (appendLog s).memo = s.memo ∧
      (appendLog s).zenith = s.zenith ∧
      (appendLog s).jtag = s.jtag ∧
      (appendLog s).dram.cells = s.dram.cells := by simp [appendLog]

@[simp] theorem lowBin_keeps (s : State) (point : Nat) (asked : Nat) (got : Nat) :
    (lowBin s point asked got).pending = s.pending ∧
      (lowBin s point asked got).memo = s.memo ∧
      (lowBin s point asked got).zenith = s.zenith ∧
      (lowBin s point asked got).jtag = s.jtag ∧
      (lowBin s point asked got).dram.cells = s.dram.cells := by simp [lowBin]

@[simp] theorem sizeQueues_keeps (s : State) (kib : Nat → Nat) :
    (sizeQueues s kib).pending = s.pending ∧
      (sizeQueues s kib).memo = s.memo ∧
      (sizeQueues s kib).zenith = s.zenith ∧
      (sizeQueues s kib).jtag = s.jtag ∧
      (sizeQueues s kib).dram.cells = s.dram.cells := by simp [sizeQueues]

@[simp] theorem writePlan_keeps (s : State) :
    (writePlan s).pending = s.pending ∧
      (writePlan s).memo = s.memo ∧
      (writePlan s).zenith = s.zenith ∧
      (writePlan s).jtag = s.jtag ∧
      (writePlan s).dram.cells = s.dram.cells := by simp [writePlan]

@[simp] theorem bringUpPorts_keeps (s : State) :
    (bringUpPorts s).pending = s.pending ∧
      (bringUpPorts s).memo = s.memo ∧
      (bringUpPorts s).zenith = s.zenith ∧
      (bringUpPorts s).jtag = s.jtag ∧
      (bringUpPorts s).dram.cells = s.dram.cells := by simp [bringUpPorts]

@[simp] theorem noteWidths_keeps (s : State) (p : Port) :
    (noteWidths s p).pending = s.pending ∧
      (noteWidths s p).memo = s.memo ∧
      (noteWidths s p).zenith = s.zenith ∧
      (noteWidths s p).jtag = s.jtag ∧
      (noteWidths s p).dram.cells = s.dram.cells := by simp [noteWidths]

@[simp] theorem portUp_keeps (s : State) (p : Port) :
    (portUp s p).pending = s.pending ∧
      (portUp s p).memo = s.memo ∧
      (portUp s p).zenith = s.zenith ∧
      (portUp s p).jtag = s.jtag ∧
      (portUp s p).dram.cells = s.dram.cells := by simp [portUp]

@[simp] theorem setWidths_keeps (s : State) (p : Port) (w : Nat) (g : Nat) (rx : Nat) (rg : Nat) :
    (setWidths s p w g rx rg).pending = s.pending ∧
      (setWidths s p w g rx rg).memo = s.memo ∧
      (setWidths s p w g rx rg).zenith = s.zenith ∧
      (setWidths s p w g rx rg).jtag = s.jtag ∧
      (setWidths s p w g rx rg).dram.cells = s.dram.cells := by simp [setWidths]

@[simp] theorem hostUp_keeps (s : State) (mask : BitVec 8) (partner : BitVec 8) :
    (hostUp s mask partner).pending = s.pending ∧
      (hostUp s mask partner).memo = s.memo ∧
      (hostUp s mask partner).zenith = s.zenith ∧
      (hostUp s mask partner).jtag = s.jtag ∧
      (hostUp s mask partner).dram.cells = s.dram.cells := by simp [hostUp]

@[simp] theorem step10_keeps (b : BootInput) (s : State) :
    (step10 b s).pending = s.pending ∧
      (step10 b s).memo = s.memo ∧
      (step10 b s).zenith = s.zenith ∧
      (step10 b s).jtag = s.jtag ∧
      (step10 b s).dram.cells = s.dram.cells := by
  unfold step10
  repeat' split
  all_goals simp

@[simp] theorem stageChan_keeps (s : State) (ch : Nat) (r : ChanRec) :
    (stageChan s ch r).pending = s.pending ∧
      (stageChan s ch r).memo = s.memo ∧
      (stageChan s ch r).zenith = s.zenith ∧
      (stageChan s ch r).jtag = s.jtag ∧
      (stageChan s ch r).dram.cells = s.dram.cells := by simp [stageChan]

@[simp] theorem restoreBlock_keeps (s : State) (k : Nat) :
    (restoreBlock s k).pending = s.pending ∧
      (restoreBlock s k).memo = s.memo ∧
      (restoreBlock s k).zenith = s.zenith ∧
      (restoreBlock s k).jtag = s.jtag ∧
      (restoreBlock s k).dram.cells = s.dram.cells := by simp [restoreBlock]

@[simp] theorem restoreBlocks_keeps (s : State) :
    (restoreBlocks s).1.pending = s.pending ∧
      (restoreBlocks s).1.memo = s.memo ∧
      (restoreBlocks s).1.zenith = s.zenith ∧
      (restoreBlocks s).1.jtag = s.jtag ∧
      (restoreBlocks s).1.dram.cells = s.dram.cells := by
  refine ⟨?_, ?_, ?_, ?_, ?_⟩ <;> (unfold restoreBlocks; dsimp only; repeat' (first | (simp; done) | split | refine (foldl_pending _ _ _ (fun _ _ => ?_)).trans ?_ | refine (foldl_memo _ _ _ (fun _ _ => ?_)).trans ?_ | refine (foldl_zenith _ _ _ (fun _ _ => ?_)).trans ?_ | refine (foldl_jtag _ _ _ (fun _ _ => ?_)).trans ?_ | refine (foldl_cells _ _ _ (fun _ _ => ?_)).trans ?_ | simp))

@[simp] theorem afterReading_keeps (s : State) :
    (afterReading s).pending = s.pending ∧
      (afterReading s).memo = s.memo ∧
      (afterReading s).zenith = s.zenith ∧
      (afterReading s).jtag = s.jtag ∧
      (afterReading s).dram.cells = s.dram.cells := by
  unfold afterReading
  dsimp only
  repeat' split
  all_goals simp

@[simp] theorem bankLoads_keeps (s : State) (u : Nat) :
    (bankLoads s u).pending = s.pending ∧
      (bankLoads s u).memo = s.memo ∧
      (bankLoads s u).zenith = s.zenith ∧
      (bankLoads s u).jtag = s.jtag ∧
      (bankLoads s u).dram.cells = s.dram.cells := by simp [bankLoads]

@[simp] theorem portOff_keeps (s : State) (p : Port) :
    (portOff s p).pending = s.pending ∧
      (portOff s p).memo = s.memo ∧
      (portOff s p).zenith = s.zenith ∧
      (portOff s p).jtag = s.jtag ∧
      (portOff s p).dram.cells = s.dram.cells := by simp [portOff]

@[simp] theorem quietPort_keeps (s : State) (p : Port) :
    (quietPort s p).pending = s.pending ∧
      (quietPort s p).memo = s.memo ∧
      (quietPort s p).zenith = s.zenith ∧
      (quietPort s p).jtag = s.jtag ∧
      (quietPort s p).dram.cells = s.dram.cells := by simp [quietPort]

@[simp] theorem portDoze_keeps (s : State) (p : Port) :
    (portDoze s p).pending = s.pending ∧
      (portDoze s p).memo = s.memo ∧
      (portDoze s p).zenith = s.zenith ∧
      (portDoze s p).jtag = s.jtag ∧
      (portDoze s p).dram.cells = s.dram.cells := by simp [portDoze]

@[simp] theorem startExit_keeps (s : State) (p : Port) :
    (startExit s p).pending = s.pending ∧
      (startExit s p).memo = s.memo ∧
      (startExit s p).zenith = s.zenith ∧
      (startExit s p).jtag = s.jtag ∧
      (startExit s p).dram.cells = s.dram.cells := by simp [startExit]

@[simp] theorem dramSleep_keeps (s : State) :
    (dramSleep s).pending = s.pending ∧
      (dramSleep s).memo = s.memo ∧
      (dramSleep s).zenith = s.zenith ∧
      (dramSleep s).jtag = s.jtag ∧
      (dramSleep s).dram.cells = s.dram.cells := by simp [dramSleep]

@[simp] theorem toState_keeps (s : State) (u : Nat) (st : UState) :
    (toState s u st).pending = s.pending ∧
      (toState s u st).memo = s.memo ∧
      (toState s u st).zenith = s.zenith ∧
      (toState s u st).jtag = s.jtag ∧
      (toState s u st).dram.cells = s.dram.cells := by
  unfold toState
  repeat' split
  all_goals simp

@[simp] theorem allDoze_keeps (s : State) :
    (allDoze s).pending = s.pending ∧
      (allDoze s).memo = s.memo ∧
      (allDoze s).zenith = s.zenith ∧
      (allDoze s).jtag = s.jtag ∧
      (allDoze s).dram.cells = s.dram.cells := by simp [allDoze]

@[simp] theorem makeDue_keeps (s : State) (item : CalItem) (cause : Nat) :
    (makeDue s item cause).pending = s.pending ∧
      (makeDue s item cause).memo = s.memo ∧
      (makeDue s item cause).zenith = s.zenith ∧
      (makeDue s item cause).jtag = s.jtag ∧
      (makeDue s item cause).dram.cells = s.dram.cells := by simp [makeDue]

@[simp] theorem dueByTemperature_keeps (s : State) :
    (dueByTemperature s).pending = s.pending ∧
      (dueByTemperature s).memo = s.memo ∧
      (dueByTemperature s).zenith = s.zenith ∧
      (dueByTemperature s).jtag = s.jtag ∧
      (dueByTemperature s).dram.cells = s.dram.cells := by simp [dueByTemperature]

@[simp] theorem trimRings_keeps (s : State) (raw : List Int) :
    (trimRings s raw).pending = s.pending ∧
      (trimRings s raw).memo = s.memo ∧
      (trimRings s raw).zenith = s.zenith ∧
      (trimRings s raw).jtag = s.jtag ∧
      (trimRings s raw).dram.cells = s.dram.cells := by simp [trimRings]

@[simp] theorem noteAccept_keeps (s : State) (item : CalItem) :
    (noteAccept s item).pending = s.pending ∧
      (noteAccept s item).memo = s.memo ∧
      (noteAccept s item).zenith = s.zenith ∧
      (noteAccept s item).jtag = s.jtag ∧
      (noteAccept s item).dram.cells = s.dram.cells := by simp [noteAccept]

@[simp] theorem stageAurora_keeps (s : State) (n : Nat) (r : AurRec) :
    (stageAurora s n r).pending = s.pending ∧
      (stageAurora s n r).memo = s.memo ∧
      (stageAurora s n r).zenith = s.zenith ∧
      (stageAurora s n r).jtag = s.jtag ∧
      (stageAurora s n r).dram.cells = s.dram.cells := by simp [stageAurora]

@[simp] theorem stageItem_keeps (s : State) (item : CalItem) (a : List Int) (b : List Int) :
    (stageItem s item a b).pending = s.pending ∧
      (stageItem s item a b).memo = s.memo ∧
      (stageItem s item a b).zenith = s.zenith ∧
      (stageItem s item a b).jtag = s.jtag ∧
      (stageItem s item a b).dram.cells = s.dram.cells := by
  unfold stageItem
  repeat' split
  all_goals simp

@[simp] theorem nimbusNotice_keeps (s : State) :
    (nimbusNotice s).pending = s.pending ∧
      (nimbusNotice s).memo = s.memo ∧
      (nimbusNotice s).zenith = s.zenith ∧
      (nimbusNotice s).jtag = s.jtag ∧
      (nimbusNotice s).dram.cells = s.dram.cells := by simp [nimbusNotice]

@[simp] theorem startTwinkle_keeps (s : State) :
    (startTwinkle s).pending = s.pending ∧
      (startTwinkle s).memo = s.memo ∧
      (startTwinkle s).zenith = s.zenith ∧
      (startTwinkle s).jtag = s.jtag ∧
      (startTwinkle s).dram.cells = s.dram.cells := by simp [startTwinkle]

@[simp] theorem wakeAll_keeps (s : State) :
    (wakeAll s).pending = s.pending ∧
      (wakeAll s).memo = s.memo ∧
      (wakeAll s).zenith = s.zenith ∧
      (wakeAll s).jtag = s.jtag ∧
      (wakeAll s).dram.cells = s.dram.cells := by simp [wakeAll]

@[simp] theorem step12_keeps (b : BootInput) (s : State) :
    (step12 b s).pending = s.pending ∧
      (step12 b s).memo = s.memo ∧
      (step12 b s).zenith = s.zenith ∧
      (step12 b s).jtag = s.jtag ∧
      (step12 b s).dram.cells = s.dram.cells := by simp [step12]

@[simp] theorem step5_keeps (b : BootInput) (s : State) :
    (step5 b s).pending = s.pending ∧
      (step5 b s).memo = s.memo ∧
      (step5 b s).zenith = s.zenith ∧
      (step5 b s).jtag = s.jtag ∧
      (step5 b s).dram.cells = s.dram.cells := by simp [step5]

@[simp] theorem lockedCount_keeps (s : State) (n : Nat) :
    (lockedCount s n).pending = s.pending ∧
      (lockedCount s n).memo = s.memo ∧
      (lockedCount s n).zenith = s.zenith ∧
      (lockedCount s n).jtag = s.jtag ∧
      (lockedCount s n).dram.cells = s.dram.cells := by simp [lockedCount]

@[simp] theorem resetRegs_keeps (s : State) (sel : Nat → Bool) :
    (resetRegs s sel).pending = s.pending ∧
      (resetRegs s sel).memo = s.memo ∧
      (resetRegs s sel).zenith = s.zenith ∧
      (resetRegs s sel).jtag = s.jtag ∧
      (resetRegs s sel).dram.cells = s.dram.cells := by simp [resetRegs]

@[simp] theorem reinit_keeps (s : State) :
    (reinit s).pending = s.pending ∧
      (reinit s).memo = s.memo ∧
      (reinit s).zenith = s.zenith ∧
      (reinit s).jtag = s.jtag ∧
      (reinit s).dram.cells = s.dram.cells := by simp [reinit]

@[simp] theorem tryTakeover_keeps (s : State) :
    (tryTakeover s).pending = s.pending ∧
      (tryTakeover s).memo = s.memo ∧
      (tryTakeover s).zenith = s.zenith ∧
      (tryTakeover s).jtag = s.jtag ∧
      (tryTakeover s).dram.cells = s.dram.cells := by simp [tryTakeover]

@[simp] theorem charge_keeps (s : State) (d : Nat) (fi : Nat) (base : Nat) (v : Nat) :
    (charge s d fi base v).pending = s.pending ∧
      (charge s d fi base v).memo = s.memo ∧
      (charge s d fi base v).zenith = s.zenith ∧
      (charge s d fi base v).jtag = s.jtag ∧
      (charge s d fi base v).dram.cells = s.dram.cells := by simp [charge]

@[simp] theorem setDip_keeps (s : State) (r : Rail) (x : Option Dip) :
    (setDip s r x).pending = s.pending ∧
      (setDip s r x).memo = s.memo ∧
      (setDip s r x).zenith = s.zenith ∧
      (setDip s r x).jtag = s.jtag ∧
      (setDip s r x).dram.cells = s.dram.cells := by
  unfold setDip
  repeat' split
  all_goals simp

@[simp] theorem endStep10_keeps (b : BootInput) (s : State) :
    (endStep10 b s).pending = s.pending ∧
      (endStep10 b s).memo = s.memo ∧
      (endStep10 b s).zenith = s.zenith ∧
      (endStep10 b s).jtag = s.jtag ∧
      (endStep10 b s).dram.cells = s.dram.cells := by simp [endStep10]

@[simp] theorem queueDamage_keeps (s : State) (q : Nat) (dmg : Nat) :
    (queueDamage s q dmg).pending = s.pending ∧
      (queueDamage s q dmg).memo = s.memo ∧
      (queueDamage s q dmg).zenith = s.zenith ∧
      (queueDamage s q dmg).jtag = s.jtag ∧
      (queueDamage s q dmg).dram.cells = s.dram.cells := by simp [queueDamage]

@[simp] theorem writePart_keeps (s : State) (q : Nat) (n : Nat) (job : Word) :
    (writePart s q n job).pending = s.pending ∧
      (writePart s q n job).memo = s.memo ∧
      (writePart s q n job).zenith = s.zenith ∧
      (writePart s q n job).jtag = s.jtag ∧
      (writePart s q n job).dram.cells = s.dram.cells := by simp [writePart]

@[simp] theorem releaseWriting_keeps (s : State) (q : Nat) :
    (releaseWriting s q).pending = s.pending ∧
      (releaseWriting s q).memo = s.memo ∧
      (releaseWriting s q).zenith = s.zenith ∧
      (releaseWriting s q).jtag = s.jtag ∧
      (releaseWriting s q).dram.cells = s.dram.cells := by simp [releaseWriting]

@[simp] theorem endChange_keeps (s : State) :
    (endChange s).pending = s.pending ∧
      (endChange s).memo = s.memo ∧
      (endChange s).zenith = s.zenith ∧
      (endChange s).jtag = s.jtag ∧
      (endChange s).dram.cells = s.dram.cells := by
  unfold endChange
  repeat' split
  all_goals simp

@[simp] theorem issueHeld_keeps (s : State) :
    (issueHeld s).pending = s.pending ∧
      (issueHeld s).memo = s.memo ∧
      (issueHeld s).zenith = s.zenith ∧
      (issueHeld s).jtag = s.jtag ∧
      (issueHeld s).dram.cells = s.dram.cells := by simp [issueHeld]

@[simp] theorem ddrLock_keeps (s : State) :
    (ddrLock s).pending = s.pending ∧
      (ddrLock s).memo = s.memo ∧
      (ddrLock s).zenith = s.zenith ∧
      (ddrLock s).jtag = s.jtag ∧
      (ddrLock s).dram.cells = s.dram.cells := by
  unfold ddrLock
  dsimp only
  repeat' split
  all_goals simp

@[simp] theorem onLock_keeps (s : State) (n : Nat) :
    (onLock s n).pending = s.pending ∧
      (onLock s n).memo = s.memo ∧
      (onLock s n).zenith = s.zenith ∧
      (onLock s n).jtag = s.jtag ∧
      (onLock s n).dram.cells = s.dram.cells := by simp [onLock]

@[simp] theorem rewindRings_keeps (s : State) (pins : List Nat) (marks : Tbl Nat) :
    (rewindRings s pins marks).pending = s.pending ∧
      (rewindRings s pins marks).memo = s.memo ∧
      (rewindRings s pins marks).zenith = s.zenith ∧
      (rewindRings s pins marks).jtag = s.jtag ∧
      (rewindRings s pins marks).dram.cells = s.dram.cells := by simp [rewindRings]

@[simp] theorem clearLatches_keeps (s : State) (d : Nat) (fi : Nat) (n : Nat) :
    (clearLatches s d fi n).pending = s.pending ∧
      (clearLatches s d fi n).memo = s.memo ∧
      (clearLatches s d fi n).zenith = s.zenith ∧
      (clearLatches s d fi n).jtag = s.jtag ∧
      (clearLatches s d fi n).dram.cells = s.dram.cells := by simp [clearLatches]

@[simp] theorem noteStall_keeps (s : State) (d : Nat) (ch : Nat) :
    (noteStall s d ch).pending = s.pending ∧
      (noteStall s d ch).memo = s.memo ∧
      (noteStall s d ch).zenith = s.zenith ∧
      (noteStall s d ch).jtag = s.jtag ∧
      (noteStall s d ch).dram.cells = s.dram.cells := by simp [noteStall]

@[simp] theorem takeAnswers_keeps (s : State) (d : Nat) (f : Flow) (n : Nat) (l : List Answer) :
    (takeAnswers s d f n l).pending = s.pending ∧
      (takeAnswers s d f n l).memo = s.memo ∧
      (takeAnswers s d f n l).zenith = s.zenith ∧
      (takeAnswers s d f n l).jtag = s.jtag ∧
      (takeAnswers s d f n l).dram.cells = s.dram.cells := by simp [takeAnswers]

@[simp] theorem pushRun_keeps (s : State) (d : Nat) (fi : Nat) (n0 : Nat) :
    (pushRun s d fi n0).pending = s.pending ∧
      (pushRun s d fi n0).memo = s.memo ∧
      (pushRun s d fi n0).zenith = s.zenith ∧
      (pushRun s d fi n0).jtag = s.jtag ∧
      (pushRun s d fi n0).dram.cells = s.dram.cells := by
  unfold pushRun
  dsimp only
  repeat' split
  all_goals simp

@[simp] theorem ledgBack_keeps (s : State) (d : Nat) (fi : Nat) (f : Flow) (e : Emit) :
    (ledgBack s d fi f e).1.pending = s.pending ∧
      (ledgBack s d fi f e).1.memo = s.memo ∧
      (ledgBack s d fi f e).1.zenith = s.zenith ∧
      (ledgBack s d fi f e).1.jtag = s.jtag ∧
      (ledgBack s d fi f e).1.dram.cells = s.dram.cells := by
  unfold ledgBack
  repeat' split
  all_goals simp

@[simp] theorem issueCommit_keeps (s : State) (d : Nat) (fi : Nat) (v : Nat) (item : Nat) :
    (issueCommit s d fi v item).pending = s.pending ∧
      (issueCommit s d fi v item).memo = s.memo ∧
      (issueCommit s d fi v item).zenith = s.zenith ∧
      (issueCommit s d fi v item).jtag = s.jtag ∧
      (issueCommit s d fi v item).dram.cells = s.dram.cells := by simp [issueCommit]

@[simp] theorem selectItem_keeps (s : State) (d : Nat) (k : Nat) (fi : Nat) (f : Flow) (e : Emit) (item : Nat) :
    (selectItem s d k fi f e item).pending = s.pending ∧
      (selectItem s d k fi f e item).memo = s.memo ∧
      (selectItem s d k fi f e item).zenith = s.zenith ∧
      (selectItem s d k fi f e item).jtag = s.jtag ∧
      (selectItem s d k fi f e item).dram.cells = s.dram.cells := by simp [selectItem]

@[simp] theorem ledg_keeps (s : State) (d : Nat) (k : Nat) (fi : Nat) (f : Flow) (e : Emit) (commit : Bool) (select : Option (Bool × Nat)) :
    (ledg s d k fi f e commit select).pending = s.pending ∧
      (ledg s d k fi f e commit select).memo = s.memo ∧
      (ledg s d k fi f e commit select).zenith = s.zenith ∧
      (ledg s d k fi f e commit select).jtag = s.jtag ∧
      (ledg s d k fi f e commit select).dram.cells = s.dram.cells := by
  unfold ledg
  repeat' split
  all_goals simp

@[simp] theorem closeSegment_keeps (s : State) (b : Nat) (fl : Nat) :
    (closeSegment s b fl).pending = s.pending ∧
      (closeSegment s b fl).memo = s.memo ∧
      (closeSegment s b fl).zenith = s.zenith ∧
      (closeSegment s b fl).jtag = s.jtag ∧
      (closeSegment s b fl).dram.cells = s.dram.cells := by
  unfold closeSegment
  dsimp only
  repeat' split
  all_goals simp

@[simp] theorem closeRecord_keeps (s : State) (b : Nat) (fl : Nat) :
    (closeRecord s b fl).pending = s.pending ∧
      (closeRecord s b fl).memo = s.memo ∧
      (closeRecord s b fl).zenith = s.zenith ∧
      (closeRecord s b fl).jtag = s.jtag ∧
      (closeRecord s b fl).dram.cells = s.dram.cells := by
  unfold closeRecord
  dsimp only
  repeat' split
  all_goals simp

@[simp] theorem overflow_keeps (s : State) (b : Nat) :
    (overflow s b).pending = s.pending ∧
      (overflow s b).memo = s.memo ∧
      (overflow s b).zenith = s.zenith ∧
      (overflow s b).jtag = s.jtag ∧
      (overflow s b).dram.cells = s.dram.cells := by
  unfold overflow
  dsimp only
  repeat' split
  all_goals simp

@[simp] theorem buffer_keeps (s : State) (b : Nat) (n : Nat) :
    (buffer s b n).2.pending = s.pending ∧
      (buffer s b n).2.memo = s.memo ∧
      (buffer s b n).2.zenith = s.zenith ∧
      (buffer s b n).2.jtag = s.jtag ∧
      (buffer s b n).2.dram.cells = s.dram.cells := by
  unfold buffer
  dsimp only
  repeat' split
  all_goals simp

@[simp] theorem collectWord_keeps (s : State) (b : Nat) (p : Bytes) (x : Dom) (w : EventWord) :
    (collectWord s b p x w).pending = s.pending ∧
      (collectWord s b p x w).memo = s.memo ∧
      (collectWord s b p x w).zenith = s.zenith ∧
      (collectWord s b p x w).jtag = s.jtag ∧
      (collectWord s b p x w).dram.cells = s.dram.cells := by
  unfold collectWord
  repeat' split
  all_goals simp

@[simp] theorem arriveWord_keeps (s : State) (b : Nat) (e : Nat × EventWord) :
    (arriveWord s b e).pending = s.pending ∧
      (arriveWord s b e).memo = s.memo ∧
      (arriveWord s b e).zenith = s.zenith ∧
      (arriveWord s b e).jtag = s.jtag ∧
      (arriveWord s b e).dram.cells = s.dram.cells := by
  unfold arriveWord
  dsimp only
  repeat' split
  all_goals simp

@[simp] theorem endUnplayed_keeps (s : State) (d : Nat) (status : Nat) (reason : Nat) :
    (endUnplayed s d status reason).pending = s.pending ∧
      (endUnplayed s d status reason).memo = s.memo ∧
      (endUnplayed s d status reason).zenith = s.zenith ∧
      (endUnplayed s d status reason).jtag = s.jtag ∧
      (endUnplayed s d status reason).dram.cells = s.dram.cells := by simp [endUnplayed]

@[simp] theorem cancelSlot_keeps (s : State) (d : Nat) :
    (cancelSlot s d).pending = s.pending ∧
      (cancelSlot s d).memo = s.memo ∧
      (cancelSlot s d).zenith = s.zenith ∧
      (cancelSlot s d).jtag = s.jtag ∧
      (cancelSlot s d).dram.cells = s.dram.cells := by
  unfold cancelSlot
  dsimp only
  repeat' split
  all_goals simp

@[simp] theorem placeLaunch_keeps (s : State) (ev : Nat) (timed : Bool) (t : ZTime) :
    (placeLaunch s ev timed t).pending = s.pending ∧
      (placeLaunch s ev timed t).memo = s.memo ∧
      (placeLaunch s ev timed t).zenith = s.zenith ∧
      (placeLaunch s ev timed t).jtag = s.jtag ∧
      (placeLaunch s ev timed t).dram.cells = s.dram.cells := by simp [placeLaunch]

@[simp] theorem makeLaunch_keeps (s : State) (l : Launch) (late : Bool) :
    (makeLaunch s l late).pending = s.pending ∧
      (makeLaunch s l late).memo = s.memo ∧
      (makeLaunch s l late).zenith = s.zenith ∧
      (makeLaunch s l late).jtag = s.jtag ∧
      (makeLaunch s l late).dram.cells = s.dram.cells := by simp [makeLaunch]

@[simp] theorem beginRecovery_keeps (s : State) (level : Nat) :
    (beginRecovery s level).pending = s.pending ∧
      (beginRecovery s level).memo = s.memo ∧
      (beginRecovery s level).zenith = s.zenith ∧
      (beginRecovery s level).jtag = s.jtag ∧
      (beginRecovery s level).dram.cells = s.dram.cells := by simp [beginRecovery]

@[simp] theorem handleRecover_keeps (s : State) (level : Nat) :
    (handleRecover s level).pending = s.pending ∧
      (handleRecover s level).memo = s.memo ∧
      (handleRecover s level).zenith = s.zenith ∧
      (handleRecover s level).jtag = s.jtag ∧
      (handleRecover s level).dram.cells = s.dram.cells := by simp [handleRecover]

@[simp] theorem doRecover_keeps (f : Frame) (s : State) :
    (doRecover f s).pending = s.pending ∧
      (doRecover f s).memo = s.memo ∧
      (doRecover f s).zenith = s.zenith ∧
      (doRecover f s).jtag = s.jtag ∧
      (doRecover f s).dram.cells = s.dram.cells := by simp [doRecover]

@[simp] theorem holdUnit_keeps (s : State) (u : Nat) (msHold : Nat) :
    (holdUnit s u msHold).pending = s.pending ∧
      (holdUnit s u msHold).memo = s.memo ∧
      (holdUnit s u msHold).zenith = s.zenith ∧
      (holdUnit s u msHold).jtag = s.jtag ∧
      (holdUnit s u msHold).dram.cells = s.dram.cells := by simp [holdUnit]

@[simp] theorem govern_keeps (s : State) (b : BootInput) (useB : Bool) :
    (govern s b useB).pending = s.pending ∧
      (govern s b useB).memo = s.memo ∧
      (govern s b useB).zenith = s.zenith ∧
      (govern s b useB).jtag = s.jtag ∧
      (govern s b useB).dram.cells = s.dram.cells := by simp [govern]

@[simp] theorem begin__keeps (s : State) (kind : Nat) (level : Nat) (lost : Bool) :
    (begin_ s kind level lost).pending = s.pending ∧
      (begin_ s kind level lost).memo = s.memo ∧
      (begin_ s kind level lost).zenith = s.zenith ∧
      (begin_ s kind level lost).jtag = s.jtag ∧
      (begin_ s kind level lost).dram.cells = s.dram.cells := by simp [begin_]

@[simp] theorem doSyncRequest_keeps (f : Frame) (rx : ZTime) (s : State) :
    (doSyncRequest f rx s).pending = s.pending ∧
      (doSyncRequest f rx s).memo = s.memo ∧
      (doSyncRequest f rx s).zenith = s.zenith ∧
      (doSyncRequest f rx s).jtag = s.jtag ∧
      (doSyncRequest f rx s).dram.cells = s.dram.cells := by simp [doSyncRequest]

@[simp] theorem freeRange_keeps (s : State) (p : Bytes) :
    (freeRange s p).pending = s.pending ∧
      (freeRange s p).memo = s.memo ∧
      (freeRange s p).zenith = s.zenith ∧
      (freeRange s p).jtag = s.jtag ∧
      (freeRange s p).dram.cells = s.dram.cells := by simp [freeRange]

@[simp] theorem machineCheckAt_keeps (s : State) (d : Nat) (c : Nat) (src : Nat) :
    (machineCheckAt s d c src).pending = s.pending ∧
      (machineCheckAt s d c src).memo = s.memo ∧
      (machineCheckAt s d c src).zenith = s.zenith ∧
      (machineCheckAt s d c src).jtag = s.jtag ∧
      (machineCheckAt s d c src).dram.cells = s.dram.cells := by simp [machineCheckAt]

@[simp] theorem unitCheck_keeps (s : State) (d : Nat) (src : Nat) :
    (unitCheck s d src).pending = s.pending ∧
      (unitCheck s d src).memo = s.memo ∧
      (unitCheck s d src).zenith = s.zenith ∧
      (unitCheck s d src).jtag = s.jtag ∧
      (unitCheck s d src).dram.cells = s.dram.cells := by simp [unitCheck]

@[simp] theorem partnerAbsent_keeps (s : State) (d : Nat) :
    (partnerAbsent s d).pending = s.pending ∧
      (partnerAbsent s d).memo = s.memo ∧
      (partnerAbsent s d).zenith = s.zenith ∧
      (partnerAbsent s d).jtag = s.jtag ∧
      (partnerAbsent s d).dram.cells = s.dram.cells := by simp [partnerAbsent]

@[simp] theorem diverge_keeps (s : State) (d : Nat) :
    (diverge s d).pending = s.pending ∧
      (diverge s d).memo = s.memo ∧
      (diverge s d).zenith = s.zenith ∧
      (diverge s d).jtag = s.jtag ∧
      (diverge s d).dram.cells = s.dram.cells := by simp [diverge]

@[simp] theorem settleDigests_keeps (s : State) (d : Nat) :
    (settleDigests s d).pending = s.pending ∧
      (settleDigests s d).memo = s.memo ∧
      (settleDigests s d).zenith = s.zenith ∧
      (settleDigests s d).jtag = s.jtag ∧
      (settleDigests s d).dram.cells = s.dram.cells := by simp [settleDigests]

@[simp] theorem doPairDigest_keeps (f : Frame) (s : State) :
    (doPairDigest f s).pending = s.pending ∧
      (doPairDigest f s).memo = s.memo ∧
      (doPairDigest f s).zenith = s.zenith ∧
      (doPairDigest f s).jtag = s.jtag ∧
      (doPairDigest f s).dram.cells = s.dram.cells := by
  unfold doPairDigest
  dsimp only
  repeat' split
  all_goals simp

@[simp] theorem doPairTakeover_keeps (f : Frame) (s : State) :
    (doPairTakeover f s).pending = s.pending ∧
      (doPairTakeover f s).memo = s.memo ∧
      (doPairTakeover f s).zenith = s.zenith ∧
      (doPairTakeover f s).jtag = s.jtag ∧
      (doPairTakeover f s).dram.cells = s.dram.cells := by simp [doPairTakeover]

@[simp] theorem looseContext_keeps (s : State) (ix : Nat) :
    (looseContext s ix).pending = s.pending ∧
      (looseContext s ix).memo = s.memo ∧
      (looseContext s ix).zenith = s.zenith ∧
      (looseContext s ix).jtag = s.jtag ∧
      (looseContext s ix).dram.cells = s.dram.cells := by simp [looseContext]

@[simp] theorem doRead_keeps (s : State) (f : Frame) (parity : Option Nat) :
    (doRead s f parity).pending = s.pending ∧
      (doRead s f parity).memo = s.memo ∧
      (doRead s f parity).zenith = s.zenith ∧
      (doRead s f parity).jtag = s.jtag ∧
      (doRead s f parity).dram.cells = s.dram.cells := by
  unfold doRead
  dsimp only
  repeat' split
  all_goals simp

@[simp] theorem recordStop_keeps (s : State) (d : Nat) (k : Nat) (v : Nat) :
    (recordStop s d k v).pending = s.pending ∧
      (recordStop s d k v).memo = s.memo ∧
      (recordStop s d k v).zenith = s.zenith ∧
      (recordStop s d k v).jtag = s.jtag ∧
      (recordStop s d k v).dram.cells = s.dram.cells := by simp [recordStop]

@[simp] theorem presentStop_keeps (s : State) (d : Nat) (k : Nat) (v : Nat) :
    (presentStop s d k v).pending = s.pending ∧
      (presentStop s d k v).memo = s.memo ∧
      (presentStop s d k v).zenith = s.zenith ∧
      (presentStop s d k v).jtag = s.jtag ∧
      (presentStop s d k v).dram.cells = s.dram.cells := by simp [presentStop]

@[simp] theorem countFail_keeps (s : State) (d : Nat) (k : Nat) (x : Failing) :
    (countFail s d k x).pending = s.pending ∧
      (countFail s d k x).memo = s.memo ∧
      (countFail s d k x).zenith = s.zenith ∧
      (countFail s d k x).jtag = s.jtag ∧
      (countFail s d k x).dram.cells = s.dram.cells := by simp [countFail]

@[simp] theorem timeoutFail_keeps (s : State) (d : Nat) (k : Nat) (v : Nat) (item : Nat) :
    (timeoutFail s d k v item).pending = s.pending ∧
      (timeoutFail s d k v item).memo = s.memo ∧
      (timeoutFail s d k v item).zenith = s.zenith ∧
      (timeoutFail s d k v item).jtag = s.jtag ∧
      (timeoutFail s d k v item).dram.cells = s.dram.cells := by simp [timeoutFail]

@[simp] theorem matchTimeout_keeps (s : State) (d : Nat) (k : Nat) (v : Nat) (item : Nat) :
    (matchTimeout s d k v item).pending = s.pending ∧
      (matchTimeout s d k v item).memo = s.memo ∧
      (matchTimeout s d k v item).zenith = s.zenith ∧
      (matchTimeout s d k v item).jtag = s.jtag ∧
      (matchTimeout s d k v item).dram.cells = s.dram.cells := by simp [matchTimeout]

@[simp] theorem matchBegin_keeps (s : State) (d : Nat) (fi : Nat) (v : Nat) (block : Nat) (cond : Nat) :
    (matchBegin s d fi v block cond).pending = s.pending ∧
      (matchBegin s d fi v block cond).memo = s.memo ∧
      (matchBegin s d fi v block cond).zenith = s.zenith ∧
      (matchBegin s d fi v block cond).jtag = s.jtag ∧
      (matchBegin s d fi v block cond).dram.cells = s.dram.cells := by simp [matchBegin]

@[simp] theorem doAlu_keeps (s : State) (fb : Nat) (m : Micro) :
    (doAlu s fb m).2.pending = s.pending ∧
      (doAlu s fb m).2.memo = s.memo ∧
      (doAlu s fb m).2.zenith = s.zenith ∧
      (doAlu s fb m).2.jtag = s.jtag ∧
      (doAlu s fb m).2.dram.cells = s.dram.cells := by
  unfold doAlu
  dsimp only
  repeat' split
  all_goals simp

@[simp] theorem tickDram_keeps (s : State) :
    (tickDram s).pending = s.pending ∧
      (tickDram s).memo = s.memo ∧
      (tickDram s).zenith = s.zenith ∧
      (tickDram s).jtag = s.jtag ∧
      (tickDram s).dram.cells = s.dram.cells := by simp [tickDram]

@[simp] theorem armVirgas_keeps (s : State) (b : Nat) (from_ : Nat) :
    (armVirgas s b from_).pending = s.pending ∧
      (armVirgas s b from_).memo = s.memo ∧
      (armVirgas s b from_).zenith = s.zenith ∧
      (armVirgas s b from_).jtag = s.jtag ∧
      (armVirgas s b from_).dram.cells = s.dram.cells := by simp [armVirgas]

@[simp] theorem armSquall_keeps (s : State) (b : Nat) (v : Nat) :
    (armSquall s b v).pending = s.pending ∧
      (armSquall s b v).memo = s.memo ∧
      (armSquall s b v).zenith = s.zenith ∧
      (armSquall s b v).jtag = s.jtag ∧
      (armSquall s b v).dram.cells = s.dram.cells := by
  unfold armSquall
  repeat' split
  all_goals simp

@[simp] theorem openSegment_keeps (s : State) (b : Nat) (p : Bytes) (x : Dom) (v : Nat) (trigS : Nat) (src : Nat) :
    (openSegment s b p x v trigS src).pending = s.pending ∧
      (openSegment s b p x v trigS src).memo = s.memo ∧
      (openSegment s b p x v trigS src).zenith = s.zenith ∧
      (openSegment s b p x v trigS src).jtag = s.jtag ∧
      (openSegment s b p x v trigS src).dram.cells = s.dram.cells := by simp [openSegment]

@[simp] theorem raiseTrigger_keeps (s : State) (b : Nat) (v : Nat) (trigS : Nat) (force : Bool) (take : Bool) :
    (raiseTrigger s b v trigS force take).pending = s.pending ∧
      (raiseTrigger s b v trigS force take).memo = s.memo ∧
      (raiseTrigger s b v trigS force take).zenith = s.zenith ∧
      (raiseTrigger s b v trigS force take).jtag = s.jtag ∧
      (raiseTrigger s b v trigS force take).dram.cells = s.dram.cells := by
  unfold raiseTrigger
  repeat' split
  all_goals simp

@[simp] theorem forceSquall_keeps (s : State) (b : Nat) (v : Nat) :
    (forceSquall s b v).pending = s.pending ∧
      (forceSquall s b v).memo = s.memo ∧
      (forceSquall s b v).zenith = s.zenith ∧
      (forceSquall s b v).jtag = s.jtag ∧
      (forceSquall s b v).dram.cells = s.dram.cells := by
  unfold forceSquall
  dsimp only
  repeat' split
  all_goals simp

@[simp] theorem sequencer_keeps (s : State) (b : Nat) (limit : Option Nat) :
    (sequencer s b limit).pending = s.pending ∧
      (sequencer s b limit).memo = s.memo ∧
      (sequencer s b limit).zenith = s.zenith ∧
      (sequencer s b limit).jtag = s.jtag ∧
      (sequencer s b limit).dram.cells = s.dram.cells := by
  unfold sequencer
  dsimp only
  repeat' split
  all_goals simp

@[simp] theorem stopSquall_keeps (s : State) (b : Nat) (v : Nat) :
    (stopSquall s b v).pending = s.pending ∧
      (stopSquall s b v).memo = s.memo ∧
      (stopSquall s b v).zenith = s.zenith ∧
      (stopSquall s b v).jtag = s.jtag ∧
      (stopSquall s b v).dram.cells = s.dram.cells := by simp [stopSquall]

@[simp] theorem actCapt_keeps (s : State) (b : Nat) (c : Nat × CaptAction) :
    (actCapt s b c).pending = s.pending ∧
      (actCapt s b c).memo = s.memo ∧
      (actCapt s b c).zenith = s.zenith ∧
      (actCapt s b c).jtag = s.jtag ∧
      (actCapt s b c).dram.cells = s.dram.cells := by
  unfold actCapt
  repeat' split
  all_goals simp

@[simp] theorem takeCapt_keeps (s : State) (b : Nat) (v : Nat) (a : CaptAction) :
    (takeCapt s b v a).pending = s.pending ∧
      (takeCapt s b v a).memo = s.memo ∧
      (takeCapt s b v a).zenith = s.zenith ∧
      (takeCapt s b v a).jtag = s.jtag ∧
      (takeCapt s b v a).dram.cells = s.dram.cells := by
  unfold takeCapt
  dsimp only
  repeat' split
  all_goals simp

@[simp] theorem sendFragment_keeps (s : State) (b : Nat) (d : Nat) (q : Squall) (c : CapRec) (r : List CapRec) :
    (sendFragment s b d q c r).pending = s.pending ∧
      (sendFragment s b d q c r).memo = s.memo ∧
      (sendFragment s b d q c r).zenith = s.zenith ∧
      (sendFragment s b d q c r).jtag = s.jtag ∧
      (sendFragment s b d q c r).dram.cells = s.dram.cells := by simp [sendFragment]

@[simp] theorem pushBlock_keeps (s : State) (d : Nat) (fi : Nat) (n0 : Nat) :
    (pushBlock s d fi n0).pending = s.pending ∧
      (pushBlock s d fi n0).memo = s.memo ∧
      (pushBlock s d fi n0).zenith = s.zenith ∧
      (pushBlock s d fi n0).jtag = s.jtag ∧
      (pushBlock s d fi n0).dram.cells = s.dram.cells := by
  unfold pushBlock
  dsimp only
  repeat' split
  all_goals simp

@[simp] theorem pushAll_keeps (s : State) (d : Nat) (n0 : Nat) :
    (pushAll s d n0).pending = s.pending ∧
      (pushAll s d n0).memo = s.memo ∧
      (pushAll s d n0).zenith = s.zenith ∧
      (pushAll s d n0).jtag = s.jtag ∧
      (pushAll s d n0).dram.cells = s.dram.cells := by simp [pushAll]

@[simp] theorem startCums_keeps (s : State) (p : Bytes) :
    (startCums s p).pending = s.pending ∧
      (startCums s p).memo = s.memo ∧
      (startCums s p).zenith = s.zenith ∧
      (startCums s p).jtag = s.jtag ∧
      (startCums s p).dram.cells = s.dram.cells := by simp [startCums]

@[simp] theorem dropDiscarded_keeps (s : State) (d : Nat) :
    (dropDiscarded s d).pending = s.pending ∧
      (dropDiscarded s d).memo = s.memo ∧
      (dropDiscarded s d).zenith = s.zenith ∧
      (dropDiscarded s d).jtag = s.jtag ∧
      (dropDiscarded s d).dram.cells = s.dram.cells := by simp [dropDiscarded]

@[simp] theorem bumpReq_keeps (s : State) (n : Nat) (lo : Nat) :
    (bumpReq s n lo).pending = s.pending ∧
      (bumpReq s n lo).memo = s.memo ∧
      (bumpReq s n lo).zenith = s.zenith ∧
      (bumpReq s n lo).jtag = s.jtag ∧
      (bumpReq s n lo).dram.cells = s.dram.cells := by simp [bumpReq]

@[simp] theorem arriveDue_keeps (s : State) (b : Nat) (x : Dom) :
    (arriveDue s b x).pending = s.pending ∧
      (arriveDue s b x).memo = s.memo ∧
      (arriveDue s b x).zenith = s.zenith ∧
      (arriveDue s b x).jtag = s.jtag ∧
      (arriveDue s b x).dram.cells = s.dram.cells := by simp [arriveDue]

@[simp] theorem freeBytes_keeps (a0 : Nat) (a1 : State) :
    (freeBytes a0 a1).2.pending = a1.pending ∧
      (freeBytes a0 a1).2.memo = a1.memo ∧
      (freeBytes a0 a1).2.zenith = a1.zenith ∧
      (freeBytes a0 a1).2.jtag = a1.jtag ∧
      (freeBytes a0 a1).2.dram.cells = a1.dram.cells := by
  induction a0 generalizing a1 with
  | zero => simp [freeBytes]
  | succ n ih => simp [freeBytes, ih]

@[simp] theorem freeCommands_keeps (s : State) :
    (freeCommands s).2.pending = s.pending ∧
      (freeCommands s).2.memo = s.memo ∧
      (freeCommands s).2.zenith = s.zenith ∧
      (freeCommands s).2.jtag = s.jtag ∧
      (freeCommands s).2.dram.cells = s.dram.cells := by
  have h : (freeCommands s).2 = (freeBytes 64 s).2 := by
    unfold freeCommands
    rfl
  have k := freeBytes_keeps 64 s
  rw [h]
  exact k

@[simp] theorem loseDramParts_keeps (s : State) :
    (loseDramParts s).pending = s.pending ∧
      (loseDramParts s).memo = s.memo ∧
      (loseDramParts s).zenith = s.zenith ∧
      (loseDramParts s).jtag = s.jtag ∧
      (loseDramParts s).dram.cells = s.dram.cells := by simp [loseDramParts]

@[simp] theorem sendLanes_keeps (s : State) (p : Port) (n : Nat) (syms : Nat → List Sym) :
    (sendLanes s p n syms).pending = s.pending ∧
      (sendLanes s p n syms).memo = s.memo ∧
      (sendLanes s p n syms).zenith = s.zenith ∧
      (sendLanes s p n syms).jtag = s.jtag ∧
      (sendLanes s p n syms).dram.cells = s.dram.cells := by simp [sendLanes]

@[simp] theorem sendColumns_keeps (s : State) (p : Port) (cols : List (List Sym)) :
    (sendColumns s p cols).pending = s.pending ∧
      (sendColumns s p cols).memo = s.memo ∧
      (sendColumns s p cols).zenith = s.zenith ∧
      (sendColumns s p cols).jtag = s.jtag ∧
      (sendColumns s p cols).dram.cells = s.dram.cells := by simp [sendColumns]

@[simp] theorem bringHead_keeps (s : State) (q : Nat) :
    (bringHead s q).pending = s.pending ∧
      (bringHead s q).memo = s.memo ∧
      (bringHead s q).zenith = s.zenith ∧
      (bringHead s q).jtag = s.jtag ∧
      (bringHead s q).dram.cells = s.dram.cells := by
  unfold bringHead
  repeat' split
  all_goals simp

@[simp] theorem popLine_keeps (s : State) (q : Nat) :
    (popLine s q).pending = s.pending ∧
      (popLine s q).memo = s.memo ∧
      (popLine s q).zenith = s.zenith ∧
      (popLine s q).jtag = s.jtag ∧
      (popLine s q).dram.cells = s.dram.cells := by
  unfold popLine
  dsimp only
  repeat' split
  all_goals simp

@[simp] theorem popLines_keeps (a0 : Nat) (a1 : State) (a2 : Nat) :
    (popLines a0 a1 a2).pending = a1.pending ∧
      (popLines a0 a1 a2).memo = a1.memo ∧
      (popLines a0 a1 a2).zenith = a1.zenith ∧
      (popLines a0 a1 a2).jtag = a1.jtag ∧
      (popLines a0 a1 a2).dram.cells = a1.dram.cells := by
  induction a0 generalizing a1 a2 with
  | zero => simp [popLines]
  | succ n ih => simp [popLines, ih]

@[simp] theorem goOnFrame_keeps (s : State) (p : Port) (n : Nat) :
    (goOnFrame s p n).pending = s.pending ∧
      (goOnFrame s p n).memo = s.memo ∧
      (goOnFrame s p n).zenith = s.zenith ∧
      (goOnFrame s p n).jtag = s.jtag ∧
      (goOnFrame s p n).dram.cells = s.dram.cells := by
  unfold goOnFrame
  dsimp only
  repeat' split
  all_goals simp

@[simp] theorem launchLatches_keeps (s : State) (k : Packet) :
    (launchLatches s k).pending = s.pending ∧
      (launchLatches s k).memo = s.memo ∧
      (launchLatches s k).zenith = s.zenith ∧
      (launchLatches s k).jtag = s.jtag ∧
      (launchLatches s k).dram.cells = s.dram.cells := by simp [launchLatches]

@[simp] theorem keepSite_keeps (s : State) (d : Nat) (k : Nat) (v : Nat) :
    (keepSite s d k v).pending = s.pending ∧
      (keepSite s d k v).memo = s.memo ∧
      (keepSite s d k v).zenith = s.zenith ∧
      (keepSite s d k v).jtag = s.jtag ∧
      (keepSite s d k v).dram.cells = s.dram.cells := by simp [keepSite]

@[simp] theorem enterKeep_keeps (s : State) (d : Nat) (v : Nat) :
    (enterKeep s d v).pending = s.pending ∧
      (enterKeep s d v).memo = s.memo ∧
      (enterKeep s d v).zenith = s.zenith ∧
      (enterKeep s d v).jtag = s.jtag ∧
      (enterKeep s d v).dram.cells = s.dram.cells := by simp [enterKeep]

@[simp] theorem enterVector_keeps (s : State) (d : Nat) (v : Nat) (q : PlayedPin) :
    (enterVector s d v q).pending = s.pending ∧
      (enterVector s d v q).memo = s.memo ∧
      (enterVector s d v q).zenith = s.zenith ∧
      (enterVector s d v q).jtag = s.jtag ∧
      (enterVector s d v q).dram.cells = s.dram.cells := by simp [enterVector]

@[simp] theorem placePin_keeps (s : State) (d : Nat) (v : Nat) (q : PlayedPin) :
    (placePin s d v q).pending = s.pending ∧
      (placePin s d v q).memo = s.memo ∧
      (placePin s d v q).zenith = s.zenith ∧
      (placePin s d v q).jtag = s.jtag ∧
      (placePin s d v q).dram.cells = s.dram.cells := by simp [placePin]

@[simp] theorem giveBack_keeps (s : State) (port : Option DramPort) (raw : Bytes) :
    (giveBack s port raw).pending = s.pending ∧
      (giveBack s port raw).memo = s.memo ∧
      (giveBack s port raw).zenith = s.zenith ∧
      (giveBack s port raw).jtag = s.jtag ∧
      (giveBack s port raw).dram.cells = s.dram.cells := by
  unfold giveBack
  repeat' split
  all_goals simp

@[simp] theorem loseCore_keeps (s : State) :
    (loseCore s).pending = s.pending ∧
      (loseCore s).memo = s.memo ∧
      (loseCore s).zenith = s.zenith ∧
      (loseCore s).jtag = s.jtag ∧
      (loseCore s).dram.cells = s.dram.cells := by simp [loseCore]

@[simp] theorem killLanes_keeps (s : State) (n : Nat) :
    (killLanes s n).pending = s.pending ∧
      (killLanes s n).memo = s.memo ∧
      (killLanes s n).zenith = s.zenith ∧
      (killLanes s n).jtag = s.jtag ∧
      (killLanes s n).dram.cells = s.dram.cells := by simp [killLanes]

@[simp] theorem returnPins_keeps (s : State) (m : Nat) :
    (returnPins s m).pending = s.pending ∧
      (returnPins s m).memo = s.memo ∧
      (returnPins s m).zenith = s.zenith ∧
      (returnPins s m).jtag = s.jtag ∧
      (returnPins s m).dram.cells = s.dram.cells := by simp [returnPins]

@[simp] theorem queueMark_keeps (s : State) (n : Nat) (t : Int) :
    (queueMark s n t).pending = s.pending ∧
      (queueMark s n t).memo = s.memo ∧
      (queueMark s n t).zenith = s.zenith ∧
      (queueMark s n t).jtag = s.jtag ∧
      (queueMark s n t).dram.cells = s.dram.cells := by simp [queueMark]

@[simp] theorem stepMarks_keeps (s : State) (n : Nat) :
    (stepMarks s n).pending = s.pending ∧
      (stepMarks s n).memo = s.memo ∧
      (stepMarks s n).zenith = s.zenith ∧
      (stepMarks s n).jtag = s.jtag ∧
      (stepMarks s n).dram.cells = s.dram.cells := by simp [stepMarks]

@[simp] theorem stampTransition_keeps (s : State) (ch : Nat) (kind : EdgeKind) (st : Nat) :
    (stampTransition s ch kind st).pending = s.pending ∧
      (stampTransition s ch kind st).memo = s.memo ∧
      (stampTransition s ch kind st).zenith = s.zenith ∧
      (stampTransition s ch kind st).jtag = s.jtag ∧
      (stampTransition s ch kind st).dram.cells = s.dram.cells := by simp [stampTransition]

@[simp] theorem microLatch_keeps (s : State) (d : Nat) (k : Nat) (fi : Nat) (fb : Nat) :
    (microLatch s d k fi fb).pending = s.pending ∧
      (microLatch s d k fi fb).memo = s.memo ∧
      (microLatch s d k fi fb).zenith = s.zenith ∧
      (microLatch s d k fi fb).jtag = s.jtag ∧
      (microLatch s d k fi fb).dram.cells = s.dram.cells := by simp [microLatch]

@[simp] theorem refuseChanges_keeps (s : State) :
    (refuseChanges s).pending = s.pending ∧
      (refuseChanges s).memo = s.memo ∧
      (refuseChanges s).zenith = s.zenith ∧
      (refuseChanges s).jtag = s.jtag ∧
      (refuseChanges s).dram.cells = s.dram.cells := by
  refine ⟨?_, ?_, ?_, ?_, ?_⟩ <;> (unfold refuseChanges; dsimp only; repeat' (first | (simp; done) | split | refine (foldl_pending _ _ _ (fun _ _ => ?_)).trans ?_ | refine (foldl_memo _ _ _ (fun _ _ => ?_)).trans ?_ | refine (foldl_zenith _ _ _ (fun _ _ => ?_)).trans ?_ | refine (foldl_jtag _ _ _ (fun _ _ => ?_)).trans ?_ | refine (foldl_cells _ _ _ (fun _ _ => ?_)).trans ?_ | simp))

@[simp] theorem squallParity_keeps (s : State) (b : Nat) (d : Nat) (ok : Bool) :
    (squallParity s b d ok).pending = s.pending ∧
      (squallParity s b d ok).memo = s.memo ∧
      (squallParity s b d ok).zenith = s.zenith ∧
      (squallParity s b d ok).jtag = s.jtag ∧
      (squallParity s b d ok).dram.cells = s.dram.cells := by simp [squallParity]

@[simp] theorem tryPush_keeps (s : State) (d : Nat) (fi : Nat) (f : Flow) (rs : List Run) (n : Nat) :
    (tryPush s d fi f rs n).2.pending = s.pending ∧
      (tryPush s d fi f rs n).2.memo = s.memo ∧
      (tryPush s d fi f rs n).2.zenith = s.zenith ∧
      (tryPush s d fi f rs n).2.jtag = s.jtag ∧
      (tryPush s d fi f rs n).2.dram.cells = s.dram.cells := by
  unfold tryPush
  dsimp only
  repeat' split
  all_goals simp

@[simp] theorem microActs_keeps (s : State) (d : Nat) (k : Nat) (fi : Nat) (fb : Nat) :
    (microActs s d k fi fb).pending = s.pending ∧
      (microActs s d k fi fb).memo = s.memo ∧
      (microActs s d k fi fb).zenith = s.zenith ∧
      (microActs s d k fi fb).jtag = s.jtag ∧
      (microActs s d k fi fb).dram.cells = s.dram.cells := by simp [microActs]

@[simp] theorem microSet_keeps (s : State) (d : Nat) (k : Nat) (fi : Nat) (fb : Nat) (f : Flow) :
    (microSet s d k fi fb f).pending = s.pending ∧
      (microSet s d k fi fb f).memo = s.memo ∧
      (microSet s d k fi fb f).zenith = s.zenith ∧
      (microSet s d k fi fb f).jtag = s.jtag ∧
      (microSet s d k fi fb f).dram.cells = s.dram.cells := by simp [microSet]

@[simp] theorem microPush_keeps (s : State) (d : Nat) (k : Nat) (fi : Nat) (fb : Nat) (n : Nat) (m : Nat) (todo : Nat) (rs : List Run) :
    (microPush s d k fi fb n m todo rs).pending = s.pending ∧
      (microPush s d k fi fb n m todo rs).memo = s.memo ∧
      (microPush s d k fi fb n m todo rs).zenith = s.zenith ∧
      (microPush s d k fi fb n m todo rs).jtag = s.jtag ∧
      (microPush s d k fi fb n m todo rs).dram.cells = s.dram.cells := by simp [microPush]

@[simp] theorem awaitCums_keeps (s : State) (m : Nat) :
    (awaitCums s m).pending = s.pending ∧
      (awaitCums s m).memo = s.memo ∧
      (awaitCums s m).zenith = s.zenith ∧
      (awaitCums s m).jtag = s.jtag ∧
      (awaitCums s m).dram.cells = s.dram.cells := by simp [awaitCums]

@[simp] theorem microShake_keeps (s : State) (d : Nat) (k : Nat) (fi : Nat) (fb : Nat) :
    (microShake s d k fi fb).pending = s.pending ∧
      (microShake s d k fi fb).memo = s.memo ∧
      (microShake s d k fi fb).zenith = s.zenith ∧
      (microShake s d k fi fb).jtag = s.jtag ∧
      (microShake s d k fi fb).dram.cells = s.dram.cells := by simp [microShake]

@[simp] theorem microWithdraw_keeps (s : State) (d : Nat) (fi : Nat) :
    (microWithdraw s d fi).pending = s.pending ∧
      (microWithdraw s d fi).memo = s.memo ∧
      (microWithdraw s d fi).zenith = s.zenith ∧
      (microWithdraw s d fi).jtag = s.jtag ∧
      (microWithdraw s d fi).dram.cells = s.dram.cells := by simp [microWithdraw]

@[simp] theorem microDispatch_keeps (s : State) (d : Nat) (k : Nat) (fi : Nat) :
    (microDispatch s d k fi).pending = s.pending ∧
      (microDispatch s d k fi).memo = s.memo ∧
      (microDispatch s d k fi).zenith = s.zenith ∧
      (microDispatch s d k fi).jtag = s.jtag ∧
      (microDispatch s d k fi).dram.cells = s.dram.cells := by simp [microDispatch]

@[simp] theorem microExec_keeps (s : State) (d : Nat) (k : Nat) (fi : Nat) (fb : Nat) (n : Nat) (cb : Nat) :
    (microExec s d k fi fb n cb).pending = s.pending ∧
      (microExec s d k fi fb n cb).memo = s.memo ∧
      (microExec s d k fi fb n cb).zenith = s.zenith ∧
      (microExec s d k fi fb n cb).jtag = s.jtag ∧
      (microExec s d k fi fb n cb).dram.cells = s.dram.cells := by
  unfold microExec
  dsimp only
  repeat' split
  all_goals simp

@[simp] theorem microStep_keeps (s : State) (d : Nat) (k : Nat) (fi : Nat) (pins : List Nat) :
    (microStep s d k fi pins).pending = s.pending ∧
      (microStep s d k fi pins).memo = s.memo ∧
      (microStep s d k fi pins).zenith = s.zenith ∧
      (microStep s d k fi pins).jtag = s.jtag ∧
      (microStep s d k fi pins).dram.cells = s.dram.cells := by simp [microStep]

@[simp] theorem putDue_keeps (s : State) (x : Due) :
    (putDue s x).pending = s.pending ∧
      (putDue s x).memo = s.memo ∧
      (putDue s x).zenith = s.zenith ∧
      (putDue s x).jtag = s.jtag ∧
      (putDue s x).dram.cells = s.dram.cells := by simp [putDue]

@[simp] theorem touchItem_keeps (s : State) (item : CalItem) :
    (touchItem s item).pending = s.pending ∧
      (touchItem s item).memo = s.memo ∧
      (touchItem s item).zenith = s.zenith ∧
      (touchItem s item).jtag = s.jtag ∧
      (touchItem s item).dram.cells = s.dram.cells := by
  unfold touchItem
  repeat' split
  all_goals simp

@[simp] theorem writeOpRecord_keeps (s : State) (d : Nat) (b : Nat) (k : Nat) (o : CumOp) (es : List (Nat × Nat × Nat × Nat × Nat)) :
    (writeOpRecord s d b k o es).pending = s.pending ∧
      (writeOpRecord s d b k o es).memo = s.memo ∧
      (writeOpRecord s d b k o es).zenith = s.zenith ∧
      (writeOpRecord s d b k o es).jtag = s.jtag ∧
      (writeOpRecord s d b k o es).dram.cells = s.dram.cells := by simp [writeOpRecord]

@[simp] theorem judgeMatch_keeps (s : State) (d : Nat) (k : Nat) (v : Nat) (failed : Bool) :
    (judgeMatch s d k v failed).pending = s.pending ∧
      (judgeMatch s d k v failed).memo = s.memo ∧
      (judgeMatch s d k v failed).zenith = s.zenith ∧
      (judgeMatch s d k v failed).jtag = s.jtag ∧
      (judgeMatch s d k v failed).dram.cells = s.dram.cells := by simp [judgeMatch]

@[simp] theorem upsetWord_keeps (s : State) (ch : Nat) (a : Nat) (mask : Microword) :
    (upsetWord s ch a mask).pending = s.pending ∧
      (upsetWord s ch a mask).memo = s.memo ∧
      (upsetWord s ch a mask).zenith = s.zenith ∧
      (upsetWord s ch a mask).jtag = s.jtag ∧
      (upsetWord s ch a mask).dram.cells = s.dram.cells := by simp [upsetWord]

@[simp] theorem strike_keeps (s : State) (p : Bytes) (ca : Nat) (upset : Option (Fin 256 × Microword)) :
    (strike s p ca upset).pending = s.pending ∧
      (strike s p ca upset).memo = s.memo ∧
      (strike s p ca upset).zenith = s.zenith ∧
      (strike s p ca upset).jtag = s.jtag ∧
      (strike s p ca upset).dram.cells = s.dram.cells := by
  unfold strike
  repeat' split
  all_goals simp

@[simp] theorem machineCheck_keeps (s : State) (d : Nat) (src : Nat) :
    (machineCheck s d src).pending = s.pending ∧
      (machineCheck s d src).memo = s.memo ∧
      (machineCheck s d src).zenith = s.zenith ∧
      (machineCheck s d src).jtag = s.jtag ∧
      (machineCheck s d src).dram.cells = s.dram.cells := by simp [machineCheck]

@[simp] theorem machineStop_keeps (s : State) (d : Nat) (ch : Nat) (ca : Nat) :
    (machineStop s d ch ca).pending = s.pending ∧
      (machineStop s d ch ca).memo = s.memo ∧
      (machineStop s d ch ca).zenith = s.zenith ∧
      (machineStop s d ch ca).jtag = s.jtag ∧
      (machineStop s d ch ca).dram.cells = s.dram.cells := by simp [machineStop]

@[simp] theorem machineStops_keeps (s : State) (d : Nat) (ca : Nat) (v : Nat) (chs : List Nat) :
    (machineStops s d ca v chs).pending = s.pending ∧
      (machineStops s d ca v chs).memo = s.memo ∧
      (machineStops s d ca v chs).zenith = s.zenith ∧
      (machineStops s d ca v chs).jtag = s.jtag ∧
      (machineStops s d ca v chs).dram.cells = s.dram.cells := by simp [machineStops]

@[simp] theorem routineWord_keeps (s : State) (d : Nat) (k : Nat) (g : Flow) (upset : Option (Fin 256 × Microword)) :
    (routineWord s d k g upset).pending = s.pending ∧
      (routineWord s d k g upset).memo = s.memo ∧
      (routineWord s d k g upset).zenith = s.zenith ∧
      (routineWord s d k g upset).jtag = s.jtag ∧
      (routineWord s d k g upset).dram.cells = s.dram.cells := by
  unfold routineWord
  dsimp only
  repeat' split
  all_goals simp

@[simp] theorem squallRun_keeps (s : State) (b : Nat) :
    (squallRun s b).pending = s.pending ∧
      (squallRun s b).memo = s.memo ∧
      (squallRun s b).zenith = s.zenith ∧
      (squallRun s b).jtag = s.jtag ∧
      (squallRun s b).dram.cells = s.dram.cells := by
  unfold squallRun
  repeat' split
  all_goals simp

@[simp] theorem squallEclk_keeps (s : State) (d : Nat) :
    (squallEclk s d).pending = s.pending ∧
      (squallEclk s d).memo = s.memo ∧
      (squallEclk s d).zenith = s.zenith ∧
      (squallEclk s d).jtag = s.jtag ∧
      (squallEclk s d).dram.cells = s.dram.cells := by simp [squallEclk]

@[simp] theorem startFlow_keeps (s : State) (d : Nat) (fi : Nat) :
    (startFlow s d fi).pending = s.pending ∧
      (startFlow s d fi).memo = s.memo ∧
      (startFlow s d fi).zenith = s.zenith ∧
      (startFlow s d fi).jtag = s.jtag ∧
      (startFlow s d fi).dram.cells = s.dram.cells := by simp [startFlow]

@[simp] theorem issueRequest_keeps (s : State) (a : Nat × Nat) :
    (issueRequest s a).pending = s.pending ∧
      (issueRequest s a).memo = s.memo ∧
      (issueRequest s a).zenith = s.zenith ∧
      (issueRequest s a).jtag = s.jtag ∧
      (issueRequest s a).dram.cells = s.dram.cells := by simp [issueRequest]

@[simp] theorem refillNow_keeps (s : State) (b : Nat) (borrow : Bool) :
    (refillNow s b borrow).pending = s.pending ∧
      (refillNow s b borrow).memo = s.memo ∧
      (refillNow s b borrow).zenith = s.zenith ∧
      (refillNow s b borrow).jtag = s.jtag ∧
      (refillNow s b borrow).dram.cells = s.dram.cells := by
  unfold refillNow
  repeat' split
  all_goals simp

@[simp] theorem auroraNow_keeps (s : State) (n : Nat) (borrow : Bool) :
    (auroraNow s n borrow).pending = s.pending ∧
      (auroraNow s n borrow).memo = s.memo ∧
      (auroraNow s n borrow).zenith = s.zenith ∧
      (auroraNow s n borrow).jtag = s.jtag ∧
      (auroraNow s n borrow).dram.cells = s.dram.cells := by simp [auroraNow]

@[simp] theorem tryUp_keeps (s : State) (p : Port) :
    (tryUp s p).pending = s.pending ∧
      (tryUp s p).memo = s.memo ∧
      (tryUp s p).zenith = s.zenith ∧
      (tryUp s p).jtag = s.jtag ∧
      (tryUp s p).dram.cells = s.dram.cells := by
  unfold tryUp
  repeat' split
  all_goals simp

@[simp] theorem tickDoms_keeps (s : State) :
    (tickDoms s).pending = s.pending ∧
      (tickDoms s).memo = s.memo ∧
      (tickDoms s).zenith = s.zenith ∧
      (tickDoms s).jtag = s.jtag ∧
      (tickDoms s).dram.cells = s.dram.cells := by simp [tickDoms]

@[simp] theorem sendCredit_keeps (s : State) (p : Port) (q : Nat) :
    (sendCredit s p q).pending = s.pending ∧
      (sendCredit s p q).memo = s.memo ∧
      (sendCredit s p q).zenith = s.zenith ∧
      (sendCredit s p q).jtag = s.jtag ∧
      (sendCredit s p q).dram.cells = s.dram.cells := by simp [sendCredit]

@[simp] theorem startDiag_keeps (s : State) (value : Word) :
    (startDiag s value).pending = s.pending ∧
      (startDiag s value).memo = s.memo ∧
      (startDiag s value).zenith = s.zenith ∧
      (startDiag s value).jtag = s.jtag ∧
      (startDiag s value).dram.cells = s.dram.cells := by simp [startDiag]

@[simp] theorem rowArrives_keeps (s : State) (b : Nat) (v : Nat) (word : Nat) (fails : Nat) :
    (rowArrives s b v word fails).pending = s.pending ∧
      (rowArrives s b v word fails).memo = s.memo ∧
      (rowArrives s b v word fails).zenith = s.zenith ∧
      (rowArrives s b v word fails).jtag = s.jtag ∧
      (rowArrives s b v word fails).dram.cells = s.dram.cells := by
  unfold rowArrives
  dsimp only
  repeat' split
  all_goals simp

@[simp] theorem flushRecords_keeps (a0 : Nat) (a1 : State) (a2 : Nat) (a3 : Bool) :
    (flushRecords a0 a1 a2 a3).pending = a1.pending ∧
      (flushRecords a0 a1 a2 a3).memo = a1.memo ∧
      (flushRecords a0 a1 a2 a3).zenith = a1.zenith ∧
      (flushRecords a0 a1 a2 a3).jtag = a1.jtag ∧
      (flushRecords a0 a1 a2 a3).dram.cells = a1.dram.cells := by
  induction a0 generalizing a1 a2 a3 with
  | zero => simp [flushRecords]
  | succ n ih => simp [flushRecords, ih]

@[simp] theorem rebaseUnits_keeps (s : State) (d : Nat) (c : Nat) :
    (rebaseUnits s d c).pending = s.pending ∧
      (rebaseUnits s d c).memo = s.memo ∧
      (rebaseUnits s d c).zenith = s.zenith ∧
      (rebaseUnits s d c).jtag = s.jtag ∧
      (rebaseUnits s d c).dram.cells = s.dram.cells := by simp [rebaseUnits]

@[simp] theorem endUnsynced_keeps (s : State) (d : Nat) (reason : Nat) :
    (endUnsynced s d reason).pending = s.pending ∧
      (endUnsynced s d reason).memo = s.memo ∧
      (endUnsynced s d reason).zenith = s.zenith ∧
      (endUnsynced s d reason).jtag = s.jtag ∧
      (endUnsynced s d reason).dram.cells = s.dram.cells := by simp [endUnsynced]

@[simp] theorem readMarker_keeps (s : State) (p : Port) (live : Byte) (ctrl : Byte) :
    (readMarker s p live ctrl).pending = s.pending ∧
      (readMarker s p live ctrl).memo = s.memo ∧
      (readMarker s p live ctrl).zenith = s.zenith ∧
      (readMarker s p live ctrl).jtag = s.jtag ∧
      (readMarker s p live ctrl).dram.cells = s.dram.cells := by simp [readMarker]

@[simp] theorem clearBits_keeps (s : State) (a : Nat) (mask : Nat) :
    (clearBits s a mask).pending = s.pending ∧
      (clearBits s a mask).memo = s.memo ∧
      (clearBits s a mask).zenith = s.zenith ∧
      (clearBits s a mask).jtag = s.jtag ∧
      (clearBits s a mask).dram.cells = s.dram.cells := by simp [clearBits]

@[simp] theorem popToLines_keeps (s : State) (q : Nat) :
    (popToLines s q).pending = s.pending ∧
      (popToLines s q).memo = s.memo ∧
      (popToLines s q).zenith = s.zenith ∧
      (popToLines s q).jtag = s.jtag ∧
      (popToLines s q).dram.cells = s.dram.cells := by simp [popToLines]

@[simp] theorem jtagLeaves_keeps (s : State) (q : Nat) :
    (jtagLeaves s q).pending = s.pending ∧
      (jtagLeaves s q).memo = s.memo ∧
      (jtagLeaves s q).zenith = s.zenith ∧
      (jtagLeaves s q).jtag = s.jtag ∧
      (jtagLeaves s q).dram.cells = s.dram.cells := by
  unfold jtagLeaves
  dsimp only
  repeat' split
  all_goals simp

@[simp] theorem launchNow_keeps (s : State) (ev : Nat) :
    (launchNow s ev).pending = s.pending ∧
      (launchNow s ev).memo = s.memo ∧
      (launchNow s ev).zenith = s.zenith ∧
      (launchNow s ev).jtag = s.jtag ∧
      (launchNow s ev).dram.cells = s.dram.cells := by simp [launchNow]

@[simp] theorem takeAct_keeps (s : State) (d : Nat) (v : Nat) (late : Bool) (a4 : Act) :
    (takeAct s d v late a4).pending = s.pending ∧
      (takeAct s d v late a4).memo = s.memo ∧
      (takeAct s d v late a4).zenith = s.zenith ∧
      (takeAct s d v late a4).jtag = s.jtag ∧
      (takeAct s d v late a4).dram.cells = s.dram.cells := by
  unfold takeAct
  repeat' split
  all_goals simp

@[simp] theorem noteReject_keeps (s : State) (ch : Nat) (accepted : Bool) :
    (noteReject s ch accepted).pending = s.pending ∧
      (noteReject s ch accepted).memo = s.memo ∧
      (noteReject s ch accepted).zenith = s.zenith ∧
      (noteReject s ch accepted).jtag = s.jtag ∧
      (noteReject s ch accepted).dram.cells = s.dram.cells := by simp [noteReject]

@[simp] theorem applyCal_keeps (s : State) (ch : Nat) (n1 : Nat) (n2 : Nat) (den : Nat) :
    (applyCal s ch n1 n2 den).pending = s.pending ∧
      (applyCal s ch n1 n2 den).memo = s.memo ∧
      (applyCal s ch n1 n2 den).zenith = s.zenith ∧
      (applyCal s ch n1 n2 den).jtag = s.jtag ∧
      (applyCal s ch n1 n2 den).dram.cells = s.dram.cells := by simp [applyCal]

@[simp] theorem takeActs_keeps (s : State) (d : Nat) (fi : Nat) (v : Nat) :
    (takeActs s d fi v).pending = s.pending ∧
      (takeActs s d fi v).memo = s.memo ∧
      (takeActs s d fi v).zenith = s.zenith ∧
      (takeActs s d fi v).jtag = s.jtag ∧
      (takeActs s d fi v).dram.cells = s.dram.cells := by simp [takeActs]

@[simp] theorem countInvalid_keeps (s : State) (rs : List PinResult) :
    (countInvalid s rs).pending = s.pending ∧
      (countInvalid s rs).memo = s.memo ∧
      (countInvalid s rs).zenith = s.zenith ∧
      (countInvalid s rs).jtag = s.jtag ∧
      (countInvalid s rs).dram.cells = s.dram.cells := by simp [countInvalid]

@[simp] theorem feedSqualls_keeps (s : State) (d : Nat) (v : Nat) (rs : List PinResult) :
    (feedSqualls s d v rs).pending = s.pending ∧
      (feedSqualls s d v rs).memo = s.memo ∧
      (feedSqualls s d v rs).zenith = s.zenith ∧
      (feedSqualls s d v rs).jtag = s.jtag ∧
      (feedSqualls s d v rs).dram.cells = s.dram.cells := by simp [feedSqualls]

@[simp] theorem sendDigest_keeps (s : State) (d : Nat) (kind : Nat) (w : Nat) :
    (sendDigest s d kind w).pending = s.pending ∧
      (sendDigest s d kind w).memo = s.memo ∧
      (sendDigest s d kind w).zenith = s.zenith ∧
      (sendDigest s d kind w).jtag = s.jtag ∧
      (sendDigest s d kind w).dram.cells = s.dram.cells := by simp [sendDigest]

@[simp] theorem digestFail_keeps (s : State) (d : Nat) (v : Nat) (sets : Bytes) :
    (digestFail s d v sets).pending = s.pending ∧
      (digestFail s d v sets).memo = s.memo ∧
      (digestFail s d v sets).zenith = s.zenith ∧
      (digestFail s d v sets).jtag = s.jtag ∧
      (digestFail s d v sets).dram.cells = s.dram.cells := by simp [digestFail]

@[simp] theorem atEnd_keeps (s : State) (d : Nat) :
    (atEnd s d).pending = s.pending ∧
      (atEnd s d).memo = s.memo ∧
      (atEnd s d).zenith = s.zenith ∧
      (atEnd s d).jtag = s.jtag ∧
      (atEnd s d).dram.cells = s.dram.cells := by simp [atEnd]

@[simp] theorem notePark_keeps (s : State) (d : Nat) (k : Nat) (v : Nat) :
    (notePark s d k v).pending = s.pending ∧
      (notePark s d k v).memo = s.memo ∧
      (notePark s d k v).zenith = s.zenith ∧
      (notePark s d k v).jtag = s.jtag ∧
      (notePark s d k v).dram.cells = s.dram.cells := by simp [notePark]

@[simp] theorem cautionJobs_keeps (s : State) (x : Dip) (samples : Nat) :
    (cautionJobs s x samples).pending = s.pending ∧
      (cautionJobs s x samples).memo = s.memo ∧
      (cautionJobs s x samples).zenith = s.zenith ∧
      (cautionJobs s x samples).jtag = s.jtag ∧
      (cautionJobs s x samples).dram.cells = s.dram.cells := by simp [cautionJobs]

@[simp] theorem cumErrors_keeps (s : State) (d : Nat) (c : Nat) :
    (cumErrors s d c).pending = s.pending ∧
      (cumErrors s d c).memo = s.memo ∧
      (cumErrors s d c).zenith = s.zenith ∧
      (cumErrors s d c).jtag = s.jtag ∧
      (cumErrors s d c).dram.cells = s.dram.cells := by simp [cumErrors]

@[simp] theorem sendVirgas_keeps (a0 : Nat) (a1 : State) (a2 : Nat) (a3 : List Nat) :
    (sendVirgas a0 a1 a2 a3).pending = a1.pending ∧
      (sendVirgas a0 a1 a2 a3).memo = a1.memo ∧
      (sendVirgas a0 a1 a2 a3).zenith = a1.zenith ∧
      (sendVirgas a0 a1 a2 a3).jtag = a1.jtag ∧
      (sendVirgas a0 a1 a2 a3).dram.cells = a1.dram.cells := by
  induction a0 generalizing a1 a2 a3 with
  | zero => simp [sendVirgas]
  | succ n ih => simp [sendVirgas, ih]

@[simp] theorem endEclk_keeps (s : State) (d : Nat) :
    (endEclk s d).pending = s.pending ∧
      (endEclk s d).memo = s.memo ∧
      (endEclk s d).zenith = s.zenith ∧
      (endEclk s d).jtag = s.jtag ∧
      (endEclk s d).dram.cells = s.dram.cells := by simp [endEclk]

@[simp] theorem parkUnplayed_keeps (s : State) (d : Nat) :
    (parkUnplayed s d).pending = s.pending ∧
      (parkUnplayed s d).memo = s.memo ∧
      (parkUnplayed s d).zenith = s.zenith ∧
      (parkUnplayed s d).jtag = s.jtag ∧
      (parkUnplayed s d).dram.cells = s.dram.cells := by simp [parkUnplayed]

@[simp] theorem showBlock_keeps (s : State) (b : Nat) (a : Nat) :
    (showBlock s b a).pending = s.pending ∧
      (showBlock s b a).memo = s.memo ∧
      (showBlock s b a).zenith = s.zenith ∧
      (showBlock s b a).jtag = s.jtag ∧
      (showBlock s b a).dram.cells = s.dram.cells := by simp [showBlock]

@[simp] theorem loseTransitions_keeps (s : State) (ch : Nat) (st : Nat) (n : Nat) :
    (loseTransitions s ch st n).pending = s.pending ∧
      (loseTransitions s ch st n).memo = s.memo ∧
      (loseTransitions s ch st n).zenith = s.zenith ∧
      (loseTransitions s ch st n).jtag = s.jtag ∧
      (loseTransitions s ch st n).dram.cells = s.dram.cells := by simp [loseTransitions]

@[simp] theorem sendIdle_keeps (s : State) (p : Port) (n : Nat) :
    (sendIdle s p n).pending = s.pending ∧
      (sendIdle s p n).memo = s.memo ∧
      (sendIdle s p n).zenith = s.zenith ∧
      (sendIdle s p n).jtag = s.jtag ∧
      (sendIdle s p n).dram.cells = s.dram.cells := by simp [sendIdle]

@[simp] theorem debitScrub_keeps (s : State) :
    (debitScrub s).pending = s.pending ∧
      (debitScrub s).memo = s.memo ∧
      (debitScrub s).zenith = s.zenith ∧
      (debitScrub s).jtag = s.jtag ∧
      (debitScrub s).dram.cells = s.dram.cells := by simp [debitScrub]

@[simp] theorem examinePending_keeps (s : State) :
    (examinePending s).pending = s.pending ∧
      (examinePending s).memo = s.memo ∧
      (examinePending s).zenith = s.zenith ∧
      (examinePending s).jtag = s.jtag ∧
      (examinePending s).dram.cells = s.dram.cells := by
  unfold examinePending
  repeat' split
  all_goals simp

@[simp] theorem pecPut_keeps (s : State) (o : Nat) (w : Word) :
    (pecPut s o w).pending = s.pending ∧
      (pecPut s o w).memo = s.memo ∧
      (pecPut s o w).zenith = s.zenith ∧
      (pecPut s o w).jtag = s.jtag ∧
      (pecPut s o w).dram.cells = s.dram.cells := by simp [pecPut]

@[simp] theorem closeWindow_keeps (s : State) :
    (closeWindow s).pending = s.pending ∧
      (closeWindow s).memo = s.memo ∧
      (closeWindow s).zenith = s.zenith ∧
      (closeWindow s).jtag = s.jtag ∧
      (closeWindow s).dram.cells = s.dram.cells := by simp [closeWindow]

@[simp] theorem writeTest_keeps (s : State) (value : Nat) (mask : Nat) :
    (writeTest s value mask).pending = s.pending ∧
      (writeTest s value mask).memo = s.memo ∧
      (writeTest s value mask).zenith = s.zenith ∧
      (writeTest s value mask).jtag = s.jtag ∧
      (writeTest s value mask).dram.cells = s.dram.cells := by simp [writeTest]

@[simp] theorem digestDrive_keeps (s : State) (d : Nat) (v : Nat) (qs : List PlayedPin) :
    (digestDrive s d v qs).pending = s.pending ∧
      (digestDrive s d v qs).memo = s.memo ∧
      (digestDrive s d v qs).zenith = s.zenith ∧
      (digestDrive s d v qs).jtag = s.jtag ∧
      (digestDrive s d v qs).dram.cells = s.dram.cells := by simp [digestDrive]

end Sys2Proof.Machine
end

