-- ==== Sys2Proof/Laws/Memory.lean ====
section
/-! SUPPORT. The raw DRAM: a read after a write, and that every write keeps the canonical form. -/

namespace Sys2Proof.Machine

@[simp] theorem read_write_same (m : List Host.Cell) (a : Nat) (b : Byte) : Memory.read (Memory.write m a b) a = b :=
  tget_tset_same m a b

theorem read_write_ne (m : List Host.Cell) {a c : Nat} (b : Byte) (h : c ≠ a) :
    Memory.read (Memory.write m a b) c = Memory.read m c :=
  tget_tset_ne m b h

theorem write_keeps_wf (m : List Host.Cell) (a : Nat) (b : Byte) (w : Memory.wf m = true) : Memory.wf (Memory.write m a b) = true :=
  twf_tset m 0 a b (Nat.zero_le a) w

/-- A run of bytes written from `a`: outside it every address reads as before, inside it the byte written there. -/
theorem read_writes (m : List Host.Cell) (a c : Nat) (bs : Bytes) :
    Memory.read (Memory.writes m a bs) c = if a ≤ c ∧ c < a + bs.length then bs.getD (c - a) 0 else Memory.read m c := by
  induction bs generalizing m a with
  | nil => rw [if_neg (by simp only [List.length_nil]; omega)]; rfl
  | cons b r ih =>
    rw [Memory.writes, ih]
    simp only [List.length_cons]
    by_cases h : a = c
    · subst h
      rw [if_neg (by omega), if_pos (by omega), read_write_same, Nat.sub_self]
      rfl
    · rw [read_write_ne m b (Ne.symm h)]
      by_cases g : a ≤ c ∧ c < a + (r.length + 1)
      · have e : c - a = (c - (a + 1)) + 1 := by omega
        rw [if_pos (by omega), if_pos g, e]
        rfl
      · rw [if_neg (by omega), if_neg g]

theorem writes_keeps_wf (m : List Host.Cell) (a : Nat) (bs : Bytes) (w : Memory.wf m = true) :
    Memory.wf (Memory.writes m a bs) = true := by
  induction bs generalizing m a with
  | nil => exact w
  | cons b r ih => exact ih _ _ (write_keeps_wf m a b w)

theorem reset_memory_wf : Memory.wf State.reset.dram.cells = true := rfl

end Sys2Proof.Machine
end

