-- ==== Sys2Proof/Laws/Good.lean ====
section
/-! SUPPORT. `Good s t`: from `s` to `t` no waiting command is touched and soundness is kept. It composes, so a command's
whole effect is good because each of its parts is. -/

namespace Sys2Proof.Machine

/-- From `s` to `t` the queue stays as it is, and a sound state stays sound. -/
def Good (s t : State) : Prop := t.pending = s.pending ∧ (Sound s → Sound t)

theorem Good.refl (s : State) : Good s s := ⟨rfl, id⟩

theorem Good.trans {s t u : State} (h : Good s t) (g : Good t u) : Good s u := ⟨g.1.trans h.1, fun i => g.2 (h.2 i)⟩

theorem Good.before {s t u : State} (g : Good t u) (h : Good s t) : Good s u := h.trans g

theorem Good.of_keeps {s t : State} (h : t.pending = s.pending ∧ t.memo = s.memo ∧ t.zenith = s.zenith ∧ t.jtag = s.jtag ∧
    t.dram.cells = s.dram.cells) : Good s t :=
  ⟨h.1, fun i =>
    { time := by rw [h.2.2.1]; exact i.time, set := by rw [h.2.2.1]; exact i.set, memo := by rw [h.2.1]; exact i.memo,
      failures := by rw [h.2.2.2.1]; exact i.failures, scope := by rw [h.2.2.2.1]; exact i.scope,
      cells := by rw [h.2.2.2.2]; exact i.cells }⟩

/-- A change of fields that soundness does not speak of. -/
theorem Good.fields {s t : State} (h1 : t.pending = s.pending) (h2 : t.memo = s.memo) (h3 : t.zenith = s.zenith)
    (h4 : t.jtag = s.jtag) (h5 : t.dram.cells = s.dram.cells) : Good s t := .of_keeps ⟨h1, h2, h3, h4, h5⟩

theorem Good.regSet (s : State) (a : Nat) (v : Word) : Good s (regSet s a v) := .fields rfl rfl rfl rfl rfl
theorem Good.regPut (s : State) (a lo w v : Nat) : Good s (regPut s a lo w v) := .fields rfl rfl rfl rfl rfl
theorem Good.regBump (s : State) (a lo w n : Nat) : Good s (regBump s a lo w n) := .fields rfl rfl rfl rfl rfl

theorem Good.setDom (s : State) (i : Nat) (x : Dom) : Good s (setDom s i x) := .fields rfl rfl rfl rfl rfl
theorem Good.setVirga (s : State) (i : Nat) (x : Virga) : Good s (setVirga s i x) := .fields rfl rfl rfl rfl rfl
theorem Good.setSquall (s : State) (i : Nat) (x : Squall) : Good s (setSquall s i x) := .fields rfl rfl rfl rfl rfl
theorem Good.setAurora (s : State) (i : Nat) (x : Aurora) : Good s (setAurora s i x) := .fields rfl rfl rfl rfl rfl
theorem Good.setPin (s : State) (i : Nat) (x : Pin) : Good s (setPin s i x) := .fields rfl rfl rfl rfl rfl
theorem Good.setRing (s : State) (i : Nat) (x : PinRing) : Good s (setRing s i x) := .fields rfl rfl rfl rfl rfl
theorem Good.setBucket (s : State) (i : Nat) (x : Bucket) : Good s (setBucket s i x) := .fields rfl rfl rfl rfl rfl
theorem Good.setCum (s : State) (i : Nat) (x : Cum) : Good s (setCum s i x) := .fields rfl rfl rfl rfl rfl
theorem Good.setCtx (s : State) (i : Nat) (x : Ctx) : Good s (setCtx s i x) := .fields rfl rfl rfl rfl rfl
theorem Good.setLane (s : State) (i : Nat) (x : Lane) : Good s (setLane s i x) := .fields rfl rfl rfl rfl rfl
theorem Good.setQueue (s : State) (i : Nat) (x : Queue) : Good s (setQueue s i x) := .fields rfl rfl rfl rfl rfl
theorem Good.setImage (s : State) (i : Nat) (x : Image) : Good s (setImage s i x) := .fields rfl rfl rfl rfl rfl
theorem Good.setStaging (s : State) (i : Nat) (x : Staging) : Good s (setStaging s i x) := .fields rfl rfl rfl rfl rfl
theorem Good.setPll (s : State) (i : Nat) (x : Pll) : Good s (setPll s i x) := .fields rfl rfl rfl rfl rfl
theorem Good.setUnit (s : State) (i : Nat) (x : PowUnit) : Good s (setUnit s i x) := .fields rfl rfl rfl rfl rfl
theorem Good.setPec (s : State) (i : Nat) (x : Pec) : Good s (setPec s i x) := .fields rfl rfl rfl rfl rfl
theorem Good.setMark (s : State) (i : Nat) (x : MarkOut) : Good s (setMark s i x) := .fields rfl rfl rfl rfl rfl
theorem Good.setFlow (s : State) (d k : Nat) (x : Flow) : Good s (setFlow s d k x) := .fields rfl rfl rfl rfl rfl
theorem Good.setSite (s : State) (d k : Nat) (x : Site) : Good s (setSite s d k x) := .fields rfl rfl rfl rfl rfl
theorem Good.setPort (s : State) (p : Port) (x : PortSt) : Good s (setPort s p x) := .fields rfl rfl rfl rfl rfl
theorem Good.regWrap (s : State) (a lo w : Nat) : Good s (regWrap s a lo w) := .fields rfl rfl rfl rfl rfl
theorem Good.flagTag (s : State) (t : Word) (n : Nat) : Good s (flagTag s t n) := .fields rfl rfl rfl rfl rfl
theorem Good.parkDom (s : State) (d : Nat) : Good s (parkDom s d) := .fields rfl rfl rfl rfl rfl

/-- A change of any fields but those soundness speaks of. -/
theorem Good.struct {t : State}
    {x_now : Nat} {x_free : Nat} {x_regs : Tbl Word} {x_window : List Waiting} {x_done : List Word} {x_doms : Tbl Dom}
    {x_flows : Tbl Flow} {x_sites : Tbl Site} {x_store : Store} {x_pins : Tbl Pin} {x_rings : Tbl PinRing}
    {x_buckets : Tbl Bucket} {x_turns : Tbl Nat} {x_cums : Tbl Cum} {x_ledger : Tbl Ctx} {x_virgas : Tbl Virga}
    {x_squalls : Tbl Squall} {x_auroras : Tbl Aurora} {x_ports : Tbl PortSt} {x_lanes : Tbl Lane} {x_queues : Tbl Queue}
    {x_orders : Nat} {x_held0 : List Frame} {x_held1 : List Frame} {x_held3 : List Frame} {x_inbox : List Arrived}
    {x_owed : List (Frame × Option Bytes)} {x_written : Nat} {x_images : Tbl Image} {x_stagings : Tbl Staging}
    {x_nextHandle : Word} {x_nextStaging : Word} {x_plls : Tbl Pll} {x_refPresent : Bool} {x_refAbsent : Bool}
    {x_nclkOsc : Bool} {x_suspended : Bool} {x_units : Tbl PowUnit} {x_power : Power} {x_horizon : Horizon}
    {x_anvil : Anvil} {x_boot : Boot} {x_launchId : Nat} {x_originIds : Tbl Nat} {x_owner : Bool} {x_ownIn : Bool}
    {x_pecs : Tbl Pec} {x_marks : Tbl MarkOut} {x_straps : BitVec 2} {x_bist : Bool} {x_takeover : Bool} : Good t
    { t with
      now := x_now, free := x_free, regs := x_regs, window := x_window, done := x_done, doms := x_doms, flows := x_flows,
      sites := x_sites, store := x_store, pins := x_pins, rings := x_rings, buckets := x_buckets, turns := x_turns,
      cums := x_cums, ledger := x_ledger, virgas := x_virgas, squalls := x_squalls, auroras := x_auroras, ports := x_ports,
      lanes := x_lanes, queues := x_queues, orders := x_orders, held0 := x_held0, held1 := x_held1, held3 := x_held3,
      inbox := x_inbox, owed := x_owed, written := x_written, images := x_images, stagings := x_stagings,
      nextHandle := x_nextHandle, nextStaging := x_nextStaging, plls := x_plls, refPresent := x_refPresent,
      refAbsent := x_refAbsent, nclkOsc := x_nclkOsc, suspended := x_suspended, units := x_units, power := x_power,
      horizon := x_horizon, anvil := x_anvil, boot := x_boot, launchId := x_launchId, originIds := x_originIds,
      owner := x_owner, ownIn := x_ownIn, pecs := x_pecs, marks := x_marks, straps := x_straps, bist := x_bist,
      takeover := x_takeover } := .fields rfl rfl rfl rfl rfl

/-- A change of the DRAM's state but for its raw bytes. -/
theorem Good.dram {t : State}
    {x_state : DramState} {x_pointB : Bool} {x_binA : Nat} {x_binB : Nat} {x_bDisabled : Bool} {x_density : Nat}
    {x_marked : Tbl Nat} {x_modeFails : Tbl Nat} {x_refreshes : Tbl Nat} {x_heldRefr : Tbl Nat} {x_scrubAt : Nat}
    {x_idleSince : Nat} {x_snapshot : Bytes} {x_snapHeld : Bool} {x_lostAt : Option Nat}
    {x_change : List (Bool × Option Frame)} {x_waiting : List DramReq} {x_checks : List Nat} {x_returned : Tbl Bytes}
    {x_turn : Nat} {x_served : Nat} : Good t
    { t with dram := { t.dram with
      state := x_state, pointB := x_pointB, binA := x_binA, binB := x_binB, bDisabled := x_bDisabled, density := x_density,
      marked := x_marked, modeFails := x_modeFails, refreshes := x_refreshes, heldRefr := x_heldRefr, scrubAt := x_scrubAt,
      idleSince := x_idleSince, snapshot := x_snapshot, snapHeld := x_snapHeld, lostAt := x_lostAt, change := x_change,
      waiting := x_waiting, checks := x_checks, returned := x_returned, turn := x_turn, served := x_served } } := .fields rfl rfl rfl rfl rfl

/-- A change that may also shorten the cancel memo. -/
theorem Good.memo {s t : State} (h1 : t.pending = s.pending) (h2 : t.memo.length ≤ s.memo.length) (h3 : t.zenith = s.zenith)
    (h4 : t.jtag = s.jtag) (h5 : t.dram.cells = s.dram.cells) : Good s t :=
  ⟨h1, fun i =>
    { time := by rw [h3]; exact i.time, set := by rw [h3]; exact i.set, memo := Nat.le_trans h2 i.memo,
      failures := by rw [h4]; exact i.failures, scope := by rw [h4]; exact i.scope, cells := by rw [h5]; exact i.cells }⟩

theorem Good.foldl {α : Type} {f : State → α → State} {s t : State} (h : Good s t) (l : List α) (g : ∀ u a, Good u (f u a)) :
    Good s (l.foldl f t) := by
  induction l generalizing t with
  | nil => exact h
  | cons a r ih => exact ih (h.trans (g t a))

theorem Good.ite {s a b : State} {c : Prop} [Decidable c] (h : c → Good s a) (g : ¬ c → Good s b) :
    Good s (if c then a else b) := by
  by_cases x : c
  · rw [if_pos x]; exact h x
  · rw [if_neg x]; exact g x

/-- The outcome is a next state that is good. -/
def GoodNext (s : State) (o : Host.Outcome State Fault Refusal) : Prop := ∃ t, o = .next t ∧ Good s t

theorem GoodNext.next {s t : State} (h : Good s t) : GoodNext s (.next t) := ⟨t, rfl, h⟩

theorem GoodNext.ite {s : State} {a b : Host.Outcome State Fault Refusal} {c : Prop} [Decidable c] (h : c → GoodNext s a)
    (g : ¬ c → GoodNext s b) : GoodNext s (if c then a else b) := by
  by_cases x : c
  · rw [if_pos x]; exact h x
  · rw [if_neg x]; exact g x

/-! ### Operations that take what follows as an argument -/

theorem raiseEvent_good (s : State) (n : Nat) (b : Bytes) : Good s (raiseEvent s n b) := .of_keeps (raiseEvent_keeps s n b)

theorem reply_good (s : State) (f : Frame) (a b : Nat) (d : Bytes) : Good s (reply s f a b d) := .of_keeps (reply_keeps ..)

theorem toNimbus_good (s : State) (f : Frame) (b : Option BootInput) (w : Bool) (k : State → State)
    (h : ∀ u, Good u (k u)) : Good s (toNimbus s f b w k) := by
  unfold toNimbus
  exact .ite (fun _ => h s) (fun _ => .ite (fun _ => h s) (fun _ => .ite (fun _ => .fields rfl rfl rfl rfl rfl) (fun _ => h s)))

theorem arrive_good (s : State) (f : Frame) (ty : Nat) (b : Option BootInput) (w : Bool) (k : State → State)
    (h : ∀ u, Good u (k u)) : Good s (arrive s f ty b w k) := by
  unfold arrive
  refine .ite (fun _ => .refl s) (fun _ => .ite (fun _ => .of_keeps (discardFrame_keeps ..)) (fun _ => .ite (fun _ => .refl s)
    (fun _ => ?_)))
  exact (Good.of_keeps (acceptFrame_keeps s f)).trans (toNimbus_good _ _ _ _ _ h)

theorem onFrame_good (s : State) (f : Frame) (ty : Nat) (k : State → State) (h : ∀ u, Good u (k u)) :
    Good s (onFrame s f ty k) := arrive_good s f ty none false k h

theorem onOp_good (s : State) (f : Frame) (ty : Nat) (others : List Nat) (k : State → State) (h : ∀ u, Good u (k u)) :
    Good s (onOp s f ty others k) := by
  unfold onOp
  exact .ite (fun _ => .refl s) (fun _ => onFrame_good _ _ _ _ h)

/-- A request passes its checks before it is handled. -/
theorem request_good_of (s : State) (f : Frame) (ok : Bool) (cs : List Check) (k : State → State)
    (h : firstFault cs = none → ∀ u, Good u (k u)) : Good s (request s f ok cs k) := by
  unfold request
  refine (Good.of_keeps (freeLines_keeps s f)).trans (.ite (fun _ => reply_good ..) (fun _ => ?_))
  split
  · exact reply_good ..
  · rename_i e
    exact h e _

theorem request_good (s : State) (f : Frame) (ok : Bool) (cs : List Check) (k : State → State) (h : ∀ u, Good u (k u)) :
    Good s (request s f ok cs k) := request_good_of s f ok cs k (fun _ => h)

theorem word_good (s : State) (d : Fin 16) (k : Fin 256) (i : Instr) (base : Nat) (body : State → Nat → Flow → State)
    (h : ∀ u fi f, Good u (body u fi f)) : Good s (word s d k i base body) := by
  unfold word
  refine .ite (fun _ => ?_) (fun _ => .refl s)
  refine (Good.of_keeps (takeEvents_keeps s d (flowIx (getDom s d).payload k))).trans (.ite (fun _ => ?_) (fun _ => .ite (fun _ => ?_) (fun _ => ?_)))
  · exact (Good.of_keeps (barriers_keeps ..)).trans (.of_keeps (settle_keeps ..))
  · exact .of_keeps (progError_keeps ..)
  · exact (h _ _ _).trans (.of_keeps (charge_keeps ..))

theorem reword_good (s : State) (d : Fin 16) (k : Fin 256) (i : Instr) (op : Nat) (body : State → Nat → Flow → Nat → State)
    (h : ∀ u fi f v, Good u (body u fi f v)) : Good s (reword s d k i op body) := by
  unfold reword
  refine .ite (fun _ => ?_) (fun _ => .refl s)
  split
  · refine .ite (fun _ => .refl s) (fun _ => (Good.of_keeps (takeEvents_keeps s d (flowIx (getDom s d).payload k))).trans
      (.ite (fun _ => ?_) (fun _ => h _ _ _ _)))
    exact (Good.of_keeps (barriers_keeps ..)).trans (.of_keeps (settle_keeps ..))
  · exact .refl s

theorem finish_good (s : State) (d : Fin 16) (k : Fin 256) (i : Instr) (op : Nat) (act : State → Nat → Flow → State)
    (h : ∀ u fi f, Good u (act u fi f)) : Good s (finish s d k i op act) := by
  unfold finish
  refine .ite (fun _ => ?_) (fun _ => .refl s)
  split
  · exact .ite (fun _ => .refl s) (fun _ => h _ _ _)
  · exact .refl s

theorem emitThen_good (s : State) (d : Fin 16) (k : Fin 256) (i : Instr) (op base : Nat) (e : Emit)
    (act : Bool → State → Nat → Flow → State) (h : ∀ b u fi f, Good u (act b u fi f)) :
    Good s (emitThen s d k i op base e act) := by
  unfold emitThen
  exact .ite (fun _ => finish_good _ _ _ _ _ _ (h true)) (fun _ => word_good _ _ _ _ _ _ (fun u fi f =>
    .ite (fun _ => h false u fi f) (fun _ => .setFlow ..)))

/-! ### The operations that change what soundness speaks of -/

theorem safeState_good (s : State) : Good s (safeState s) := .memo rfl (Nat.zero_le _) rfl rfl rfl

theorem latchNow_good (s : State) (src arg : Nat) : Good s (latchNow s src arg) := by
  unfold latchNow
  refine Good.trans ?_ (safeState_good _)
  exact .fields rfl rfl rfl rfl rfl

theorem mergeFault_good (s : State) (src arg : Nat) : Good s (mergeFault s src arg) := by
  unfold mergeFault
  extract_lets a v first
  have h : Good s v.2 := by
    show Good s (if src < a.source ∧ a.latchAt = s.now then drawFree s else (0, s)).2
    split
    · exact .of_keeps (drawFree_keeps s)
    · exact .refl s
  exact h.trans (.fields rfl rfl rfl rfl rfl)

theorem overflowFault_good (s : State) (src : Nat) : Good s (overflowFault s src) := by
  unfold overflowFault
  refine .ite (fun _ => .ite (fun _ => .fields rfl rfl rfl rfl rfl) (fun _ => ?_)) (fun _ => .fields rfl rfl rfl rfl rfl)
  refine Good.trans ?_ (.of_keeps (recoveryNotice_keeps ..))
  exact .fields rfl rfl rfl rfl rfl

theorem latchFault_good (s : State) (src arg : Nat) : Good s (latchFault s src arg) := by
  unfold latchFault
  exact .ite (fun _ => latchNow_good ..) (fun _ => .ite (fun _ => mergeFault_good ..) (fun _ => overflowFault_good ..))

theorem memoAdd_good (s : State) (t : Word) : Good s (memoAdd s t) := by
  unfold memoAdd
  dsimp only
  generalize hr : s.memo.filter (fun m => decide (m.1 ≠ t)) = l
  have hf : Sound s → l.length ≤ 16 := fun i => by rw [← hr]; exact Nat.le_trans (List.length_filter_le _ _) i.memo
  have key : ∀ (u : State) (m : List (Word × Nat)), Good s u → (Sound s → m.length ≤ 16) → Good s { u with memo := m } := by
    intro u m g hm
    exact ⟨g.1, fun i => { time := (g.2 i).time, set := (g.2 i).set, memo := hm i, failures := (g.2 i).failures,
                           scope := (g.2 i).scope, cells := (g.2 i).cells }⟩
  by_cases c : 16 ≤ l.length
  · simp only [if_pos c]
    exact key _ _ (.regBump ..) (fun i => by have := hf i; simp only [List.length_append, List.length_drop, List.length_singleton]; omega)
  · simp only [if_neg c]
    exact key _ _ (.refl s) (fun i => by simp only [List.length_append, List.length_singleton]; omega)

/-- A change of Zenith that keeps its time and its pending set. -/
theorem Good.zenith {s t : State} (h1 : t.pending = s.pending) (h2 : t.memo = s.memo) (h3 : t.zenith.time = s.zenith.time)
    (h3' : t.zenith.pendingSet = s.zenith.pendingSet) (h4 : t.jtag = s.jtag) (h5 : t.dram.cells = s.dram.cells) : Good s t :=
  ⟨h1, fun i =>
    { time := by rw [h3]; exact i.time, set := by rw [h3']; exact i.set, memo := by rw [h2]; exact i.memo,
      failures := by rw [h4]; exact i.failures, scope := by rw [h4]; exact i.scope, cells := by rw [h5]; exact i.cells }⟩

/-- A change of JTAG that keeps its failures and its scope. -/
theorem Good.jtag {s t : State} (h1 : t.pending = s.pending) (h2 : t.memo = s.memo) (h3 : t.zenith = s.zenith)
    (h4 : t.jtag.failures = s.jtag.failures) (h4' : t.jtag.scope = s.jtag.scope) (h5 : t.dram.cells = s.dram.cells) : Good s t :=
  ⟨h1, fun i =>
    { time := by rw [h3]; exact i.time, set := by rw [h3]; exact i.set, memo := by rw [h2]; exact i.memo,
      failures := by rw [h4]; exact i.failures, scope := by rw [h4']; exact i.scope, cells := by rw [h5]; exact i.cells }⟩

/-- A new challenge is some value, and counts as issued. -/
theorem newChallenge_eq (s : State) : ∃ v, newChallenge s =
    { s with free := s.free + 4, jtag := { s.jtag with challenge := v, issued := s.jtag.issued + 1 } } := ⟨_, rfl⟩

theorem newChallenge_good (s : State) : Good s (newChallenge s) := by
  obtain ⟨v, e⟩ := newChallenge_eq s
  rw [e]
  exact .jtag rfl rfl rfl rfl rfl rfl

theorem jtagLoad_good (s : State) (c : Nat) : Good s (jtagLoad s c) := .jtag rfl rfl rfl rfl rfl rfl

theorem debugResult_good (s : State) (n : Nat) (e d : Bool) : Good s (debugResult s n e d) := .jtag rfl rfl rfl rfl rfl rfl

theorem acceptExchange_good (s : State) (q h : Nat) (th : Int) : Good s (acceptExchange s q h th) := by
  unfold acceptExchange
  dsimp only
  split <;> (refine Good.trans ?_ (.regBump ..); exact .zenith rfl rfl rfl rfl rfl rfl)

theorem rejectExchange_good (s : State) : Good s (rejectExchange s) := by
  refine Good.trans ?_ (.regBump ..)
  exact .zenith rfl rfl rfl rfl rfl rfl

theorem configure_good (s : State) : Good s (configure s) := by
  unfold configure
  dsimp only
  refine Good.trans (Good.trans ?_ (.regPut ..)) (.regPut ..)
  split <;> exact .zenith rfl rfl rfl rfl rfl rfl

theorem putBurst_good (s : State) (n : Nat) (b : Bytes) : Good s (putBurst s n b) :=
  ⟨rfl, fun i => { time := i.time, set := i.set, memo := i.memo, failures := i.failures, scope := i.scope,
                   cells := writes_keeps_wf _ _ _ i.cells }⟩

theorem cells_reset_good {s t : State} (h1 : t.pending = s.pending) (h2 : t.memo = s.memo) (h3 : t.zenith = s.zenith)
    (h4 : t.jtag = s.jtag) (h5 : t.dram.cells = []) : Good s t :=
  ⟨h1, fun i =>
    { time := by rw [h3]; exact i.time, set := by rw [h3]; exact i.set, memo := by rw [h2]; exact i.memo,
      failures := by rw [h4]; exact i.failures, scope := by rw [h4]; exact i.scope, cells := by rw [h5]; rfl }⟩

theorem resetRegs_good (s : State) (keep : Nat → Bool) : Good s (resetRegs s keep) := .of_keeps (resetRegs_keeps s keep)

theorem warmState_good (s : State) : Good s (warmState s) := by
  refine Good.trans (t := _) ?_ (resetRegs_good _ _)
  exact ⟨rfl, fun i => { time := i.time, set := (fun _ h => by cases h), memo := Nat.zero_le _, failures := i.failures,
                         scope := Nat.zero_le _, cells := rfl }⟩

theorem powerOnState_good (s : State) : Good s (powerOnState s) :=
  ⟨rfl, fun _ => { time := ⟨Nat.zero_lt_succ _, Nat.zero_lt_succ _⟩, set := (fun _ h => by cases h), memo := Nat.zero_le _,
                   failures := Nat.zero_le _,
                   scope := Nat.zero_le _, cells := rfl }⟩

theorem stepClock_good (s : State) : Good s (stepClock s) := by
  unfold stepClock
  refine .foldl (t := { s with zenith := { s.zenith with stepped := true } }) ?_ _ (fun u d => ?_)
  · exact .zenith rfl rfl rfl rfl rfl rfl
  exact .ite (fun _ => .of_keeps (endUnsynced_keeps ..)) (fun _ => .refl u)

end Sys2Proof.Machine
end

