-- ==== Sys2Proof/Laws/Commands.lean ====
section
/-! SUPPORT. Each command answers a next state, touches no waiting command and keeps soundness: one lemma per
command, and one for each operation that its meaning runs and that Laws/Keeps.lean does not cover. -/

namespace Sys2Proof.Machine

theorem fld_lt (b : Bytes) (off n : Nat) : fld b off n < 256 ^ n := by
  have h : ∀ l : Bytes, leVal l < 256 ^ l.length := by
    intro l
    induction l with
    | nil => exact Nat.one_pos
    | cons x r ih =>
      have hx : x.toNat < 256 := x.isLt
      show x.toNat + 256 * leVal r < 256 ^ (r.length + 1)
      rw [Nat.pow_succ]
      omega
  exact Nat.lt_of_lt_of_le (h _) (Nat.pow_le_pow_right (by decide) (List.length_take_le _ _))

/-- A request without a fault passes every check. -/
theorem firstFault_none {cs : List Check} (h : firstFault cs = none) : ∀ c ∈ cs, c.2 = true := by
  have key : ∀ (l : List Check) (m : Option Nat),
      l.foldl (fun m c => if c.2 then m else match m with
        | none => some c.1
        | some o => some (min o c.1)) m = none → m = none ∧ ∀ c ∈ l, c.2 = true := by
    intro l
    induction l with
    | nil => exact fun m h => ⟨h, fun c hc => absurd hc List.not_mem_nil⟩
    | cons c r ih =>
      intro m h
      rw [List.foldl_cons] at h
      obtain ⟨h1, h2⟩ := ih _ h
      by_cases hc : c.2 = true
      · rw [if_pos hc] at h1
        exact ⟨h1, fun d hd => (List.mem_cons.mp hd).elim (fun e => e ▸ hc) (h2 d)⟩
      · rw [if_neg hc] at h1
        cases m <;> cases h1
  exact (key cs none h).2

/-- A time of a well-formed TIME_SET is in range. -/
theorem timeSet_inRange {b : Bytes} (h : firstFault (timeSetChecks b) = none) : (stampAt b 16).InRange := by
  have hns : fld b (16 + 8) 4 < 1000000000 := of_decide_eq_true
    (firstFault_none h (16 + 8, decide (fld b (16 + 8) 4 < 1000000000)) (by simp [timeSetChecks, timeChecks]))
  have hfr : fld b (16 + 12) 2 * 65536 < 4294967296 := by
    have h := fld_lt b (16 + 12) 2
    omega
  exact ⟨hns, hfr⟩

theorem doTimeSetSet_good (f : Frame) (s : State) : Good s (doTimeSetSet f s) := by
  unfold doTimeSetSet
  dsimp only
  refine request_good_of _ _ _ _ _ (fun hc u => .ite (fun _ => ?_) (fun _ => reply_good ..))
  refine ⟨rfl, fun i => { time := i.time, set := ?_, memo := i.memo, failures := i.failures, scope := i.scope, cells := i.cells }⟩
  intro p hp
  rcases List.mem_append.mp hp with h | h
  · exact i.set p h
  · rw [List.mem_singleton] at h
    rw [h]
    exact timeSet_inRange hc

theorem execTimeSetSet_good (f : Frame) (s : State) : GoodNext s (execTimeSetSet f s) := by
  unfold execTimeSetSet
  try dsimp only
  iterate 24 (all_goals try (first
    | with_reducible apply GoodNext.next
    | with_reducible exact Good.refl _
    | intro _
    | (apply Good.before; with_reducible apply onOp_good)
    | (apply Good.before; with_reducible apply doTimeSetSet_good)))
  done

theorem execComplianceViolation_good (n : Fin 8) (sample : Nat) (s : State) : GoodNext s (execComplianceViolation n sample s) := by
  unfold execComplianceViolation
  try dsimp only
  iterate 24 (all_goals try (first
    | with_reducible apply GoodNext.next
    | (with_reducible apply GoodNext.ite) <;> intro _
    | with_reducible exact Good.refl _
    | (apply Good.before; with_reducible apply Good.of_keeps (stopEarly_keeps ..))
    | (apply Good.before; with_reducible apply Good.setAurora)
    | (apply Good.before; with_reducible apply Good.of_keeps (raiseEvent_keeps ..))))
  done

theorem nimbusFault_good (s : State) (src : Nat) : Good s (nimbusFault s src) := by
  unfold nimbusFault
  try dsimp only
  iterate 24 (all_goals try (first
    | with_reducible exact Good.refl _
    | (apply Good.before; with_reducible apply latchFault_good)
    | (with_reducible apply Good.ite) <;> intro _
    | (apply Good.before; with_reducible apply Good.struct)))
  done

theorem examine_good (acc : State × List Waiting) (w : Waiting) : Good acc.1 (examine acc w).1 := by
  unfold examine
  try dsimp only
  iterate 24 (all_goals try (first
    | (apply Good.before; with_reducible apply Good.of_keeps (refuseWaiting_keeps ..))
    | (apply Good.before; with_reducible apply Good.of_keeps (admitJob_keeps ..))
    | split
    | with_reducible apply Good.fields <;> rfl))
  done

theorem examineFold_good (l : List Waiting) (acc : State × List Waiting) : Good acc.1 (l.foldl examine acc).1 := by
  induction l generalizing acc with
  | nil => exact .refl _
  | cons w r ih => exact (examine_good acc w).trans (ih _)

theorem admitPass_good (s : State) : Good s (admitPass s) := by
  unfold admitPass
  exact .ite (fun _ => examineFold_good _ (s, [])) (fun _ => .refl s)

theorem takeSubmit_good (s : State) (f : Frame) : Good s (takeSubmit s f) := by
  have h0 : Good s { s with done := s.done.filter (· ≠ f.tag) } := .fields rfl rfl rfl rfl rfl
  unfold takeSubmit
  extract_lets u
  refine Good.trans h0 (.ite (fun _ => ?_) (fun _ => ?_))
  · refine Good.trans ?_ (.of_keeps (refuseJob_keeps ..))
    exact .memo rfl (List.length_filter_le _ _) rfl rfl rfl
  · split
    · exact .of_keeps (refuseJob_keeps ..)
    · exact Good.before (admitPass_good _) (.fields rfl rfl rfl rfl rfl)

theorem drainJobs_good (n : Nat) (s : State) : Good s (drainJobs n s) := by
  induction n generalizing s with
  | zero => exact .refl s
  | succ n ih =>
    unfold drainJobs
    split
    · exact .refl s
    · refine .ite (fun _ => ?_) (fun _ => .refl s)
      refine Good.before (ih _) (Good.before (takeSubmit_good _ _) (Good.before (.of_keeps (freeLines_keeps _ _)) ?_))
      exact .fields rfl rfl rfl rfl rfl

theorem clearBursts_good (s : State) (bs : List Nat) : Good s (clearBursts s bs) :=
  ⟨rfl, fun i => { time := i.time, set := i.set, memo := i.memo, failures := i.failures, scope := i.scope,
                   cells := twf_filter _ _ _ i.cells }⟩

theorem loadData_good (s : State) (f : Frame) : Good s (loadData s f) := by
  unfold loadData
  try dsimp only
  iterate 24 (all_goals try (first
    | with_reducible exact Good.refl _
    | (apply Good.before; with_reducible apply Good.of_keeps (reply_keeps ..))
    | (apply Good.before; with_reducible apply clearBursts_good)
    | (apply Good.before; with_reducible apply Good.setStaging)
    | (with_reducible apply Good.ite) <;> intro _))
  done

theorem loadClose_good (s : State) (f : Frame) : Good s (loadClose s f) := by
  unfold loadClose
  try dsimp only
  iterate 24 (all_goals try (first
    | with_reducible exact Good.refl _
    | (apply Good.before; with_reducible apply Good.of_keeps (reply_keeps ..))
    | (apply Good.before; with_reducible apply Good.setStaging)
    | (apply Good.before; with_reducible apply Good.of_keeps (placeImage_keeps ..))
    | split
    | (apply Good.before; with_reducible apply Good.struct)))
  done

theorem doLoad_good (s : State) (f : Frame) : Good s (doLoad s f) := by
  unfold doLoad
  try dsimp only
  iterate 24 (all_goals try (first
    | with_reducible exact Good.refl _
    | intro _
    | (apply Good.before; with_reducible apply request_good)
    | (apply Good.before; with_reducible apply Good.of_keeps (loadOpen_keeps ..))
    | (apply Good.before; with_reducible apply loadData_good)
    | (apply Good.before; with_reducible apply loadClose_good)
    | (apply Good.before; with_reducible apply Good.of_keeps (loadFree_keeps ..))
    | (apply Good.before; with_reducible apply Good.of_keeps (loadAbort_keeps ..))
    | (with_reducible apply Good.ite) <;> intro _))
  done

theorem drainLoads_good (n : Nat) (s : State) : Good s (drainLoads n s) := by
  induction n generalizing s with
  | zero => exact .refl s
  | succ n ih =>
    unfold drainLoads
    split
    · exact .refl s
    · rename_i f r _
      have h : Good s (loadDram s f).1 := .of_keeps (loadDram_keeps s f)
      refine .ite (fun _ => .ite (fun _ => ?_) (fun _ => h)) (fun _ => .refl s)
      exact Good.before (ih _) (Good.before (doLoad_good _ _) (h.trans (.fields rfl rfl rfl rfl rfl)))

theorem reexamine_good (s : State) : Good s (reexamine s) := by
  unfold reexamine
  try dsimp only
  iterate 24 (all_goals try (first
    | with_reducible exact Good.refl _
    | (apply Good.before; with_reducible apply admitPass_good)
    | (apply Good.before; with_reducible apply drainJobs_good)
    | (apply Good.before; with_reducible apply drainLoads_good)))
  done

theorem execBistComplete_good (failed : Bool) (s : State) : GoodNext s (execBistComplete failed s) := by
  unfold execBistComplete
  try dsimp only
  iterate 24 (all_goals try (first
    | with_reducible apply GoodNext.next
    | (with_reducible apply GoodNext.ite) <;> intro _
    | with_reducible exact Good.refl _
    | (apply Good.before; with_reducible apply Good.regPut)
    | (apply Good.before; with_reducible apply reexamine_good)
    | (apply Good.before; with_reducible apply Good.struct)))
  done

theorem recheckRetired_good (s : State) : Good s (recheckRetired s) := by
  unfold recheckRetired
  try dsimp only
  iterate 24 (all_goals try (first
    | with_reducible exact Good.refl _
    | intro _
    | (apply Good.before; with_reducible apply Good.of_keeps (refuseWaiting_keeps ..))
    | (apply Good.before; with_reducible apply drainLoads_good)
    | (with_reducible apply Good.ite) <;> intro _
    | with_reducible apply Good.foldl))
  done

theorem retireBank_good (s : State) (b : Nat) : Good s (retireBank s b) := by
  unfold retireBank
  try dsimp only
  iterate 24 (all_goals try (first
    | with_reducible exact Good.refl _
    | intro _
    | (apply Good.before; with_reducible apply Good.of_keeps (dropStaged_keeps ..))
    | (apply Good.before; with_reducible apply recheckRetired_good)
    | (apply Good.before; with_reducible apply Good.of_keeps (unitOff_keeps ..))
    | with_reducible apply Good.foldl
    | (apply Good.before; with_reducible apply Good.struct)))
  done

theorem failBank_good (s : State) (b : Nat) : Good s (failBank s b) := by
  unfold failBank
  try dsimp only
  iterate 24 (all_goals try (first
    | (apply Good.before; with_reducible apply retireBank_good)
    | (with_reducible apply Good.ite) <;> intro _
    | with_reducible apply Good.fields <;> rfl))
  done

theorem retireAurora_good (s : State) (n : Nat) : Good s (retireAurora s n) := by
  unfold retireAurora
  try dsimp only
  iterate 24 (all_goals try (first
    | (apply Good.before; with_reducible apply recheckRetired_good)
    | (apply Good.before; with_reducible apply Good.of_keeps (unitOff_keeps ..))
    | (apply Good.before; with_reducible apply Good.of_keeps (freeAuroraImage_keeps ..))
    | with_reducible apply Good.fields <;> rfl))
  done

theorem retireWaiting_good (s : State) : Good s (retireWaiting s) := by
  unfold retireWaiting
  try dsimp only
  iterate 24 (all_goals try (first
    | with_reducible exact Good.refl _
    | intro _
    | (apply Good.before; with_reducible apply retireBank_good)
    | (with_reducible apply Good.ite) <;> intro _
    | with_reducible apply Good.foldl))
  done

theorem testUnits_good (s : State) (d : Nat) : Good s (testUnits s d) := by
  unfold testUnits
  try dsimp only
  iterate 24 (all_goals try (first
    | with_reducible exact Good.refl _
    | intro _
    | (apply Good.before; with_reducible apply Good.of_keeps (raiseEvent_keeps ..))
    | (apply Good.before; with_reducible apply failBank_good)
    | (apply Good.before; with_reducible apply retireAurora_good)
    | (apply Good.before; with_reducible apply retireWaiting_good)
    | (with_reducible apply Good.ite) <;> intro _
    | with_reducible apply Good.foldl))
  done

theorem freeSlot_good (s : State) (d : Nat) : Good s (freeSlot s d) := by
  unfold freeSlot
  try dsimp only
  iterate 24 (all_goals try (first
    | with_reducible exact Good.refl _
    | intro _
    | (apply Good.before; with_reducible apply testUnits_good)
    | (apply Good.before; with_reducible apply Good.setDom)
    | (apply Good.before; with_reducible apply Good.setUnit)
    | with_reducible apply Good.foldl
    | (apply Good.before; with_reducible apply Good.struct)))
  done

theorem discardAll_good (s : State) : Good s (discardAll s) := by
  unfold discardAll
  try dsimp only
  iterate 24 (all_goals try (first
    | intro _
    | (apply Good.before; with_reducible apply freeSlot_good)
    | (apply Good.before; with_reducible apply Good.of_keeps (voidRange_keeps ..))
    | (with_reducible apply Good.ite) <;> intro _
    | with_reducible apply Good.foldl
    | with_reducible apply Good.fields <;> rfl))
  done

theorem faultNotice_good (s : State) : Good s (faultNotice s) := by
  unfold faultNotice
  try dsimp only
  iterate 24 (all_goals try (first
    | with_reducible exact Good.refl _
    | intro _
    | (apply Good.before; with_reducible apply Good.of_keeps (purgeQueues_keeps ..))
    | (apply Good.before; with_reducible apply discardAll_good)
    | (apply Good.before; with_reducible apply Good.of_keeps (releaseDeferred_keeps ..))
    | (apply Good.before; with_reducible apply Good.of_keeps (enqueue_keeps ..))
    | (apply Good.before; with_reducible apply Good.of_keeps (tellAbsent_keeps ..))
    | (apply Good.before; with_reducible apply Good.of_keeps (commitFrame_keeps ..))
    | (with_reducible apply Good.ite) <;> intro _
    | with_reducible apply Good.foldl
    | (apply Good.before; with_reducible apply Good.struct)))
  done

theorem haltStart_good (s : State) (b : BootInput) (k : Nat) : Good s (haltStart s b k) := by
  unfold haltStart
  try dsimp only
  iterate 24 (all_goals try (first
    | with_reducible exact Good.refl _
    | intro _
    | (apply Good.before; with_reducible apply faultNotice_good)
    | (apply Good.before; with_reducible apply Good.of_keeps (releaseDeferred_keeps ..))
    | (apply Good.before; with_reducible apply Good.of_keeps (recoveryNotice_keeps ..))
    | (apply Good.before; with_reducible apply Good.setPll)
    | (apply Good.before; with_reducible apply Good.of_keeps (bringUp_keeps ..))
    | (apply Good.before; with_reducible apply Good.of_keeps (appendLog_keeps ..))
    | (with_reducible apply Good.ite) <;> intro _
    | with_reducible apply Good.foldl
    | (apply Good.before; with_reducible apply Good.struct)))
  done

theorem goOn_good (s : State) (b : BootInput) (k : State → State) (h : ∀ u, Good u (k u)) : Good s (goOn s b k) := by
  unfold goOn
  exact .ite (fun _ => .refl s) (fun _ => .ite (fun _ => haltStart_good ..) (fun _ => h s))

theorem step7_good (b : BootInput) (s : State) : Good s (step7 b s) := by
  unfold step7
  dsimp only
  refine .ite (fun _ => ?_) (fun _ => ?_)
  · refine Good.before (haltStart_good ..) (Good.before (latchFault_good ..) (Good.before (.of_keeps (noteStep_keeps ..)) ?_))
    exact cells_reset_good rfl rfl rfl rfl rfl
  · refine Good.before (.of_keeps (passStep_keeps ..)) ?_
    split
    · refine Good.before (.of_keeps (lowBin_keeps ..)) (Good.before (.of_keeps (lowBin_keeps ..)) ?_)
      exact cells_reset_good rfl rfl rfl rfl rfl
    · refine Good.before (.of_keeps (lowBin_keeps ..)) ?_
      exact cells_reset_good rfl rfl rfl rfl rfl

theorem retireChannel_good (s : State) (ch : Nat) : Good s (retireChannel s ch) := by
  unfold retireChannel
  try dsimp only
  iterate 24 (all_goals try (first
    | with_reducible exact Good.refl _
    | (apply Good.before; with_reducible apply Good.of_keeps (dropStaged_keeps ..))
    | (apply Good.before; with_reducible apply recheckRetired_good)
    | (apply Good.before; with_reducible apply Good.struct)))
  done

theorem step8_good (b : BootInput) (s : State) : Good s (step8 b s) := by
  unfold step8
  try dsimp only
  iterate 24 (all_goals try (first
    | intro _
    | (apply Good.before; with_reducible apply Good.regSet)
    | (apply Good.before; with_reducible apply Good.of_keeps (raiseEvent_keeps ..))
    | (apply Good.before; with_reducible apply retireChannel_good)
    | (apply Good.before; with_reducible apply Good.of_keeps (passStep_keeps ..))
    | with_reducible apply Good.foldl
    | with_reducible apply Good.fields <;> rfl))
  done

theorem step9_good (b : BootInput) (s : State) : Good s (step9 b s) := by
  unfold step9
  try dsimp only
  iterate 24 (all_goals try (first
    | with_reducible exact Good.refl _
    | (apply Good.before; with_reducible apply Good.of_keeps (sizeQueues_keeps ..))
    | (apply Good.before; with_reducible apply Good.of_keeps (passStep_keeps ..))
    | (apply Good.before; with_reducible apply configure_good)
    | (apply Good.before; with_reducible apply Good.of_keeps (writePlan_keeps ..))))
  done

theorem takeDiode_good (s : State) (value : Option Int) : Good s (takeDiode s value) := by
  unfold takeDiode
  try dsimp only
  iterate 24 (all_goals try (first
    | (apply Good.before; with_reducible apply Good.of_keeps (afterReading_keeps ..))
    | (apply Good.before; with_reducible apply Good.of_keeps (allDoze_keeps ..))
    | (apply Good.before; with_reducible apply latchFault_good)
    | split
    | with_reducible apply Good.fields <;> rfl))
  done

theorem takeRings_good (s : State) (raw : List Int) : Good s (takeRings s raw) := by
  unfold takeRings
  try dsimp only
  iterate 24 (all_goals try (first
    | intro _
    | (apply Good.before; with_reducible apply Good.of_keeps (dueByTemperature_keeps ..))
    | (apply Good.before; with_reducible apply Good.of_keeps (afterReading_keeps ..))
    | (apply Good.before; with_reducible apply Good.of_keeps (allDoze_keeps ..))
    | (apply Good.before; with_reducible apply latchFault_good)
    | (with_reducible apply Good.ite) <;> intro _
    | with_reducible apply Good.foldl
    | with_reducible apply Good.fields <;> rfl))
  done

theorem bootReadings_good (b : BootInput) (s : State) : Good s (bootReadings b s) := by
  unfold bootReadings
  try dsimp only
  iterate 24 (all_goals try (first
    | with_reducible exact Good.refl _
    | (apply Good.before; with_reducible apply takeDiode_good)
    | (apply Good.before; with_reducible apply takeRings_good)
    | (apply Good.before; with_reducible apply Good.of_keeps (trimRings_keeps ..))
    | (with_reducible apply Good.ite) <;> intro _
    | (apply Good.before; with_reducible apply Good.struct)))
  done

theorem failItem_good (s : State) (item : CalItem) : Good s (failItem s item) := by
  unfold failItem
  try dsimp only
  iterate 24 (all_goals try (first
    | with_reducible exact Good.refl _
    | (apply Good.before; with_reducible apply Good.of_keeps (dropDue_keeps ..))
    | (apply Good.before; with_reducible apply Good.regBump)
    | (apply Good.before; with_reducible apply Good.of_keeps (raiseEvent_keeps ..))
    | (apply Good.before; with_reducible apply retireChannel_good)
    | (apply Good.before; with_reducible apply retireAurora_good)
    | (apply Good.before; with_reducible apply Good.of_keeps (tryFence_keeps ..))
    | split
    | (apply Good.before; with_reducible apply Good.struct)))
  done

theorem tryItem_good (n : Nat) (l : List (List Int × List Int)) (item : CalItem) (s : State) : Good s (tryItem n l item s) := by
  induction n generalizing l s with
  | zero => exact failItem_good ..
  | succ n ih =>
    unfold tryItem
    extract_lets x u
    have h : Good s u := .of_keeps (runCalibration_keeps s item x.1)
    refine h.trans (.ite (fun _ => ?_) (fun _ => ?_))
    · exact Good.before (.of_keeps (noteAccept_keeps ..)) (.of_keeps (stageItem_keeps ..))
    · exact Good.before (ih ..) (.regBump ..)

theorem measureItem_good (b : BootInput) (s : State) (item : CalItem) : Good s (measureItem b s item) := by
  unfold measureItem
  try dsimp only
  iterate 24 (all_goals try (first
    | with_reducible exact Good.refl _
    | (apply Good.before; with_reducible apply tryItem_good)
    | (with_reducible apply Good.ite) <;> intro _))
  done

theorem step11_good (b : BootInput) (s : State) : Good s (step11 b s) := by
  unfold step11
  try dsimp only
  iterate 24 (all_goals try (first
    | with_reducible exact Good.refl _
    | intro _
    | (apply Good.before; with_reducible apply Good.of_keeps (restoreBlocks_keeps ..))
    | (apply Good.before; with_reducible apply bootReadings_good)
    | (apply Good.before; with_reducible apply measureItem_good)
    | (apply Good.before; with_reducible apply Good.of_keeps (passStep_keeps ..))
    | (apply Good.before; with_reducible apply Good.of_keeps (doFence_keeps ..))
    | with_reducible apply Good.foldl
    | split
    | (apply Good.before; with_reducible apply Good.struct)))
  done

theorem from11_good (b : BootInput) (s : State) : Good s (from11 b s) :=
  (step11_good b s).trans (goOn_good _ _ _ (fun u => .of_keeps (step12_keeps b u)))

theorem from10_good (b : BootInput) (s : State) : Good s (from10 b s) :=
  (Good.of_keeps (step10_keeps b s)).trans (goOn_good _ _ _ (fun u => from11_good b u))

theorem from9_good (b : BootInput) (s : State) : Good s (from9 b s) :=
  (step9_good b s).trans (goOn_good _ _ _ (fun u => from10_good b u))

theorem from8_good (b : BootInput) (s : State) : Good s (from8 b s) :=
  (step8_good b s).trans (goOn_good _ _ _ (fun u => from9_good b u))

theorem from7_good (b : BootInput) (s : State) : Good s (from7 b s) :=
  (step7_good b s).trans (goOn_good _ _ _ (fun u => from8_good b u))

theorem doPowerSleep_good (f : Frame) (s : State) : Good s (doPowerSleep f s) := by
  unfold doPowerSleep
  try dsimp only
  iterate 24 (all_goals try (first
    | with_reducible exact Good.refl _
    | intro _
    | (apply Good.before; with_reducible apply request_good)
    | (apply Good.before; with_reducible apply Good.of_keeps (toState_keeps ..))
    | (apply Good.before; with_reducible apply Good.setUnit)
    | (apply Good.before; with_reducible apply Good.of_keeps (reply_keeps ..))
    | with_reducible apply Good.foldl))
  done

theorem retireHalo_good (s : State) (n : Nat) : Good s (retireHalo s n) := by
  unfold retireHalo
  try dsimp only
  iterate 24 (all_goals try (first
    | with_reducible exact Good.refl _
    | intro _
    | (apply Good.before; with_reducible apply retireBank_good)
    | (apply Good.before; with_reducible apply Good.of_keeps (raiseEvent_keeps ..))
    | with_reducible apply Good.foldl))
  done

theorem startPll_good (b : BootInput) (s : State) (n : Nat) : Good s (startPll b s n) := by
  unfold startPll
  try dsimp only
  iterate 24 (all_goals try (first
    | with_reducible exact Good.refl _
    | (apply Good.before; with_reducible apply Good.of_keeps (lockedCount_keeps ..))
    | (apply Good.before; with_reducible apply Good.setPll)
    | (apply Good.before; with_reducible apply retireHalo_good)
    | (apply Good.before; with_reducible apply Good.regBump)
    | (with_reducible apply Good.ite) <;> intro _))
  done

theorem step6_good (b : BootInput) (s : State) : Good s (step6 b s) := by
  unfold step6
  try dsimp only
  iterate 24 (all_goals try (first
    | intro _
    | (apply Good.before; with_reducible apply startPll_good)
    | (apply Good.before; with_reducible apply haltStart_good)
    | (apply Good.before; with_reducible apply Good.of_keeps (noteStep_keeps ..))
    | (apply Good.before; with_reducible apply Good.of_keeps (passStep_keeps ..))
    | (with_reducible apply Good.ite) <;> intro _
    | with_reducible apply Good.foldl
    | with_reducible apply Good.fields <;> rfl))
  done

theorem from6_good (b : BootInput) (s : State) : Good s (from6 b s) :=
  (step6_good b s).trans (goOn_good _ _ _ (fun u => from7_good b u))

theorem from5_good (b : BootInput) (s : State) : Good s (from5 b s) :=
  (Good.of_keeps (step5_keeps b s)).trans (goOn_good _ _ _ (fun u => from6_good b u))

theorem doCalSetBoardTerms_good (f : Frame) (s : State) : Good s (doCalSetBoardTerms f s) := by
  unfold doCalSetBoardTerms
  try dsimp only
  iterate 24 (all_goals try (first
    | with_reducible exact Good.refl _
    | intro _
    | (apply Good.before; with_reducible apply request_good)
    | (apply Good.before; with_reducible apply Good.of_keeps (stageChan_keeps ..))
    | (apply Good.before; with_reducible apply Good.of_keeps (tryFence_keeps ..))
    | (apply Good.before; with_reducible apply Good.of_keeps (reply_keeps ..))
    | with_reducible apply Good.foldl))
  done

theorem execCalSetBoardTerms_good (f : Frame) (s : State) : GoodNext s (execCalSetBoardTerms f s) := by
  unfold execCalSetBoardTerms
  try dsimp only
  iterate 24 (all_goals try (first
    | with_reducible apply GoodNext.next
    | with_reducible exact Good.refl _
    | intro _
    | (apply Good.before; with_reducible apply onOp_good)
    | (apply Good.before; with_reducible apply doCalSetBoardTerms_good)))
  done

theorem execAuroraRefillLanding_good (n : Fin 8) (s : State) : GoodNext s (execAuroraRefillLanding n s) := by
  unfold execAuroraRefillLanding
  try dsimp only
  iterate 24 (all_goals try (first
    | with_reducible apply GoodNext.next
    | with_reducible exact Good.refl _
    | (apply Good.before; with_reducible apply Good.setAurora)
    | split))
  done

theorem execSamplePreload_good (cells : Bytes) (s : State) : GoodNext s (execSamplePreload cells s) := by
  unfold execSamplePreload
  try dsimp only
  iterate 24 (all_goals try (first
    | with_reducible apply GoodNext.next
    | (apply Good.before; with_reducible apply jtagLoad_good)
    | with_reducible apply Good.jtag <;> rfl))
  done

theorem afterFree_good (s : State) : Good s (afterFree s) := by
  unfold afterFree
  try dsimp only
  iterate 24 (all_goals try (first
    | with_reducible exact Good.refl _
    | (apply Good.before; with_reducible apply Good.of_keeps (tryTakeover_keeps ..))
    | (apply Good.before; with_reducible apply Good.of_keeps (tryFence_keeps ..))
    | (apply Good.before; with_reducible apply reexamine_good)
    | (apply Good.before; with_reducible apply drainLoads_good)))
  done

theorem endRecovery_good (s : State) : Good s (endRecovery s) := by
  unfold endRecovery
  refine Good.before (afterFree_good _) ((Good.of_keeps (reinit_keeps s)).trans ?_)
  have h : ∀ u, Good u (recoveryNotice { u with
      suspended := false
      dram := { u.dram with snapHeld := false }
      anvil := { u.anvil with state := .running, recoveries := (u.anvil.recoveries + 1) % 65536 } } 0 1 0) :=
    fun u => Good.before (.of_keeps (recoveryNotice_keeps ..)) (.fields rfl rfl rfl rfl rfl)
  exact .ite (fun _ => (h _).trans (.of_keeps (startTwinkle_keeps _))) (fun _ => h _)

theorem execAuroraUnderrun_good (n : Fin 8) (sample : Nat) (s : State) : GoodNext s (execAuroraUnderrun n sample s) := by
  unfold execAuroraUnderrun
  try dsimp only
  iterate 24 (all_goals try (first
    | with_reducible apply GoodNext.next
    | (with_reducible apply GoodNext.ite) <;> intro _
    | with_reducible exact Good.refl _
    | (apply Good.before; with_reducible apply Good.of_keeps (stopEarly_keeps ..))
    | (apply Good.before; with_reducible apply Good.setAurora)))
  done

theorem execHalt_good (d : Fin 16) (k : Fin 256) (e : Emit) (s : State) : GoodNext s (execHalt d k e s) := by
  unfold execHalt
  try dsimp only
  iterate 24 (all_goals try (first
    | with_reducible apply GoodNext.next
    | with_reducible exact Good.refl _
    | intro _
    | (apply Good.before; with_reducible apply emitThen_good)
    | (apply Good.before; with_reducible apply Good.of_keeps (retireFlow_keeps ..))))
  done

theorem execExtestTrain_good (s : State) : GoodNext s (execExtestTrain s) := by
  unfold execExtestTrain
  try dsimp only
  iterate 24 (all_goals try (first
    | with_reducible apply GoodNext.next
    | with_reducible exact Good.refl _
    | (apply Good.before; with_reducible apply jtagLoad_good)))
  done

theorem execTwinkleTransition_good (s : State) : GoodNext s (execTwinkleTransition s) := by
  unfold execTwinkleTransition
  try dsimp only
  iterate 24 (all_goals try (first
    | with_reducible apply GoodNext.next
    | (with_reducible apply GoodNext.ite) <;> intro _
    | with_reducible apply Good.fields <;> rfl))
  done

theorem execDipBegin_good (r : Rail) (s : State) : GoodNext s (execDipBegin r s) := by
  unfold execDipBegin
  try dsimp only
  iterate 24 (all_goals try (first
    | with_reducible apply GoodNext.next
    | with_reducible exact Good.refl _
    | (apply Good.before; with_reducible apply Good.of_keeps (setDip_keeps ..))
    | split))
  done

theorem orError_good (s : State) (d k fi : Nat) (f : Flow) (late : Bool) (o : Option Nat) (act : State) (h : Good s act) :
    Good s (orError s d k fi f late o act) := by
  unfold orError
  split
  · exact Good.before (.of_keeps (progErrorL_keeps ..)) (.setFlow ..)
  · exact h

theorem execCall_good (d : Fin 16) (k : Fin 256) (e : Emit) (target : Nat) (s : State) : GoodNext s (execCall d k e target s) := by
  unfold execCall
  try dsimp only
  iterate 24 (all_goals try (first
    | with_reducible apply GoodNext.next
    | with_reducible exact Good.refl _
    | intro _
    | (apply Good.before; with_reducible apply emitThen_good)
    | (apply Good.before; with_reducible apply orError_good)
    | (apply Good.before; with_reducible apply Good.setFlow)))
  done

theorem execJobAdmit_good (s : State) : GoodNext s (execJobAdmit s) := by
  unfold execJobAdmit
  try dsimp only
  iterate 24 (all_goals try (first
    | with_reducible apply GoodNext.next
    | with_reducible exact Good.refl _
    | (apply Good.before; with_reducible apply reexamine_good)))
  done

theorem doCalSetLoadAuroraRecords_good (f : Frame) (s : State) : Good s (doCalSetLoadAuroraRecords f s) := by
  unfold doCalSetLoadAuroraRecords
  try dsimp only
  iterate 24 (all_goals try (first
    | with_reducible exact Good.refl _
    | intro _
    | (apply Good.before; with_reducible apply request_good)
    | (apply Good.before; with_reducible apply Good.of_keeps (stageAurora_keeps ..))
    | (apply Good.before; with_reducible apply Good.of_keeps (tryFence_keeps ..))
    | (apply Good.before; with_reducible apply Good.of_keeps (reply_keeps ..))
    | with_reducible apply Good.foldl))
  done

theorem execCalSetLoadAuroraRecords_good (f : Frame) (s : State) : GoodNext s (execCalSetLoadAuroraRecords f s) := by
  unfold execCalSetLoadAuroraRecords
  try dsimp only
  iterate 24 (all_goals try (first
    | with_reducible apply GoodNext.next
    | with_reducible exact Good.refl _
    | intro _
    | (apply Good.before; with_reducible apply onOp_good)
    | (apply Good.before; with_reducible apply doCalSetLoadAuroraRecords_good)))
  done

theorem execPacketCommit_good (q : Fin 64) (stage : Writing) (ty : Nat) (flags : BitVec 16) (tag : Word) (payload : Bytes) (mismatch : Bool) (s : State) : GoodNext s (execPacketCommit q stage ty flags tag payload mismatch s) := by
  unfold execPacketCommit
  try dsimp only
  iterate 24 (all_goals try (first
    | with_reducible apply GoodNext.next
    | with_reducible exact Good.refl _
    | (apply Good.before; with_reducible apply Good.of_keeps (resetQueue_keeps ..))
    | (apply Good.before; with_reducible apply Good.setQueue)
    | (apply Good.before; with_reducible apply Good.of_keeps (writePart_keeps ..))
    | (apply Good.before; with_reducible apply Good.of_keeps (commitFrame_keeps ..))
    | (apply Good.before; with_reducible apply Good.of_keeps (releaseWriting_keeps ..))
    | split))
  done

theorem execMainPathTimeout_good (p : Port) (s : State) : GoodNext s (execMainPathTimeout p s) := by
  unfold execMainPathTimeout
  try dsimp only
  iterate 24 (all_goals try (first
    | with_reducible apply GoodNext.next
    | (with_reducible apply GoodNext.ite) <;> intro _
    | with_reducible exact Good.refl _
    | (apply Good.before; with_reducible apply Good.setPort)))
  done

theorem takeLoad_good (s : State) (f : Frame) (op : Nat) : Good s (takeLoad s f op) := by
  unfold takeLoad
  try dsimp only
  iterate 24 (all_goals try (first
    | intro _
    | (apply Good.before; with_reducible apply onFrame_good)
    | (apply Good.before; with_reducible apply drainLoads_good)
    | (with_reducible apply Good.ite) <;> intro _
    | with_reducible apply Good.fields <;> rfl))
  done

theorem doSyncResponse_good (f : Frame) (t4 : ZTime) (a2 : Nat) (s : State) : Good s (doSyncResponse f t4 a2 s) := by
  unfold doSyncResponse
  try dsimp only
  iterate 24 (all_goals try (first
    | with_reducible exact Good.refl _
    | (apply Good.before; with_reducible apply Good.of_keeps (freeLines_keeps ..))
    | (apply Good.before; with_reducible apply acceptExchange_good)
    | (apply Good.before; with_reducible apply rejectExchange_good)
    | split))
  done

theorem execSyncResponse_good (f : Frame) (s : State) : GoodNext s (execSyncResponse f s) := by
  unfold execSyncResponse
  try dsimp only
  iterate 24 (all_goals try (first
    | with_reducible apply GoodNext.next
    | (with_reducible apply GoodNext.ite) <;> intro _
    | with_reducible exact Good.refl _
    | intro _
    | (apply Good.before; with_reducible apply onFrame_good)
    | (apply Good.before; with_reducible apply doSyncResponse_good)))
  done

theorem execEndl_good (d : Fin 16) (k : Fin 256) (e : Emit) (s : State) : GoodNext s (execEndl d k e s) := by
  unfold execEndl
  try dsimp only
  iterate 24 (all_goals try (first
    | with_reducible apply GoodNext.next
    | with_reducible exact Good.refl _
    | intro _
    | (apply Good.before; with_reducible apply emitThen_good)
    | (apply Good.before; with_reducible apply orError_good)
    | (apply Good.before; with_reducible apply Good.setFlow)
    | (apply Good.before; with_reducible apply Good.of_keeps (rewindRings_keeps ..))
    | split))
  done

theorem execOpenLoadCheck_good (n : Fin 8) (highLeg : Bool) (s : State) : GoodNext s (execOpenLoadCheck n highLeg s) := by
  unfold execOpenLoadCheck
  try dsimp only
  iterate 24 (all_goals try (first
    | with_reducible apply GoodNext.next
    | (with_reducible apply GoodNext.ite) <;> intro _
    | with_reducible exact Good.refl _
    | (apply Good.before; with_reducible apply Good.of_keeps (raiseEvent_keeps ..))
    | (apply Good.before; with_reducible apply Good.of_keeps (flagUnderrun_keeps ..))
    | (apply Good.before; with_reducible apply Good.setAurora)))
  done

theorem execExtest_good (s : State) : GoodNext s (execExtest s) := by
  unfold execExtest
  try dsimp only
  iterate 24 (all_goals try (first
    | with_reducible apply GoodNext.next
    | with_reducible exact Good.refl _
    | (apply Good.before; with_reducible apply jtagLoad_good)))
  done

theorem execDeepIdleExitTimeout_good (p : Port) (s : State) : GoodNext s (execDeepIdleExitTimeout p s) := by
  unfold execDeepIdleExitTimeout
  try dsimp only
  iterate 24 (all_goals try (first
    | with_reducible apply GoodNext.next
    | (with_reducible apply GoodNext.ite) <;> intro _
    | with_reducible exact Good.refl _
    | (apply Good.before; with_reducible apply Good.of_keeps (bringUp_keeps ..))))
  done

theorem execLinkIdleExpiry_good (p : Port) (s : State) : GoodNext s (execLinkIdleExpiry p s) := by
  unfold execLinkIdleExpiry
  try dsimp only
  iterate 24 (all_goals try (first
    | with_reducible apply GoodNext.next
    | (with_reducible apply GoodNext.ite) <;> intro _
    | with_reducible exact Good.refl _
    | (apply Good.before; with_reducible apply Good.setPort)))
  done

theorem execEventWordArrival_good (b : Fin 8) (word : EventWord) (s : State) : GoodNext s (execEventWordArrival b word s) := by
  unfold execEventWordArrival
  try dsimp only
  iterate 24 (all_goals try (first
    | with_reducible apply GoodNext.next
    | with_reducible exact Good.refl _
    | (apply Good.before; with_reducible apply Good.of_keeps (arriveWord_keeps ..))
    | split))
  done

theorem execCreditBlockReceive_good (p : Port) (q : Fin 64) (count : BitVec 16) (bad : Bool) (s : State) : GoodNext s (execCreditBlockReceive p q count bad s) := by
  unfold execCreditBlockReceive
  try dsimp only
  iterate 24 (all_goals try (first
    | with_reducible apply GoodNext.next
    | with_reducible exact Good.refl _
    | (apply Good.before; with_reducible apply Good.regBump)
    | (apply Good.before; with_reducible apply Good.of_keeps (useUnit_keeps ..))
    | (apply Good.before; with_reducible apply Good.setQueue)
    | split))
  done

theorem cancelTag_good (s : State) (t : Word) : Good s (cancelTag s t) := by
  unfold cancelTag
  try dsimp only
  iterate 24 (all_goals try (first
    | with_reducible exact Good.refl _
    | intro _
    | (apply Good.before; with_reducible apply Good.of_keeps (refuseWaiting_keeps ..))
    | (apply Good.before; with_reducible apply Good.of_keeps (cancelSlot_keeps ..))
    | (apply Good.before; with_reducible apply memoAdd_good)
    | (with_reducible apply Good.ite) <;> intro _
    | with_reducible apply Good.foldl))
  done

theorem doJobCancel_good (f : Frame) (s : State) : Good s (doJobCancel f s) := by
  unfold doJobCancel
  try dsimp only
  iterate 24 (all_goals try (first
    | with_reducible exact Good.refl _
    | (apply Good.before; with_reducible apply Good.of_keeps (freeLines_keeps ..))
    | (apply Good.before; with_reducible apply reexamine_good)
    | (apply Good.before; with_reducible apply cancelTag_good)
    | (with_reducible apply Good.ite) <;> intro _))
  done

theorem doCalSetCalibrate_good (f : Frame) (s : State) : Good s (doCalSetCalibrate f s) := by
  unfold doCalSetCalibrate
  try dsimp only
  iterate 24 (all_goals try (first
    | with_reducible exact Good.refl _
    | intro _
    | (apply Good.before; with_reducible apply request_good)
    | (apply Good.before; with_reducible apply Good.of_keeps (makeDue_keeps ..))
    | (apply Good.before; with_reducible apply Good.of_keeps (reply_keeps ..))
    | (with_reducible apply Good.ite) <;> intro _
    | with_reducible apply Good.foldl))
  done

theorem doCalSetLoadChannelRecords_good (f : Frame) (s : State) : Good s (doCalSetLoadChannelRecords f s) := by
  unfold doCalSetLoadChannelRecords
  try dsimp only
  iterate 24 (all_goals try (first
    | with_reducible exact Good.refl _
    | intro _
    | (apply Good.before; with_reducible apply request_good)
    | (apply Good.before; with_reducible apply Good.of_keeps (stageChan_keeps ..))
    | (apply Good.before; with_reducible apply Good.of_keeps (tryFence_keeps ..))
    | (apply Good.before; with_reducible apply Good.of_keeps (reply_keeps ..))
    | with_reducible apply Good.foldl))
  done

theorem doCalSetSave_good (f : Frame) (s : State) : Good s (doCalSetSave f s) := by
  unfold doCalSetSave
  try dsimp only
  iterate 24 (all_goals try (first
    | intro _
    | (apply Good.before; with_reducible apply request_good)
    | (apply Good.before; with_reducible apply Good.of_keeps (reply_keeps ..))
    | with_reducible apply Good.fields <;> rfl))
  done

theorem doCalSetConfigure_good (f : Frame) (s : State) : Good s (doCalSetConfigure f s) := by
  unfold doCalSetConfigure
  try dsimp only
  iterate 24 (all_goals try (first
    | intro _
    | (apply Good.before; with_reducible apply request_good)
    | (apply Good.before; with_reducible apply Good.of_keeps (reply_keeps ..))
    | with_reducible apply Good.fields <;> rfl))
  done

theorem doTimeSetConfigure_good (f : Frame) (s : State) : Good s (doTimeSetConfigure f s) := by
  unfold doTimeSetConfigure
  try dsimp only
  iterate 24 (all_goals try (first
    | intro _
    | (apply Good.before; with_reducible apply request_good)
    | (apply Good.before; with_reducible apply Good.of_keeps (reply_keeps ..))
    | split
    | with_reducible apply Good.zenith <;> rfl))
  done

theorem doTimeSetLaunch_good (f : Frame) (s : State) : Good s (doTimeSetLaunch f s) := by
  unfold doTimeSetLaunch
  dsimp only
  refine request_good _ _ _ _ _ (fun u => Good.before (reply_good ..) ?_)
  refine Good.trans (.of_keeps (placeLaunch_keeps u (fld f.payload 5 1) true (stampAt f.payload 16))) ?_
  generalize placeLaunch u (fld f.payload 5 1) true (stampAt f.payload 16) = v
  exact .ite (fun _ => .of_keeps (makeLaunch_keeps ..)) (fun _ => .zenith rfl rfl rfl rfl rfl rfl)

theorem doPowerHold_good (f : Frame) (s : State) : Good s (doPowerHold f s) := by
  unfold doPowerHold
  try dsimp only
  iterate 24 (all_goals try (first
    | with_reducible exact Good.refl _
    | intro _
    | (apply Good.before; with_reducible apply request_good)
    | (apply Good.before; with_reducible apply Good.setUnit)
    | (apply Good.before; with_reducible apply Good.of_keeps (holdUnit_keeps ..))
    | (apply Good.before; with_reducible apply Good.of_keeps (reply_keeps ..))
    | (with_reducible apply Good.ite) <;> intro _
    | with_reducible apply Good.foldl))
  done

theorem doPowerDramPoint_good (f : Frame) (s : State) : Good s (doPowerDramPoint f s) := by
  unfold doPowerDramPoint
  try dsimp only
  iterate 24 (all_goals try (first
    | with_reducible exact Good.refl _
    | intro _
    | (apply Good.before; with_reducible apply request_good)
    | (apply Good.before; with_reducible apply Good.of_keeps (reply_keeps ..))
    | (apply Good.before; with_reducible apply Good.of_keeps (askPoint_keeps ..))
    | (apply Good.before; with_reducible apply Good.of_keeps (owe_keeps ..))
    | (with_reducible apply Good.ite) <;> intro _))
  done

theorem doPowerConfigure_good (f : Frame) (s : State) : Good s (doPowerConfigure f s) := by
  unfold doPowerConfigure
  try dsimp only
  iterate 24 (all_goals try (first
    | intro _
    | (apply Good.before; with_reducible apply request_good)
    | (apply Good.before; with_reducible apply Good.of_keeps (reply_keeps ..))
    | with_reducible apply Good.fields <;> rfl))
  done

theorem step2_good (b : BootInput) (s : State) : Good s (step2 b s) := by
  unfold step2
  try dsimp only
  iterate 24 (all_goals try (first
    | (apply Good.before; with_reducible apply Good.of_keeps (passStep_keeps ..))
    | (apply Good.before; with_reducible apply haltStart_good)
    | (apply Good.before; with_reducible apply Good.of_keeps (noteStep_keeps ..))
    | (with_reducible apply Good.ite) <;> intro _
    | with_reducible apply Good.fields <;> rfl))
  done

theorem step3_good (b : BootInput) (s : State) : Good s (step3 b s) := by
  unfold step3
  try dsimp only
  iterate 24 (all_goals try (first
    | (apply Good.before; with_reducible apply Good.of_keeps (passStep_keeps ..))
    | (apply Good.before; with_reducible apply haltStart_good)
    | (apply Good.before; with_reducible apply Good.of_keeps (noteStep_keeps ..))
    | (with_reducible apply Good.ite) <;> intro _
    | with_reducible apply Good.fields <;> rfl))
  done

theorem step4_good (b : BootInput) (s : State) : Good s (step4 b s) := by
  unfold step4
  try dsimp only
  iterate 24 (all_goals try (first
    | (apply Good.before; with_reducible apply Good.of_keeps (passStep_keeps ..))
    | (apply Good.before; with_reducible apply Good.of_keeps (govern_keeps ..))
    | (apply Good.before; with_reducible apply haltStart_good)
    | (apply Good.before; with_reducible apply Good.of_keeps (noteStep_keeps ..))
    | (with_reducible apply Good.ite) <;> intro _
    | with_reducible apply Good.fields <;> rfl))
  done

theorem from4_good (b : BootInput) (s : State) : Good s (from4 b s) :=
  (step4_good b s).trans (goOn_good _ _ _ (fun u => from5_good b u))

theorem from3_good (b : BootInput) (s : State) : Good s (from3 b s) :=
  (step3_good b s).trans (goOn_good _ _ _ (fun u => from4_good b u))

theorem from2_good (b : BootInput) (s : State) : Good s (from2 b s) :=
  (step2_good b s).trans (goOn_good _ _ _ (fun u => from3_good b u))

theorem from1_good (b : BootInput) (s : State) : Good s (from1 b s) :=
  (Good.of_keeps (step1_keeps b s)).trans (goOn_good _ _ _ (fun u => from2_good b u))

theorem warmStart_good (s : State) (kind : Nat) (b : BootInput) : Good s (warmStart s kind b) := by
  unfold warmStart
  refine Good.before (from1_good ..) (Good.before (.of_keeps (begin__keeps ..)) ?_)
  have h := warmState_good s
  generalize warmState s = u at h
  exact h.trans (.fields rfl rfl rfl rfl rfl)

theorem doPowerWarmReset_good (f : Frame) (boot : BootInput) (s : State) : Good s (doPowerWarmReset f boot s) := by
  unfold doPowerWarmReset
  try dsimp only
  iterate 24 (all_goals try (first
    | with_reducible exact Good.refl _
    | intro _
    | (apply Good.before; with_reducible apply request_good)
    | (apply Good.before; with_reducible apply warmStart_good)
    | (apply Good.before; with_reducible apply Good.of_keeps (reply_keeps ..))))
  done

theorem handleFrame_good (s : State) (e : Arrived) : Good s (handleFrame s e) := by
  unfold handleFrame
  try dsimp only
  iterate 24 (all_goals try (first
    | with_reducible exact Good.refl _
    | (apply Good.before; with_reducible apply doJobCancel_good)
    | (apply Good.before; with_reducible apply doCalSetCalibrate_good)
    | (apply Good.before; with_reducible apply doCalSetLoadChannelRecords_good)
    | (apply Good.before; with_reducible apply doCalSetLoadAuroraRecords_good)
    | (apply Good.before; with_reducible apply doCalSetSave_good)
    | (apply Good.before; with_reducible apply doCalSetConfigure_good)
    | (apply Good.before; with_reducible apply doCalSetBoardTerms_good)
    | (apply Good.before; with_reducible apply doTimeSetConfigure_good)
    | (apply Good.before; with_reducible apply doTimeSetLaunch_good)
    | (apply Good.before; with_reducible apply doTimeSetSet_good)
    | (apply Good.before; with_reducible apply Good.of_keeps (doRecover_keeps ..))
    | (apply Good.before; with_reducible apply doPowerHold_good)
    | (apply Good.before; with_reducible apply doPowerDramPoint_good)
    | (apply Good.before; with_reducible apply doPowerConfigure_good)
    | (apply Good.before; with_reducible apply doPowerWarmReset_good)
    | (apply Good.before; with_reducible apply doPowerSleep_good)
    | (apply Good.before; with_reducible apply doSyncResponse_good)
    | (apply Good.before; with_reducible apply Good.of_keeps (doSyncRequest_keeps ..))
    | (apply Good.before; with_reducible apply Good.of_keeps (doGlobalEvent_keeps ..))
    | (apply Good.before; with_reducible apply Good.of_keeps (doPairDigest_keeps ..))
    | (apply Good.before; with_reducible apply Good.of_keeps (doPairTakeover_keeps ..))
    | split))
  done

theorem drainInbox_good (n : Nat) (s : State) : Good s (drainInbox n s) := by
  induction n generalizing s with
  | zero => exact .refl s
  | succ n ih =>
    unfold drainInbox
    split
    · exact Good.before (ih _) (Good.before (handleFrame_good ..) (.fields rfl rfl rfl rfl rfl))
    · exact .refl s

theorem readReg_good {s : State} {a : Nat} {r : Nat × State} (h : readReg s a = some r) : Good s r.2 := by
  have hz : Good s (if a = Reg.zenSecLo then { s with zenith := { s.zenith with snap := s.zenith.time } } else s) :=
    .ite (fun _ => .zenith rfl rfl rfl rfl rfl rfl) (fun _ => .refl s)
  unfold readReg at h
  dsimp only at h
  generalize (if a = Reg.zenSecLo then { s with zenith := { s.zenith with snap := s.zenith.time } } else s) = u at h hz
  split at h
  · cases h
  · cases h
    refine hz.trans ?_
    dsimp only
    split
    · exact Good.before (.setAurora ..) (.of_keeps (clearBits_keeps ..))
    · exact Good.before (.regPut ..) (.of_keeps (clearBits_keeps ..))
    · exact .of_keeps (clearBits_keeps ..)

theorem readEntries_good (n : Nat) (s : State) (b : Bytes) (i : Nat) (acc : Bytes) : Good s (readEntries n s b i acc).1 := by
  induction n generalizing s i acc with
  | zero => exact .refl s
  | succ n ih =>
    unfold readEntries
    split
    · exact .refl s
    · split
      · rename_i r h
        exact (readReg_good h).trans (ih ..)
      · exact .refl s

theorem doRegRead_good (s : State) (f : Frame) : Good s (doRegRead s f) := by
  unfold doRegRead
  dsimp only
  split
  · exact reply_good ..
  · generalize (if s.boot.state = 2 then haltEntry f.payload else none) = e
    cases e with
    | some i =>
      dsimp only
      split <;> exact (readEntries_good ..).trans (reply_good ..)
    | none =>
      dsimp only
      split <;> exact (readEntries_good ..).trans (reply_good ..)

theorem writePlain_good (s : State) (a v m : Nat) : Good s (writePlain s a v m) := by
  unfold writePlain
  dsimp only
  refine Good.before ?_ (.of_keeps (clearBits_keeps s a (v &&& m &&& w1cMask a)))
  generalize clearBits s a (v &&& m &&& w1cMask a) = u
  refine .ite (fun _ => .of_keeps (startDiag_keeps ..)) (fun _ => .ite (fun _ => .of_keeps (popToLines_keeps ..)) (fun _ =>
    .ite (fun _ => .regPut ..) (fun _ => .ite (fun _ => .regPut ..) (fun _ => .ite (fun _ => .ite (fun _ => ?_) (fun _ => .refl u))
    (fun _ => ?_)))))
  · exact .zenith rfl rfl rfl rfl rfl rfl
  · split
    · exact .ite (fun _ => .setQueue ..) (fun _ => .refl u)
    · split
      · exact .ite (fun _ => .refl u) (fun _ => Good.before (.setQueue ..) (.ite (fun _ => .of_keeps (jtagLeaves_keeps ..)) (fun _ => .refl u)))
      · split
        · exact Good.before (.setCtx ..) (.setCtx ..)
        · exact .refl u

theorem writeReg_good {s t : State} {debug : Bool} {a v m : Nat} (h : writeReg s debug a v m = .done t) : Good s t := by
  unfold writeReg at h
  split at h
  · cases h
  · split at h
    · split at h
      · cases h
      · split at h
        · cases h
          exact .of_keeps (writeTest_keeps ..)
        · cases h
    · split at h
      · cases h
      · split at h
        · split at h
          · cases h
          · split at h
            · cases h
            · cases h
              exact .of_keeps (pecPut_keeps ..)
        · cases h
          exact writePlain_good ..

theorem writeEntries_good (n : Nat) (s : State) (b : Bytes) (i : Nat) : Good s (writeEntries n s b i).1 := by
  induction n generalizing s i with
  | zero => exact .refl s
  | succ n ih =>
    unfold writeEntries
    split
    · exact .refl s
    · split
      · rename_i t h
        exact (writeReg_good h).trans (ih ..)
      · exact .refl s
      · exact .refl s
      · exact .refl s

theorem doRegWrite_good (s : State) (f : Frame) : Good s (doRegWrite s f).1 := by
  unfold doRegWrite
  split
  · exact reply_good ..
  · split
    · exact reply_good ..
    · dsimp only
      split
      · exact Good.before (reply_good ..) ((writeEntries_good 1024 s f.payload s.written).trans (.fields rfl rfl rfl rfl rfl))
      · exact (writeEntries_good 1024 s f.payload s.written).trans (.fields rfl rfl rfl rfl rfl)

theorem handle3_good (s : State) (f : Frame) (parity : Option Nat) : Good s (handle3 s f parity).1 := by
  unfold handle3
  split
  · dsimp only
    have h : Good s (if rawWant s f = 0 then (s, true) else hostDram s 3 (rawWant s f)).1 := by
      split
      · exact .refl s
      · exact .of_keeps (hostDram_keeps ..)
    exact .ite (fun _ => h.trans (.of_keeps (doRead_keeps ..))) (fun _ => h)
  · split
    · exact doRegRead_good ..
    · exact doRegWrite_good ..

theorem drain3_good (n : Nat) (s : State) (parity : Option Nat) : Good s (drain3 n s parity) := by
  induction n generalizing s with
  | zero => exact .refl s
  | succ n ih =>
    unfold drain3
    split
    · exact .refl s
    · refine .ite (fun _ => .refl s) (fun _ => ?_)
      dsimp only
      rename_i f r _ _
      have hh := handle3_good s f (if r = [] then parity else none)
      refine .ite (fun _ => ?_) (fun _ => hh)
      exact Good.before (ih _) (Good.before (.of_keeps (freeLines_keeps _ _)) (hh.trans (.fields rfl rfl rfl rfl rfl)))

theorem resumeQueues_good (s : State) : Good s (resumeQueues s) := by
  unfold resumeQueues
  try dsimp only
  iterate 24 (all_goals try (first
    | with_reducible exact Good.refl _
    | (apply Good.before; with_reducible apply reexamine_good)
    | (apply Good.before; with_reducible apply drainInbox_good)
    | (apply Good.before; with_reducible apply drain3_good)))
  done

theorem execCdrLockLoss_good (lane : Fin 20) (signal : Bool) (s : State) : GoodNext s (execCdrLockLoss lane signal s) := by
  unfold execCdrLockLoss
  try dsimp only
  iterate 24 (all_goals try (first
    | with_reducible apply GoodNext.next
    | with_reducible exact Good.refl _
    | (apply Good.before; with_reducible apply Good.of_keeps (killLane_keeps ..))
    | (apply Good.before; with_reducible apply Good.setLane)))
  done

theorem branch_good (s : State) (d k fi : Nat) (f : Flow) (target lpop : Nat) (late : Bool) :
    Good s (branch s d k fi f target lpop late) := by
  unfold branch
  exact orError_good _ _ _ _ _ _ _ _ (.setFlow ..)

theorem execWordMatch_good (d : Fin 16) (k : Fin 256) (e : Emit) (target : Nat) (lpop : Nat) (cond : BitVec 7) (passes : Nat) (s : State) : GoodNext s (execWordMatch d k e target lpop cond passes s) := by
  unfold execWordMatch
  try dsimp only
  iterate 24 (all_goals try (first
    | with_reducible apply GoodNext.next
    | (with_reducible apply GoodNext.ite) <;> intro _
    | with_reducible exact Good.refl _
    | intro _
    | (apply Good.before; with_reducible apply reword_good)
    | (apply Good.before; with_reducible apply Good.setSite)
    | (apply Good.before; with_reducible apply Good.of_keeps (matchTimeout_keeps ..))
    | (apply Good.before; with_reducible apply Good.setFlow)
    | (apply Good.before; with_reducible apply branch_good)
    | (apply Good.before; with_reducible apply word_good)
    | (apply Good.before; with_reducible apply Good.of_keeps (matchBegin_keeps ..))
    | (with_reducible apply Good.ite) <;> intro _
    | with_reducible apply Good.foldl))
  done

theorem execLoadClose_good (f : Frame) (s : State) : GoodNext s (execLoadClose f s) := by
  unfold execLoadClose
  try dsimp only
  iterate 24 (all_goals try (first
    | with_reducible apply GoodNext.next
    | with_reducible exact Good.refl _
    | (apply Good.before; with_reducible apply takeLoad_good)))
  done

theorem execTimestampBlockReceive_good (p : Port) (elapsed : Nat) (s : State) : GoodNext s (execTimestampBlockReceive p elapsed s) := by
  unfold execTimestampBlockReceive
  try dsimp only
  iterate 24 (all_goals try (first
    | with_reducible apply GoodNext.next
    | (with_reducible apply GoodNext.ite) <;> intro _
    | with_reducible exact Good.refl _
    | (apply Good.before; with_reducible apply Good.setPort)))
  done

theorem execSquallArm_good (b : Fin 8) (v : Nat) (s : State) : GoodNext s (execSquallArm b v s) := by
  unfold execSquallArm
  try dsimp only
  iterate 24 (all_goals try (first
    | with_reducible apply GoodNext.next
    | with_reducible exact Good.refl _
    | (apply Good.before; with_reducible apply Good.of_keeps (takeCapt_keeps ..))))
  done

theorem execFallbackTimeout_good (p : Port) (s : State) : GoodNext s (execFallbackTimeout p s) := by
  unfold execFallbackTimeout
  try dsimp only
  iterate 24 (all_goals try (first
    | with_reducible apply GoodNext.next
    | (with_reducible apply GoodNext.ite) <;> intro _
    | with_reducible exact Good.refl _
    | (apply Good.before; with_reducible apply Good.of_keeps (portUp_keeps ..))
    | (apply Good.before; with_reducible apply Good.of_keeps (startPath_keeps ..))
    | (with_reducible apply Good.ite) <;> intro _))
  done

theorem execPecFrameComplete_good (o : Fin 32) (status : Byte) (data : BitVec 16) (crc : Byte) (s : State) :
    GoodNext s (execPecFrameComplete o status data crc s) := by
  unfold execPecFrameComplete
  dsimp only
  split
  · exact .next (.refl s)
  · refine .ite (fun _ => .next (.setPec ..)) (fun _ => .next (Good.before (drain3_good ..) ?_))
    refine .ite (fun _ => ?_) (fun _ => .ite (fun _ => ?_) (fun _ => .setPec ..))
    · exact Good.before (.regBump ..) (.setPec ..)
    · exact Good.before (.regPut ..) (Good.before (.regPut ..) (.setPec ..))

theorem execRingOscillatorRead_good (raw : List Int) (s : State) : GoodNext s (execRingOscillatorRead raw s) := by
  unfold execRingOscillatorRead
  try dsimp only
  iterate 24 (all_goals try (first
    | with_reducible apply GoodNext.next
    | (with_reducible apply GoodNext.ite) <;> intro _
    | with_reducible exact Good.refl _
    | (apply Good.before; with_reducible apply Good.of_keeps (trimRings_keeps ..))
    | (apply Good.before; with_reducible apply takeRings_good)
    | (with_reducible apply Good.ite) <;> intro _))
  done

theorem doJobSubmit_good (f : Frame) (s : State) : Good s (doJobSubmit f s) := by
  unfold doJobSubmit
  try dsimp only
  iterate 24 (all_goals try (first
    | (apply Good.before; with_reducible apply drainJobs_good)
    | (apply Good.before; with_reducible apply drainLoads_good)
    | with_reducible apply Good.fields <;> rfl))
  done

theorem execJumpRequestArrival_good (n : Fin 8) (src : AurSource) (sample : Int) (s : State) : GoodNext s (execJumpRequestArrival n src sample s) := by
  unfold execJumpRequestArrival
  try dsimp only
  iterate 24 (all_goals try (first
    | with_reducible apply GoodNext.next
    | with_reducible exact Good.refl _
    | (apply Good.before; with_reducible apply Good.setAurora)
    | (apply Good.before; with_reducible apply Good.of_keeps (bumpReq_keeps ..))
    | split))
  done

theorem execPairOwnInLow_good (s : State) : GoodNext s (execPairOwnInLow s) := by
  unfold execPairOwnInLow
  try dsimp only
  iterate 24 (all_goals try (first
    | with_reducible apply GoodNext.next
    | (with_reducible apply GoodNext.ite) <;> intro _
    | with_reducible exact Good.refl _
    | intro _
    | (apply Good.before; with_reducible apply Good.of_keeps (unitCheck_keeps ..))
    | (apply Good.before; with_reducible apply Good.of_keeps (tryTakeover_keeps ..))
    | (with_reducible apply Good.ite) <;> intro _
    | with_reducible apply Good.foldl
    | (apply Good.before; with_reducible apply Good.struct)))
  done

theorem execSegmentClose_good (b : Fin 8) (s : State) : GoodNext s (execSegmentClose b s) := by
  unfold execSegmentClose
  try dsimp only
  iterate 24 (all_goals try (first
    | with_reducible apply GoodNext.next
    | with_reducible exact Good.refl _
    | (apply Good.before; with_reducible apply Good.of_keeps (arriveDue_keeps ..))
    | (apply Good.before; with_reducible apply Good.of_keeps (closeSegment_keeps ..))
    | split))
  done

theorem gridSet_good (s : State) (o : Int) (g : Bool) :
    Good s { s with zenith := { s.zenith with grid := o, gridFault := g } } := .zenith rfl rfl rfl rfl rfl rfl

theorem execGridOffsetMeasurement_good (e : Nat) (s : State) : GoodNext s (execGridOffsetMeasurement e s) := by
  unfold execGridOffsetMeasurement
  exact .ite (fun _ => .next (gridSet_good ..)) (fun _ => .next (.refl s))

theorem execPowerWarmReset_good (f : Frame) (boot : BootInput) (s : State) : GoodNext s (execPowerWarmReset f boot s) := by
  unfold execPowerWarmReset
  try dsimp only
  iterate 24 (all_goals try (first
    | with_reducible apply GoodNext.next
    | (with_reducible apply GoodNext.ite) <;> intro _
    | with_reducible exact Good.refl _
    | intro _
    | (apply Good.before; with_reducible apply arrive_good)
    | (apply Good.before; with_reducible apply doPowerWarmReset_good)))
  done

theorem startFrame_good (s : State) (p : Port) (q : Nat) (k : Packet) (t : ZTime) : Good s (startFrame s p q k t) := by
  unfold startFrame
  extract_lets x s1 y sync s2 z s3
  have h1 : Good s s1 := Good.before (.of_keeps (popLine_keeps ..)) (.setQueue ..)
  have h3 : Good s2 s3 := .ite (fun _ => .zenith rfl rfl rfl rfl rfl rfl) (fun _ => .refl s2)
  exact Good.before (.of_keeps (launchLatches_keeps ..)) (Good.before (.of_keeps (useUnit_keeps ..))
    ((h1.trans (.setPort ..)).trans h3))

theorem execFrameTransmit_good (p : Port) (columns : Nat) (elapsed : Nat) (s : State) : GoodNext s (execFrameTransmit p columns elapsed s) := by
  unfold execFrameTransmit
  try dsimp only
  iterate 24 (all_goals try (first
    | with_reducible apply GoodNext.next
    | with_reducible exact Good.refl _
    | (apply Good.before; with_reducible apply Good.of_keeps (goOnFrame_keeps ..))
    | (apply Good.before; with_reducible apply Good.of_keeps (startExit_keeps ..))
    | (apply Good.before; with_reducible apply startFrame_good)
    | split))
  done

theorem popVector_good (s : State) (d : Nat) (v : Nat) : Good s (popVector s d v) := by
  unfold popVector popVector.finish
  try dsimp only
  iterate 24 (all_goals try (first
    | with_reducible exact Good.refl _
    | intro _
    | (apply Good.before; with_reducible apply Good.of_keeps (enterKeep_keeps ..))
    | (apply Good.before; with_reducible apply Good.of_keeps (parkFrom_keeps ..))
    | (apply Good.before; with_reducible apply Good.of_keeps (enterVector_keeps ..))
    | (apply Good.before; with_reducible apply Good.of_keeps (separation_keeps ..))
    | (apply Good.before; with_reducible apply Good.of_keeps (takeActs_keeps ..))
    | (apply Good.before; with_reducible apply Good.setFlow)
    | (apply Good.before; with_reducible apply Good.of_keeps (digestDrive_keeps ..))
    | (apply Good.before; with_reducible apply Good.of_keeps (notePark_keeps ..))
    | (apply Good.before; with_reducible apply Good.of_keeps (atEnd_keeps ..))
    | (apply Good.before; with_reducible apply Good.setDom)
    | (apply Good.before; with_reducible apply Good.of_keeps (placePin_keeps ..))
    | with_reducible apply Good.foldl
    | split))
  done

theorem useBurst_good (s : State) (burst : Nat) (port : Option DramPort) (r : Bytes × Nat × Bool) : Good s (useBurst s burst port r) := by
  unfold useBurst
  try dsimp only
  iterate 24 (all_goals try (first
    | with_reducible exact Good.refl _
    | (apply Good.before; with_reducible apply Good.regBump)
    | (apply Good.before; with_reducible apply Good.of_keeps (giveBack_keeps ..))
    | (apply Good.before; with_reducible apply putBurst_good)
    | (with_reducible apply Good.ite) <;> intro _))
  done

theorem losePll_good (s : State) (n : Nat) : Good s (losePll s n) := by
  unfold losePll
  try dsimp only
  iterate 24 (all_goals try (first
    | with_reducible exact Good.refl _
    | (apply Good.before; with_reducible apply Good.regBump)
    | (apply Good.before; with_reducible apply Good.of_keeps (loseCore_keeps ..))
    | (apply Good.before; with_reducible apply Good.of_keeps (retune_keeps ..))
    | (apply Good.before; with_reducible apply latchFault_good)
    | (apply Good.before; with_reducible apply Good.of_keeps (killLanes_keeps ..))
    | (apply Good.before; with_reducible apply Good.setPll)
    | (with_reducible apply Good.ite) <;> intro _
    | (apply Good.before; with_reducible apply Good.dram)))
  done

theorem take3_good (s : State) (f : Frame) (ty : Nat) (parity : Option Nat) : Good s (take3 s f ty parity) := by
  unfold take3
  try dsimp only
  iterate 24 (all_goals try (first
    | intro _
    | (apply Good.before; with_reducible apply onFrame_good)
    | (apply Good.before; with_reducible apply drain3_good)
    | with_reducible apply Good.fields <;> rfl))
  done

theorem execRegWrite_good (f : Frame) (s : State) : GoodNext s (execRegWrite f s) := by
  unfold execRegWrite
  try dsimp only
  iterate 24 (all_goals try (first
    | with_reducible apply GoodNext.next
    | with_reducible exact Good.refl _
    | (apply Good.before; with_reducible apply take3_good)))
  done

theorem execAuroraJump_good (n : Fin 8) (s : State) : GoodNext s (execAuroraJump n s) := by
  unfold execAuroraJump
  try dsimp only
  iterate 24 (all_goals try (first
    | with_reducible apply GoodNext.next
    | with_reducible exact Good.refl _
    | (apply Good.before; with_reducible apply Good.of_keeps (stepMarks_keeps ..))
    | (apply Good.before; with_reducible apply Good.setAurora)
    | split))
  done

theorem execControlStoreReloadDone_good (ch : Fin 256) (digestOk : Bool) (readbackOk : Bool) (s : State) : GoodNext s (execControlStoreReloadDone ch digestOk readbackOk s) := by
  unfold execControlStoreReloadDone
  try dsimp only
  iterate 24 (all_goals try (first
    | with_reducible apply GoodNext.next
    | (with_reducible apply GoodNext.ite) <;> intro _
    | (apply Good.before; with_reducible apply latchFault_good)
    | (apply Good.before; with_reducible apply Good.regBump)
    | (apply Good.before; with_reducible apply Good.of_keeps (raiseEvent_keeps ..))
    | (apply Good.before; with_reducible apply retireChannel_good)
    | with_reducible apply Good.fields <;> rfl))
  done

theorem debugRead_good (s : State) (a : Nat) : Good s (debugRead s a) := by
  unfold debugRead
  refine .ite (fun _ => debugResult_good ..) (fun _ => ?_)
  split
  · rename_i r h
    exact (readReg_good h).trans (debugResult_good ..)
  · exact debugResult_good ..

theorem execRefclkPresent_good (s : State) : GoodNext s (execRefclkPresent s) := by
  unfold execRefclkPresent
  try dsimp only
  iterate 24 (all_goals try (first
    | with_reducible apply GoodNext.next
    | intro _
    | (apply Good.before; with_reducible apply goOn_good)
    | (apply Good.before; with_reducible apply from6_good)
    | split
    | with_reducible apply Good.zenith <;> rfl))
  done

theorem execRegRead_good (f : Frame) (s : State) : GoodNext s (execRegRead f s) := by
  unfold execRegRead
  try dsimp only
  iterate 24 (all_goals try (first
    | with_reducible apply GoodNext.next
    | with_reducible exact Good.refl _
    | (apply Good.before; with_reducible apply take3_good)))
  done

theorem execMark_good (d : Fin 16) (k : Fin 256) (e : Emit) (aurora : BitVec 8) (markOut : BitVec 8) (squall : BitVec 8) (ring : Option (Fin 8)) (code : BitVec 8) (s : State) : GoodNext s (execMark d k e aurora markOut squall ring code s) := by
  unfold execMark
  try dsimp only
  iterate 24 (all_goals try (first
    | with_reducible apply GoodNext.next
    | with_reducible exact Good.refl _
    | intro _
    | (apply Good.before; with_reducible apply word_good)
    | (apply Good.before; with_reducible apply Good.of_keeps (progError_keeps ..))
    | (apply Good.before; with_reducible apply Good.setFlow)
    | (with_reducible apply Good.ite) <;> intro _))
  done

theorem execRefillLanding_good (ch : Fin 256) (s : State) : GoodNext s (execRefillLanding ch s) := by
  unfold execRefillLanding
  try dsimp only
  iterate 24 (all_goals try (first
    | with_reducible apply GoodNext.next
    | with_reducible exact Good.refl _
    | (apply Good.before; with_reducible apply Good.setRing)
    | split))
  done

theorem execAuroraStart_good (n : Fin 8) (src : AurSource) (ball : Nat) (s : State) : GoodNext s (execAuroraStart n src ball s) := by
  unfold execAuroraStart
  try dsimp only
  iterate 24 (all_goals try (first
    | with_reducible apply GoodNext.next
    | with_reducible exact Good.refl _
    | (apply Good.before; with_reducible apply Good.of_keeps (stepMarks_keeps ..))
    | (apply Good.before; with_reducible apply Good.setAurora)
    | split))
  done

theorem execTimeSetConfigure_good (f : Frame) (s : State) : GoodNext s (execTimeSetConfigure f s) := by
  unfold execTimeSetConfigure
  try dsimp only
  iterate 24 (all_goals try (first
    | with_reducible apply GoodNext.next
    | with_reducible exact Good.refl _
    | intro _
    | (apply Good.before; with_reducible apply onOp_good)
    | (apply Good.before; with_reducible apply doTimeSetConfigure_good)))
  done

theorem freeze_good (s : State) (trigger : Nat) (sub : Nat) (comp : Nat) (modeReg : Nat) (address : Nat) (syn : Bytes) (raw : Bytes) : Good s (freeze s trigger sub comp modeReg address syn raw) := by
  unfold freeze
  try dsimp only
  iterate 24 (all_goals try (first
    | with_reducible exact Good.refl _
    | (apply Good.before; with_reducible apply Good.of_keeps (freeCommands_keeps ..))
    | (apply Good.before; with_reducible apply Good.of_keeps (loseDramParts_keeps ..))
    | (apply Good.before; with_reducible apply Good.of_keeps (refuseChanges_keeps ..))
    | (apply Good.before; with_reducible apply latchFault_good)
    | (with_reducible apply Good.ite) <;> intro _
    | (apply Good.before; with_reducible apply Good.dram)))
  done

theorem locate_good (s : State) (burst : Nat) (port : Option DramPort) (fault : BurstFault) : Good s (locate s burst port fault) := by
  unfold locate
  try dsimp only
  iterate 24 (all_goals try (first
    | with_reducible exact Good.refl _
    | (apply Good.before; with_reducible apply Good.regBump)
    | (apply Good.before; with_reducible apply useBurst_good)
    | (apply Good.before; with_reducible apply putBurst_good)
    | (apply Good.before; with_reducible apply Good.of_keeps (giveBack_keeps ..))
    | (apply Good.before; with_reducible apply Good.of_keeps (raiseEvent_keeps ..))
    | (apply Good.before; with_reducible apply freeze_good)
    | split
    | (apply Good.before; with_reducible apply Good.dram)))
  done

theorem readBurst_good (s : State) (burst : Nat) (port : Option DramPort) (fault : BurstFault) : Good s (readBurst s burst port fault) := by
  unfold readBurst
  try dsimp only
  iterate 24 (all_goals try (first
    | with_reducible exact Good.refl _
    | (apply Good.before; with_reducible apply useBurst_good)
    | (apply Good.before; with_reducible apply locate_good)
    | split))
  done

theorem serveRead_good (s : State) (port : DramPort) (burst : Nat) (fault : BurstFault) : Good s (serveRead s port burst fault) := by
  unfold serveRead
  try dsimp only
  iterate 24 (all_goals try (first
    | with_reducible exact Good.refl _
    | (apply Good.before; with_reducible apply readBurst_good)
    | (apply Good.before; with_reducible apply Good.of_keeps (touchDram_keeps ..))
    | (apply Good.before; with_reducible apply Good.of_keeps (debit_keeps ..))))
  done

theorem execCaptureSend_good (b : Fin 8) (parity : Option Bool) (s : State) : GoodNext s (execCaptureSend b parity s) := by
  unfold execCaptureSend
  try dsimp only
  iterate 24 (all_goals try (first
    | with_reducible apply GoodNext.next
    | with_reducible exact Good.refl _
    | (apply Good.before; with_reducible apply Good.of_keeps (sendFragment_keeps ..))
    | (apply Good.before; with_reducible apply Good.of_keeps (squallParity_keeps ..))
    | split))
  done

theorem execLoop_good (d : Fin 16) (k : Fin 256) (e : Emit) (count : Nat) (s : State) : GoodNext s (execLoop d k e count s) := by
  unfold execLoop
  try dsimp only
  iterate 24 (all_goals try (first
    | with_reducible apply GoodNext.next
    | with_reducible exact Good.refl _
    | intro _
    | (apply Good.before; with_reducible apply emitThen_good)
    | (apply Good.before; with_reducible apply orError_good)
    | (apply Good.before; with_reducible apply Good.setFlow)))
  done

theorem pllLoss_good (s : State) (n : Nat) : Good s (pllLoss s n) := by
  unfold pllLoss
  try dsimp only
  iterate 24 (all_goals try (first
    | with_reducible exact Good.refl _
    | (apply Good.before; with_reducible apply Good.setPll)
    | (apply Good.before; with_reducible apply losePll_good)
    | (with_reducible apply Good.ite) <;> intro _
    | (apply Good.before; with_reducible apply Good.struct)
    | (apply Good.before; with_reducible apply Good.dram)))
  done

theorem execPllWindowClose_good (n : Fin 10) (count : Nat) (s : State) : GoodNext s (execPllWindowClose n count s) := by
  unfold execPllWindowClose
  try dsimp only
  iterate 24 (all_goals try (first
    | with_reducible apply GoodNext.next
    | (with_reducible apply GoodNext.ite) <;> intro _
    | with_reducible exact Good.refl _
    | (apply Good.before; with_reducible apply Good.setPll)
    | (apply Good.before; with_reducible apply pllLoss_good)
    | (apply Good.before; with_reducible apply Good.of_keeps (onLock_keeps ..))
    | (with_reducible apply Good.ite) <;> intro _))
  done

theorem execCalibrationRunComplete_good (item : CalItem) (values : List Int) (s : State) : GoodNext s (execCalibrationRunComplete item values s) := by
  unfold execCalibrationRunComplete
  try dsimp only
  iterate 24 (all_goals try (first
    | with_reducible apply GoodNext.next
    | with_reducible exact Good.refl _
    | (apply Good.before; with_reducible apply Good.of_keeps (touchItem_keeps ..))
    | (apply Good.before; with_reducible apply Good.of_keeps (putDue_keeps ..))
    | (apply Good.before; with_reducible apply Good.of_keeps (runCalibration_keeps ..))
    | (apply Good.before; with_reducible apply Good.of_keeps (tryFence_keeps ..))
    | (apply Good.before; with_reducible apply Good.of_keeps (dropDue_keeps ..))
    | (apply Good.before; with_reducible apply Good.of_keeps (noteAccept_keeps ..))
    | (apply Good.before; with_reducible apply Good.of_keeps (stageItem_keeps ..))
    | (apply Good.before; with_reducible apply Good.regBump)
    | (apply Good.before; with_reducible apply failItem_good)
    | split))
  done

theorem execBankCapDecrement_good (s : State) : GoodNext s (execBankCapDecrement s) := by
  unfold execBankCapDecrement
  try dsimp only
  iterate 24 (all_goals try (first
    | with_reducible apply GoodNext.next
    | (with_reducible apply GoodNext.ite) <;> intro _
    | with_reducible apply Good.fields <;> rfl))
  done

theorem execSyncQualityExpiry_good (s : State) : GoodNext s (execSyncQualityExpiry s) := by
  unfold execSyncQualityExpiry
  try dsimp only
  iterate 24 (all_goals try (first
    | with_reducible apply GoodNext.next
    | split
    | with_reducible apply Good.zenith <;> rfl))
  done

theorem execTset_good (d : Fin 16) (k : Fin 256) (e : Emit) (set : BitVec 8) (s : State) : GoodNext s (execTset d k e set s) := by
  unfold execTset
  try dsimp only
  iterate 24 (all_goals try (first
    | with_reducible apply GoodNext.next
    | with_reducible exact Good.refl _
    | intro _
    | (apply Good.before; with_reducible apply word_good)
    | (apply Good.before; with_reducible apply Good.of_keeps (progError_keeps ..))
    | (apply Good.before; with_reducible apply Good.setFlow)
    | (with_reducible apply Good.ite) <;> intro _))
  done

theorem debugWrite_good (s : State) (a v m : Nat) : Good s (debugWrite s a v m) := by
  unfold debugWrite
  refine .ite (fun _ => debugResult_good ..) (fun _ => ?_)
  split
  · rename_i t h
    exact (writeReg_good h).trans (debugResult_good ..)
  · exact debugResult_good ..
  · exact debugResult_good ..

theorem testField_good (s : State) (lo : Nat) (w : Nat) (v : Nat) : Good s (testField s lo w v) := by
  unfold testField
  try dsimp only
  iterate 24 (all_goals try (first
    | with_reducible exact Good.refl _
    | (apply Good.before; with_reducible apply debugWrite_good)
    | (with_reducible apply Good.ite) <;> intro _))
  done

theorem execPeLoop_good (on : Bool) (s : State) : GoodNext s (execPeLoop on s) := by
  unfold execPeLoop
  try dsimp only
  iterate 24 (all_goals try (first
    | with_reducible apply GoodNext.next
    | with_reducible exact Good.refl _
    | (apply Good.before; with_reducible apply testField_good)))
  done

theorem execNimbusMemoryError_good (s : State) : GoodNext s (execNimbusMemoryError s) := by
  unfold execNimbusMemoryError
  try dsimp only
  iterate 24 (all_goals try (first
    | with_reducible apply GoodNext.next
    | (with_reducible apply GoodNext.ite) <;> intro _
    | with_reducible exact Good.refl _
    | (apply Good.before; with_reducible apply nimbusFault_good)
    | (apply Good.before; with_reducible apply latchFault_good)
    | (apply Good.before; with_reducible apply Good.struct)))
  done

theorem execAuroraStepEnd_good (n : Fin 8) (s : State) : GoodNext s (execAuroraStepEnd n s) := by
  unfold execAuroraStepEnd
  try dsimp only
  iterate 24 (all_goals try (first
    | with_reducible apply GoodNext.next
    | with_reducible exact Good.refl _
    | (apply Good.before; with_reducible apply Good.of_keeps (stepMarks_keeps ..))
    | (apply Good.before; with_reducible apply Good.setAurora)
    | split))
  done

theorem closeOps_good (s : State) (d : Nat) (v : Nat) (all : Bool) : Good s (closeOps s d v all) := by
  unfold closeOps
  try dsimp only
  iterate 24 (all_goals try (first
    | with_reducible exact Good.refl _
    | intro _
    | (apply Good.before; with_reducible apply Good.setCum)
    | (apply Good.before; with_reducible apply Good.of_keeps (writeOpRecord_keeps ..))
    | (with_reducible apply Good.ite) <;> intro _
    | with_reducible apply Good.foldl))
  done

theorem execBgIntervalExpiry_good (item : CalItem) (s : State) : GoodNext s (execBgIntervalExpiry item s) := by
  unfold execBgIntervalExpiry
  try dsimp only
  iterate 24 (all_goals try (first
    | with_reducible apply GoodNext.next
    | with_reducible exact Good.refl _
    | (apply Good.before; with_reducible apply Good.of_keeps (makeDue_keeps ..))
    | split))
  done

theorem execRefclkWaitTimeout_good (s : State) : GoodNext s (execRefclkWaitTimeout s) := by
  unfold execRefclkWaitTimeout
  try dsimp only
  iterate 24 (all_goals try (first
    | with_reducible apply GoodNext.next
    | with_reducible exact Good.refl _
    | (apply Good.before; with_reducible apply haltStart_good)
    | (apply Good.before; with_reducible apply Good.of_keeps (noteStep_keeps ..))
    | split))
  done

theorem execPrbs_good (on : Bool) (errors : Nat) (s : State) : GoodNext s (execPrbs on errors s) := by
  unfold execPrbs
  try dsimp only
  iterate 24 (all_goals try (first
    | with_reducible apply GoodNext.next
    | with_reducible exact Good.refl _
    | (apply Good.before; with_reducible apply testField_good)
    | (apply Good.before; with_reducible apply Good.regBump)
    | (with_reducible apply Good.ite) <;> intro _))
  done

theorem execRearmGapEnd_good (b : Fin 8) (s : State) : GoodNext s (execRearmGapEnd b s) := by
  unfold execRearmGapEnd
  try dsimp only
  iterate 24 (all_goals try (first
    | with_reducible apply GoodNext.next
    | with_reducible exact Good.refl _
    | (apply Good.before; with_reducible apply Good.setSquall)
    | split))
  done

theorem execAuroraParityError_good (n : Fin 8) (sample : Nat) (testOk : Bool) (s : State) : GoodNext s (execAuroraParityError n sample testOk s) := by
  unfold execAuroraParityError
  try dsimp only
  iterate 24 (all_goals try (first
    | with_reducible apply GoodNext.next
    | with_reducible exact Good.refl _
    | (apply Good.before; with_reducible apply Good.of_keeps (stopEarly_keeps ..))
    | (apply Good.before; with_reducible apply Good.regPut)
    | (apply Good.before; with_reducible apply Good.of_keeps (unitCheck_keeps ..))
    | (apply Good.before; with_reducible apply Good.setAurora)
    | split))
  done

theorem execSquallStop_good (b : Fin 8) (v : Nat) (s : State) : GoodNext s (execSquallStop b v s) := by
  unfold execSquallStop
  try dsimp only
  iterate 24 (all_goals try (first
    | with_reducible apply GoodNext.next
    | with_reducible exact Good.refl _
    | (apply Good.before; with_reducible apply Good.of_keeps (takeCapt_keeps ..))))
  done

theorem serveOne_good (s : State) (a1 : DramReq) : Good s (serveOne s a1) := by
  unfold serveOne
  try dsimp only
  iterate 24 (all_goals try (first
    | with_reducible exact Good.refl _
    | (apply Good.before; with_reducible apply serveRead_good)
    | (apply Good.before; with_reducible apply Good.of_keeps (refillNow_keeps ..))
    | (apply Good.before; with_reducible apply Good.of_keeps (touchDram_keeps ..))
    | (apply Good.before; with_reducible apply Good.of_keeps (auroraNow_keeps ..))
    | split))
  done

theorem serveWaiting_good (n : Nat) (s : State) : Good s (serveWaiting n s) := by
  induction n generalizing s with
  | zero => exact .refl s
  | succ n ih =>
    unfold serveWaiting
    split
    · exact .refl s
    · exact .ite (fun _ => Good.before (ih _) (Good.before (serveOne_good ..) (.fields rfl rfl rfl rfl rfl))) (fun _ => .refl s)

theorem enterService_good (s : State) : Good s (enterService s) := by
  unfold enterService
  try dsimp only
  iterate 24 (all_goals try (first
    | (apply Good.before; with_reducible apply Good.of_keeps (touchDram_keeps ..))
    | (apply Good.before; with_reducible apply serveWaiting_good)
    | (apply Good.before; with_reducible apply Good.setUnit)
    | with_reducible apply Good.fields <;> rfl))
  done

theorem returnDram_good (s : State) : Good s (returnDram s) := by
  unfold returnDram
  try dsimp only
  iterate 24 (all_goals try (first
    | with_reducible exact Good.refl _
    | (apply Good.before; with_reducible apply Good.of_keeps (raiseEvent_keeps ..))
    | (apply Good.before; with_reducible apply Good.of_keeps (endChange_keeps ..))
    | (apply Good.before; with_reducible apply enterService_good)
    | (apply Good.before; with_reducible apply Good.of_keeps (beginChange_keeps ..))
    | (with_reducible apply Good.ite) <;> intro _
    | (apply Good.before; with_reducible apply Good.dram)))
  done

theorem modeCheck_good (s : State) (sub : Nat) (bad : Option Byte) : Good s (modeCheck s sub bad) := by
  unfold modeCheck
  try dsimp only
  iterate 24 (all_goals try (first
    | (apply Good.before; with_reducible apply returnDram_good)
    | (apply Good.before; with_reducible apply freeze_good)
    | split
    | with_reducible apply Good.fields <;> rfl))
  done

theorem execCalSetConfigure_good (f : Frame) (s : State) : GoodNext s (execCalSetConfigure f s) := by
  unfold execCalSetConfigure
  try dsimp only
  iterate 24 (all_goals try (first
    | with_reducible apply GoodNext.next
    | with_reducible exact Good.refl _
    | intro _
    | (apply Good.before; with_reducible apply onOp_good)
    | (apply Good.before; with_reducible apply doCalSetConfigure_good)))
  done

theorem execIdcode_good (s : State) : GoodNext s (execIdcode s) := by
  unfold execIdcode
  try dsimp only
  iterate 24 (all_goals try (first
    | with_reducible apply GoodNext.next
    | with_reducible exact Good.refl _
    | (apply Good.before; with_reducible apply jtagLoad_good)))
  done

theorem execFence_good (s : State) : GoodNext s (execFence s) := by
  unfold execFence
  try dsimp only
  iterate 24 (all_goals try (first
    | with_reducible apply GoodNext.next
    | with_reducible exact Good.refl _
    | (apply Good.before; with_reducible apply Good.of_keeps (tryFence_keeps ..))))
  done

theorem commitStatus_good (s : State) (d : Nat) (e : Ending) : Good s (commitStatus s d e) := by
  unfold commitStatus
  try dsimp only
  iterate 24 (all_goals try (first
    | with_reducible exact Good.refl _
    | (apply Good.before; with_reducible apply Good.of_keeps (stopAuroras_keeps ..))
    | (apply Good.before; with_reducible apply Good.of_keeps (commitFrame_keeps ..))
    | (apply Good.before; with_reducible apply Good.of_keeps (noteDone_keeps ..))
    | (apply Good.before; with_reducible apply Good.of_keeps (tellAbsent_keeps ..))
    | (apply Good.before; with_reducible apply afterFree_good)
    | (apply Good.before; with_reducible apply freeSlot_good)
    | (with_reducible apply Good.ite) <;> intro _))
  done

theorem execCsDiagRead_good (value : Word) (s : State) : GoodNext s (execCsDiagRead value s) := by
  unfold execCsDiagRead
  try dsimp only
  iterate 24 (all_goals try (first
    | with_reducible apply GoodNext.next
    | with_reducible exact Good.refl _
    | (apply Good.before; with_reducible apply Good.of_keeps (startDiag_keeps ..))))
  done

theorem execRefresh_good (sub : Fin 8) (s : State) : GoodNext s (execRefresh sub s) := by
  unfold execRefresh
  try dsimp only
  iterate 24 (all_goals try (first
    | with_reducible apply GoodNext.next
    | (with_reducible apply GoodNext.ite) <;> intro _
    | with_reducible apply Good.fields <;> rfl))
  done

theorem execCancelMemoExpiry_good (s : State) : GoodNext s (execCancelMemoExpiry s) := by
  unfold execCancelMemoExpiry
  refine .next (Good.before (.regBump ..) ?_)
  exact .memo rfl (List.length_filter_le _ _) rfl rfl rfl

theorem execBypass_good (s : State) : GoodNext s (execBypass s) := by
  unfold execBypass
  try dsimp only
  iterate 24 (all_goals try (first
    | with_reducible apply GoodNext.next
    | with_reducible exact Good.refl _
    | (apply Good.before; with_reducible apply jtagLoad_good)))
  done


--

theorem execTelemetry_good (s : State) : GoodNext s (execTelemetry s) := by
  unfold execTelemetry
  try dsimp only
  iterate 24 (all_goals try (first
    | with_reducible apply GoodNext.next
    | (with_reducible apply GoodNext.ite) <;> intro _
    | with_reducible exact Good.refl _
    | (apply Good.before; with_reducible apply Good.of_keeps (commitFrame_keeps ..))
    | (apply Good.before; with_reducible apply Good.struct)))
  done

theorem execDramRead_good (port : DramPort) (burst : Nat) (fault : BurstFault) (s : State) : GoodNext s (execDramRead port burst fault s) := by
  unfold execDramRead
  try dsimp only
  iterate 24 (all_goals try (first
    | with_reducible apply GoodNext.next
    | (with_reducible apply GoodNext.ite) <;> intro _
    | with_reducible exact Good.refl _
    | (apply Good.before; with_reducible apply serveRead_good)
    | (apply Good.before; with_reducible apply Good.of_keeps (askDram_keeps ..))))
  done

theorem execDdrPllRelockTimeout_good (s : State) : GoodNext s (execDdrPllRelockTimeout s) := by
  unfold execDdrPllRelockTimeout
  try dsimp only
  iterate 24 (all_goals try (first
    | with_reducible apply GoodNext.next
    | with_reducible exact Good.refl _
    | (apply Good.before; with_reducible apply latchFault_good)
    | split))
  done

theorem execSelfRefreshEntry_good (s : State) : GoodNext s (execSelfRefreshEntry s) := by
  unfold execSelfRefreshEntry
  try dsimp only
  iterate 24 (all_goals try (first
    | with_reducible apply GoodNext.next
    | (with_reducible apply GoodNext.ite) <;> intro _
    | (apply Good.before; with_reducible apply Good.regBump)
    | (apply Good.before; with_reducible apply Good.setUnit)
    | with_reducible apply Good.fields <;> rfl))
  done

theorem execClamp_good (s : State) : GoodNext s (execClamp s) := by
  unfold execClamp
  try dsimp only
  iterate 24 (all_goals try (first
    | with_reducible apply GoodNext.next
    | with_reducible exact Good.refl _
    | (apply Good.before; with_reducible apply jtagLoad_good)))
  done

theorem execUnitDozeTimeout_good (u : Fin 22) (s : State) : GoodNext s (execUnitDozeTimeout u s) := by
  unfold execUnitDozeTimeout
  try dsimp only
  iterate 24 (all_goals try (first
    | with_reducible apply GoodNext.next
    | (with_reducible apply GoodNext.ite) <;> intro _
    | with_reducible exact Good.refl _
    | (apply Good.before; with_reducible apply Good.of_keeps (syncPlls_keeps ..))
    | (apply Good.before; with_reducible apply Good.setUnit)
    | (apply Good.before; with_reducible apply Good.of_keeps (bankDown_keeps ..))))
  done

theorem execVirgaRunCalibration_good (ch : Fin 256) (sum1 : Nat) (sum2 : Nat) (s : State) : GoodNext s (execVirgaRunCalibration ch sum1 sum2 s) := by
  unfold execVirgaRunCalibration
  try dsimp only
  iterate 24 (all_goals try (first
    | with_reducible apply GoodNext.next
    | (with_reducible apply GoodNext.ite) <;> intro _
    | with_reducible exact Good.refl _
    | (apply Good.before; with_reducible apply Good.of_keeps (noteReject_keeps ..))
    | (apply Good.before; with_reducible apply Good.of_keeps (applyCal_keeps ..))
    | (apply Good.before; with_reducible apply Good.setVirga)))
  done

theorem execJsc_good (d : Fin 16) (k : Fin 256) (e : Emit) (target : Nat) (lpop : Nat) (cond : BitVec 7) (sense : Bool) (reduce : Reduce) (s : State) : GoodNext s (execJsc d k e target lpop cond sense reduce s) := by
  unfold execJsc
  try dsimp only
  iterate 24 (all_goals try (first
    | with_reducible apply GoodNext.next
    | (with_reducible apply GoodNext.ite) <;> intro _
    | with_reducible exact Good.refl _
    | intro _
    | (apply Good.before; with_reducible apply branch_good)
    | (apply Good.before; with_reducible apply Good.setFlow)
    | (apply Good.before; with_reducible apply reword_good)
    | (apply Good.before; with_reducible apply finish_good)
    | (apply Good.before; with_reducible apply word_good)
    | (apply Good.before; with_reducible apply Good.of_keeps (progError_keeps ..))
    | (with_reducible apply Good.ite) <;> intro _))
  done

theorem execPowerDramPoint_good (f : Frame) (s : State) : GoodNext s (execPowerDramPoint f s) := by
  unfold execPowerDramPoint
  try dsimp only
  iterate 24 (all_goals try (first
    | with_reducible apply GoodNext.next
    | with_reducible exact Good.refl _
    | intro _
    | (apply Good.before; with_reducible apply onOp_good)
    | (apply Good.before; with_reducible apply doPowerDramPoint_good)))
  done

theorem execResetN_good (boot : BootInput) (s : State) : GoodNext s (execResetN boot s) := by
  unfold execResetN
  try dsimp only
  iterate 24 (all_goals try (first
    | with_reducible apply GoodNext.next
    | (with_reducible apply GoodNext.ite) <;> intro _
    | with_reducible exact Good.refl _
    | (apply Good.before; with_reducible apply warmStart_good)))
  done

theorem execExtTrig_good (n : Fin 8) (s : State) : GoodNext s (execExtTrig n s) := by
  unfold execExtTrig
  try dsimp only
  iterate 24 (all_goals try (first
    | with_reducible apply GoodNext.next
    | with_reducible exact Good.refl _
    | (apply Good.before; with_reducible apply Good.of_keeps (setEvent_keeps ..))))
  done

theorem execZenTimeSnapshot_good (s : State) : GoodNext s (execZenTimeSnapshot s) := by
  unfold execZenTimeSnapshot
  try dsimp only
  iterate 24 (all_goals try (first
    | with_reducible apply GoodNext.next
    | with_reducible apply Good.zenith <;> rfl))
  done

theorem noteOpFails_good (s : State) (d : Nat) (k : Nat) (v : Nat) (item : Nat) (failed : List Nat) : Good s (noteOpFails s d k v item failed) := by
  unfold noteOpFails
  try dsimp only
  iterate 24 (all_goals try (first
    | with_reducible exact Good.refl _
    | intro _
    | (apply Good.before; with_reducible apply Good.setCum)
    | with_reducible apply Good.foldl
    | split))
  done

theorem judgeSite_good (s : State) (d : Nat) (p : Played) (rs : List PinResult) (k : Nat) : Good s (judgeSite s d p rs k) := by
  unfold judgeSite
  try dsimp only
  iterate 24 (all_goals try (first
    | with_reducible exact Good.refl _
    | (apply Good.before; with_reducible apply Good.of_keeps (judgeMatch_keeps ..))
    | (apply Good.before; with_reducible apply noteOpFails_good)
    | (apply Good.before; with_reducible apply Good.of_keeps (countFail_keeps ..))
    | (apply Good.before; with_reducible apply Good.of_keeps (timeoutFail_keeps ..))
    | split))
  done

theorem judgeVector_good (s : State) (d : Nat) (p : Played) (rest : List Played) (readings : List PinReading) : Good s (judgeVector s d p rest readings) := by
  unfold judgeVector
  try dsimp only
  iterate 24 (all_goals try (first
    | with_reducible exact Good.refl _
    | intro _
    | (apply Good.before; with_reducible apply Good.setDom)
    | (apply Good.before; with_reducible apply Good.of_keeps (countInvalid_keeps ..))
    | (apply Good.before; with_reducible apply judgeSite_good)
    | (apply Good.before; with_reducible apply closeOps_good)
    | (apply Good.before; with_reducible apply Good.of_keeps (feedSqualls_keeps ..))
    | (apply Good.before; with_reducible apply Good.of_keeps (digestFail_keeps ..))
    | (apply Good.before; with_reducible apply Good.of_keeps (atEnd_keeps ..))
    | (with_reducible apply Good.ite) <;> intro _
    | with_reducible apply Good.foldl))
  done

theorem execCalSetLoadChannelRecords_good (f : Frame) (s : State) : GoodNext s (execCalSetLoadChannelRecords f s) := by
  unfold execCalSetLoadChannelRecords
  try dsimp only
  iterate 24 (all_goals try (first
    | with_reducible apply GoodNext.next
    | with_reducible exact Good.refl _
    | intro _
    | (apply Good.before; with_reducible apply onOp_good)
    | (apply Good.before; with_reducible apply doCalSetLoadChannelRecords_good)))
  done

theorem execRefillRequest_good (b : Fin 8) (borrow : Bool) (s : State) : GoodNext s (execRefillRequest b borrow s) := by
  unfold execRefillRequest
  try dsimp only
  iterate 24 (all_goals try (first
    | with_reducible apply GoodNext.next
    | (with_reducible apply GoodNext.ite) <;> intro _
    | with_reducible exact Good.refl _
    | (apply Good.before; with_reducible apply Good.of_keeps (refillNow_keeps ..))
    | (apply Good.before; with_reducible apply Good.of_keeps (touchDram_keeps ..))
    | (apply Good.before; with_reducible apply Good.of_keeps (askDram_keeps ..))))
  done

theorem execLedgerCommit_good (d : Fin 16) (k : Fin 256) (parity : Bool) (s : State) : GoodNext s (execLedgerCommit d k parity s) := by
  unfold execLedgerCommit
  try dsimp only
  iterate 24 (all_goals try (first
    | with_reducible apply GoodNext.next
    | with_reducible exact Good.refl _
    | (apply Good.before; with_reducible apply Good.of_keeps (unitCheck_keeps ..))
    | (apply Good.before; with_reducible apply Good.setCtx)
    | (apply Good.before; with_reducible apply Good.setSite)
    | (apply Good.before; with_reducible apply Good.regBump)
    | split))
  done

theorem execTriggerExit_good (b : Fin 8) (parity : Option Bool) (s : State) : GoodNext s (execTriggerExit b parity s) := by
  unfold execTriggerExit
  try dsimp only
  iterate 24 (all_goals try (first
    | with_reducible apply GoodNext.next
    | with_reducible exact Good.refl _
    | (apply Good.before; with_reducible apply Good.of_keeps (squallParity_keeps ..))
    | (apply Good.before; with_reducible apply Good.of_keeps (squallRun_keeps ..))
    | split))
  done

theorem execPinStateRecordComplete_good (b : Fin 8) (s : State) : GoodNext s (execPinStateRecordComplete b s) := by
  unfold execPinStateRecordComplete
  try dsimp only
  iterate 24 (all_goals try (first
    | with_reducible apply GoodNext.next
    | with_reducible exact Good.refl _
    | (apply Good.before; with_reducible apply Good.of_keeps (closeRecord_keeps ..))
    | split))
  done

theorem execJmp_good (d : Fin 16) (k : Fin 256) (e : Emit) (target : Nat) (lpop : Nat) (s : State) : GoodNext s (execJmp d k e target lpop s) := by
  unfold execJmp
  try dsimp only
  iterate 24 (all_goals try (first
    | with_reducible apply GoodNext.next
    | with_reducible exact Good.refl _
    | intro _
    | (apply Good.before; with_reducible apply emitThen_good)
    | (apply Good.before; with_reducible apply branch_good)))
  done

theorem execCalSetCalibrate_good (f : Frame) (s : State) : GoodNext s (execCalSetCalibrate f s) := by
  unfold execCalSetCalibrate
  try dsimp only
  iterate 24 (all_goals try (first
    | with_reducible apply GoodNext.next
    | with_reducible exact Good.refl _
    | intro _
    | (apply Good.before; with_reducible apply onOp_good)
    | (apply Good.before; with_reducible apply doCalSetCalibrate_good)))
  done

theorem resumeDram_good (s : State) : Good s (resumeDram s) := by
  unfold resumeDram
  try dsimp only
  iterate 24 (all_goals try (first
    | with_reducible exact Good.refl _
    | (apply Good.before; with_reducible apply drainLoads_good)
    | (apply Good.before; with_reducible apply drain3_good)))
  done

theorem execJobSubmit_good (f : Frame) (s : State) : GoodNext s (execJobSubmit f s) := by
  unfold execJobSubmit
  try dsimp only
  iterate 24 (all_goals try (first
    | with_reducible apply GoodNext.next
    | with_reducible exact Good.refl _
    | intro _
    | (apply Good.before; with_reducible apply onFrame_good)
    | (apply Good.before; with_reducible apply doJobSubmit_good)))
  done

theorem execSyncExchangeStart_good (s : State) : GoodNext s (execSyncExchangeStart s) := by
  unfold execSyncExchangeStart
  split
  · exact .next (.refl s)
  · refine .ite (fun _ => .next (.refl s)) (fun _ => .next (Good.before (.of_keeps (commitFrame_keeps ..)) ?_))
    refine Good.trans (t := if s.zenith.t1.isSome then rejectExchange s else s)
      (.ite (fun _ => rejectExchange_good s) (fun _ => .refl s)) ?_
    exact .zenith rfl rfl rfl rfl rfl rfl

theorem execSelfRefreshExit_good (s : State) : GoodNext s (execSelfRefreshExit s) := by
  unfold execSelfRefreshExit
  try dsimp only
  iterate 24 (all_goals try (first
    | with_reducible apply GoodNext.next
    | (with_reducible apply GoodNext.ite) <;> intro _
    | with_reducible exact Good.refl _
    | (apply Good.before; with_reducible apply Good.of_keeps (wakeUnit_keeps ..))
    | (apply Good.before; with_reducible apply Good.regBump)))
  done

theorem execHighz_good (s : State) : GoodNext s (execHighz s) := by
  unfold execHighz
  try dsimp only
  iterate 24 (all_goals try (first
    | with_reducible apply GoodNext.next
    | with_reducible exact Good.refl _
    | (apply Good.before; with_reducible apply jtagLoad_good)))
  done

theorem execDftPop_good (value : Word) (s : State) : GoodNext s (execDftPop value s) := by
  unfold execDftPop
  try dsimp only
  iterate 24 (all_goals try (first
    | with_reducible apply GoodNext.next
    | with_reducible exact Good.refl _
    | (apply Good.before; with_reducible apply Good.of_keeps (popToLines_keeps ..))))
  done

theorem execDeepIdleExit_good (p : Port) (woken : Bool) (s : State) : GoodNext s (execDeepIdleExit p woken s) := by
  unfold execDeepIdleExit
  try dsimp only
  iterate 24 (all_goals try (first
    | with_reducible apply GoodNext.next
    | with_reducible exact Good.refl _
    | (apply Good.before; with_reducible apply Good.of_keeps (eachLane_keeps ..))
    | (apply Good.before; with_reducible apply Good.of_keeps (startExit_keeps ..))
    | (with_reducible apply Good.ite) <;> intro _))
  done

theorem execLoadOpen_good (f : Frame) (s : State) : GoodNext s (execLoadOpen f s) := by
  unfold execLoadOpen
  try dsimp only
  iterate 24 (all_goals try (first
    | with_reducible apply GoodNext.next
    | with_reducible exact Good.refl _
    | (apply Good.before; with_reducible apply takeLoad_good)))
  done

theorem execCdrLock_good (lane : Fin 20) (s : State) : GoodNext s (execCdrLock lane s) := by
  unfold execCdrLock
  try dsimp only
  iterate 24 (all_goals try (first
    | with_reducible apply GoodNext.next
    | (with_reducible apply GoodNext.ite) <;> intro _
    | with_reducible exact Good.refl _
    | (apply Good.before; with_reducible apply Good.setLane)))
  done

theorem execUnlockVerify_good (challenge : Bytes) (scope : Byte) (signature pubkey : Bytes) (s : State) :
    GoodNext s (execUnlockVerify challenge scope signature pubkey s) := by
  unfold execUnlockVerify
  refine GoodNext.ite (fun _ => .next (.refl s)) (fun hf => .next (Good.before (newChallenge_good _) ?_))
  have h3 : s.jtag.failures < 3 := by
    have : ¬ (3 ≤ s.jtag.failures) := fun c => hf (Or.inr c)
    omega
  by_cases h : unlockOk s challenge scope signature pubkey = true
  · rw [if_pos h]
    have hs : scope.toNat ≤ 2 := by
      unfold unlockOk at h
      simp only [Bool.and_eq_true, Bool.or_eq_true, decide_eq_true_eq] at h
      rcases h.2 with e | e <;> rw [e] <;> decide
    exact ⟨rfl, fun i => { time := i.time, set := i.set, memo := i.memo, failures := i.failures, scope := hs, cells := i.cells }⟩
  · rw [if_neg h]
    exact ⟨rfl, fun i => { time := i.time, set := i.set, memo := i.memo, failures := h3, scope := i.scope, cells := i.cells }⟩

theorem execUnitIdleTimeout_good (u : Fin 22) (s : State) : GoodNext s (execUnitIdleTimeout u s) := by
  unfold execUnitIdleTimeout
  try dsimp only
  iterate 24 (all_goals try (first
    | with_reducible apply GoodNext.next
    | (with_reducible apply GoodNext.ite) <;> intro _
    | with_reducible exact Good.refl _
    | (apply Good.before; with_reducible apply Good.setUnit)))
  done

theorem execCalSetSave_good (f : Frame) (s : State) : GoodNext s (execCalSetSave f s) := by
  unfold execCalSetSave
  try dsimp only
  iterate 24 (all_goals try (first
    | with_reducible apply GoodNext.next
    | with_reducible exact Good.refl _
    | intro _
    | (apply Good.before; with_reducible apply onOp_good)
    | (apply Good.before; with_reducible apply doCalSetSave_good)))
  done

theorem execCsDiagReadDone_good (s : State) : GoodNext s (execCsDiagReadDone s) := by
  unfold execCsDiagReadDone
  try dsimp only
  iterate 24 (all_goals try (first
    | with_reducible apply GoodNext.next
    | (with_reducible apply GoodNext.ite) <;> intro _
    | with_reducible exact Good.refl _
    | intro _
    | (apply Good.before; with_reducible apply Good.regSet)
    | (apply Good.before; with_reducible apply Good.regPut)
    | with_reducible apply Good.foldl
    | (apply Good.before; with_reducible apply Good.struct)))
  done

theorem execJobCancel_good (f : Frame) (s : State) : GoodNext s (execJobCancel f s) := by
  unfold execJobCancel
  try dsimp only
  iterate 24 (all_goals try (first
    | with_reducible apply GoodNext.next
    | with_reducible exact Good.refl _
    | intro _
    | (apply Good.before; with_reducible apply onFrame_good)
    | (apply Good.before; with_reducible apply doJobCancel_good)))
  done

theorem execLoadData_good (f : Frame) (s : State) : GoodNext s (execLoadData f s) := by
  unfold execLoadData
  try dsimp only
  iterate 24 (all_goals try (first
    | with_reducible apply GoodNext.next
    | with_reducible exact Good.refl _
    | (apply Good.before; with_reducible apply takeLoad_good)))
  done

theorem execDipEnd_good (r : Rail) (samples : Nat) (s : State) : GoodNext s (execDipEnd r samples s) := by
  unfold execDipEnd
  try dsimp only
  iterate 24 (all_goals try (first
    | with_reducible apply GoodNext.next
    | with_reducible exact Good.refl _
    | (apply Good.before; with_reducible apply Good.of_keeps (setDip_keeps ..))
    | (apply Good.before; with_reducible apply latchFault_good)
    | (apply Good.before; with_reducible apply Good.of_keeps (cautionJobs_keeps ..))
    | (apply Good.before; with_reducible apply Good.regBump)
    | (apply Good.before; with_reducible apply Good.regPut)
    | (apply Good.before; with_reducible apply Good.of_keeps (raiseEvent_keeps ..))
    | split
    | (apply Good.before; with_reducible apply Good.struct)))
  done

theorem execMarkerReceive_good (lane : Fin 20) (groups : List (BitVec 10)) (inverted : Bool) (skew : Nat) (s : State) : GoodNext s (execMarkerReceive lane groups inverted skew s) := by
  unfold execMarkerReceive
  try dsimp only
  iterate 24 (all_goals try (first
    | with_reducible apply GoodNext.next
    | with_reducible exact Good.refl _
    | (apply Good.before; with_reducible apply Good.setLane)
    | (apply Good.before; with_reducible apply Good.regBump)
    | (apply Good.before; with_reducible apply Good.of_keeps (tryUp_keeps ..))
    | (apply Good.before; with_reducible apply Good.of_keeps (countMarker_keeps ..))
    | (apply Good.before; with_reducible apply Good.setPort)
    | (apply Good.before; with_reducible apply Good.of_keeps (readMarker_keeps ..))
    | split))
  done

theorem execFailLogFrameCommit_good (d : Fin 16) (s : State) : GoodNext s (execFailLogFrameCommit d s) := by
  unfold execFailLogFrameCommit
  try dsimp only
  iterate 24 (all_goals try (first
    | with_reducible apply GoodNext.next
    | (with_reducible apply GoodNext.ite) <;> intro _
    | with_reducible exact Good.refl _
    | (apply Good.before; with_reducible apply Good.of_keeps (flushRecords_keeps ..))))
  done

theorem execCumulusRewriteDone_good (b : Fin 8) (readbackOk : Bool) (s : State) : GoodNext s (execCumulusRewriteDone b readbackOk s) := by
  unfold execCumulusRewriteDone
  try dsimp only
  iterate 24 (all_goals try (first
    | with_reducible apply GoodNext.next
    | (with_reducible apply GoodNext.ite) <;> intro _
    | with_reducible exact Good.refl _
    | (apply Good.before; with_reducible apply Good.setCum)
    | (apply Good.before; with_reducible apply Good.of_keeps (raiseEvent_keeps ..))
    | (apply Good.before; with_reducible apply failBank_good)
    | (with_reducible apply Good.ite) <;> intro _))
  done

theorem execNimbusDrainEnd_good (boot : BootInput) (s : State) : GoodNext s (execNimbusDrainEnd boot s) := by
  unfold execNimbusDrainEnd
  try dsimp only
  iterate 24 (all_goals try (first
    | with_reducible apply GoodNext.next
    | (with_reducible apply GoodNext.ite) <;> intro _
    | (apply Good.before; with_reducible apply warmStart_good)
    | with_reducible apply Good.fields <;> rfl))
  done

theorem execLoadAbort_good (f : Frame) (s : State) : GoodNext s (execLoadAbort f s) := by
  unfold execLoadAbort
  try dsimp only
  iterate 24 (all_goals try (first
    | with_reducible apply GoodNext.next
    | with_reducible exact Good.refl _
    | (apply Good.before; with_reducible apply takeLoad_good)))
  done

theorem execPairTakeover_good (f : Frame) (s : State) : GoodNext s (execPairTakeover f s) := by
  unfold execPairTakeover
  try dsimp only
  iterate 24 (all_goals try (first
    | with_reducible apply GoodNext.next
    | with_reducible exact Good.refl _
    | intro _
    | (apply Good.before; with_reducible apply onFrame_good)
    | (apply Good.before; with_reducible apply Good.of_keeps (doPairTakeover_keeps ..))))
  done

theorem execLedgCommitSelect_good (d : Fin 16) (k : Fin 256) (e : Emit) (inc : Bool) (item : BitVec 16) (s : State) : GoodNext s (execLedgCommitSelect d k e inc item s) := by
  unfold execLedgCommitSelect
  try dsimp only
  iterate 24 (all_goals try (first
    | with_reducible apply GoodNext.next
    | with_reducible exact Good.refl _
    | intro _
    | (apply Good.before; with_reducible apply word_good)
    | (apply Good.before; with_reducible apply Good.of_keeps (ledg_keeps ..))))
  done

theorem execDigestTimeout_good (d : Fin 16) (window : Nat) (s : State) : GoodNext s (execDigestTimeout d window s) := by
  unfold execDigestTimeout
  try dsimp only
  iterate 24 (all_goals try (first
    | with_reducible apply GoodNext.next
    | (with_reducible apply GoodNext.ite) <;> intro _
    | with_reducible exact Good.refl _
    | (apply Good.before; with_reducible apply Good.of_keeps (diverge_keeps ..))))
  done

theorem execAdmissionWaitExpiry_good (tag : Word) (s : State) : GoodNext s (execAdmissionWaitExpiry tag s) := by
  unfold execAdmissionWaitExpiry
  try dsimp only
  iterate 24 (all_goals try (first
    | with_reducible apply GoodNext.next
    | with_reducible exact Good.refl _
    | (apply Good.before; with_reducible apply reexamine_good)
    | (apply Good.before; with_reducible apply Good.of_keeps (refuseWaiting_keeps ..))
    | split))
  done

theorem execTimedStartRecheck_good (d : Fin 16) (s : State) : GoodNext s (execTimedStartRecheck d s) := by
  unfold execTimedStartRecheck
  try dsimp only
  iterate 24 (all_goals try (first
    | with_reducible apply GoodNext.next
    | (with_reducible apply GoodNext.ite) <;> intro _
    | with_reducible exact Good.refl _
    | (apply Good.before; with_reducible apply Good.of_keeps (endUnsynced_keeps ..))))
  done

theorem execEngineStart_good (d : Fin 16) (s : State) : GoodNext s (execEngineStart d s) := by
  unfold execEngineStart
  try dsimp only
  iterate 24 (all_goals try (first
    | with_reducible apply GoodNext.next
    | (with_reducible apply GoodNext.ite) <;> intro _
    | with_reducible exact Good.refl _
    | intro _
    | (apply Good.before; with_reducible apply Good.setDom)
    | (apply Good.before; with_reducible apply Good.setSite)
    | (apply Good.before; with_reducible apply Good.of_keeps (rebaseUnits_keeps ..))
    | (apply Good.before; with_reducible apply Good.of_keeps (startCums_keeps ..))
    | (apply Good.before; with_reducible apply Good.of_keeps (startFlow_keeps ..))
    | with_reducible apply Good.foldl))
  done

theorem execJobStart_good (d : Fin 16) (s : State) : GoodNext s (execJobStart d s) := by
  unfold execJobStart
  try dsimp only
  iterate 24 (all_goals try (first
    | with_reducible apply GoodNext.next
    | (with_reducible apply GoodNext.ite) <;> intro _
    | with_reducible exact Good.refl _
    | (apply Good.before; with_reducible apply Good.setDom)))
  done

theorem execJobStatusCommit_good (d : Fin 16) (s : State) : GoodNext s (execJobStatusCommit d s) := by
  unfold execJobStatusCommit
  try dsimp only
  iterate 24 (all_goals try (first
    | with_reducible apply GoodNext.next
    | with_reducible exact Good.refl _
    | (apply Good.before; with_reducible apply Good.of_keeps (sendDigest_keeps ..))
    | (apply Good.before; with_reducible apply commitStatus_good)
    | split))
  done

theorem execLedgerResultSend_good (d : Fin 16) (parity : Bool) (s : State) : GoodNext s (execLedgerResultSend d parity s) := by
  unfold execLedgerResultSend
  try dsimp only
  iterate 24 (all_goals try (first
    | with_reducible apply GoodNext.next
    | (with_reducible apply GoodNext.ite) <;> intro _
    | with_reducible exact Good.refl _
    | intro _
    | (apply Good.before; with_reducible apply Good.of_keeps (unitCheck_keeps ..))
    | (apply Good.before; with_reducible apply Good.of_keeps (commitFrame_keeps ..))
    | (apply Good.before; with_reducible apply Good.of_keeps (sendVirgas_keeps ..))
    | (apply Good.before; with_reducible apply Good.setDom)
    | (with_reducible apply Good.ite) <;> intro _
    | with_reducible apply Good.foldl))
  done

theorem execMicrowordExecute_good (d : Fin 16) (k : Fin 256) (upset : Option (Fin 256 × Microword)) (s : State) : GoodNext s (execMicrowordExecute d k upset s) := by
  unfold execMicrowordExecute
  try dsimp only
  iterate 24 (all_goals try (first
    | with_reducible apply GoodNext.next
    | with_reducible exact Good.refl _
    | (apply Good.before; with_reducible apply Good.of_keeps (routineWord_keeps ..))
    | (apply Good.before; with_reducible apply Good.of_keeps (strike_keeps ..))
    | (apply Good.before; with_reducible apply Good.setFlow)
    | (apply Good.before; with_reducible apply Good.of_keeps (machineStops_keeps ..))
    | (apply Good.before; with_reducible apply Good.of_keeps (microStep_keeps ..))
    | split))
  done

theorem execNop_good (d : Fin 16) (k : Fin 256) (s : State) : GoodNext s (execNop d k s) := by
  unfold execNop
  try dsimp only
  iterate 24 (all_goals try (first
    | with_reducible apply GoodNext.next
    | with_reducible exact Good.refl _
    | intro _
    | (apply Good.before; with_reducible apply word_good)
    | (apply Good.before; with_reducible apply Good.setFlow)))
  done

theorem execVec_good (d : Fin 16) (k : Fin 256) (e : Emit) (s : State) : GoodNext s (execVec d k e s) := by
  unfold execVec
  try dsimp only
  iterate 24 (all_goals try (first
    | with_reducible apply GoodNext.next
    | with_reducible exact Good.refl _
    | intro _
    | (apply Good.before; with_reducible apply word_good)
    | (apply Good.before; with_reducible apply Good.setFlow)))
  done

theorem execRpt_good (d : Fin 16) (k : Fin 256) (e : Emit) (reps : Nat) (s : State) : GoodNext s (execRpt d k e reps s) := by
  unfold execRpt
  try dsimp only
  iterate 24 (all_goals try (first
    | with_reducible apply GoodNext.next
    | with_reducible exact Good.refl _
    | intro _
    | (apply Good.before; with_reducible apply word_good)
    | (apply Good.before; with_reducible apply Good.setFlow)))
  done

theorem execRet_good (d : Fin 16) (k : Fin 256) (e : Emit) (s : State) : GoodNext s (execRet d k e s) := by
  unfold execRet
  try dsimp only
  iterate 24 (all_goals try (first
    | with_reducible apply GoodNext.next
    | with_reducible exact Good.refl _
    | intro _
    | (apply Good.before; with_reducible apply emitThen_good)
    | (apply Good.before; with_reducible apply orError_good)
    | (apply Good.before; with_reducible apply Good.setFlow)
    | split))
  done

theorem execJev_good (d : Fin 16) (k : Fin 256) (e : Emit) (target : Nat) (lpop : Nat) (event : Fin 24) (keep : Bool) (s : State) : GoodNext s (execJev d k e target lpop event keep s) := by
  unfold execJev
  try dsimp only
  iterate 24 (all_goals try (first
    | with_reducible apply GoodNext.next
    | (with_reducible apply GoodNext.ite) <;> intro _
    | with_reducible exact Good.refl _
    | intro _
    | (apply Good.before; with_reducible apply branch_good)
    | (apply Good.before; with_reducible apply Good.of_keeps (clearLatches_keeps ..))
    | (apply Good.before; with_reducible apply Good.setFlow)
    | (apply Good.before; with_reducible apply reword_good)
    | (apply Good.before; with_reducible apply word_good)
    | (apply Good.before; with_reducible apply Good.of_keeps (progError_keeps ..))
    | (with_reducible apply Good.ite) <;> intro _))
  done

theorem execWait_good (d : Fin 16) (k : Fin 256) (e : Emit) (target : Nat) (lpop : Nat) (event : Fin 24) (passes : Nat) (s : State) : GoodNext s (execWait d k e target lpop event passes s) := by
  unfold execWait
  try dsimp only
  iterate 24 (all_goals try (first
    | with_reducible apply GoodNext.next
    | (with_reducible apply GoodNext.ite) <;> intro _
    | with_reducible exact Good.refl _
    | intro _
    | (apply Good.before; with_reducible apply reword_good)
    | (apply Good.before; with_reducible apply Good.of_keeps (clearLatches_keeps ..))
    | (apply Good.before; with_reducible apply Good.setSite)
    | (apply Good.before; with_reducible apply Good.setFlow)
    | (apply Good.before; with_reducible apply branch_good)
    | (apply Good.before; with_reducible apply word_good)
    | (apply Good.before; with_reducible apply Good.of_keeps (progError_keeps ..))
    | (with_reducible apply Good.ite) <;> intro _
    | with_reducible apply Good.foldl))
  done

theorem execBarr_good (d : Fin 16) (k : Fin 256) (e : Emit) (s : State) : GoodNext s (execBarr d k e s) := by
  unfold execBarr
  try dsimp only
  iterate 24 (all_goals try (first
    | with_reducible apply GoodNext.next
    | with_reducible exact Good.refl _
    | intro _
    | (apply Good.before; with_reducible apply word_good)
    | (apply Good.before; with_reducible apply Good.of_keeps (barriers_keeps ..))
    | (apply Good.before; with_reducible apply Good.setFlow)
    | (with_reducible apply Good.ite) <;> intro _))
  done

theorem execFmask_good (d : Fin 16) (k : Fin 256) (e : Emit) (entry : BitVec 8) (s : State) : GoodNext s (execFmask d k e entry s) := by
  unfold execFmask
  try dsimp only
  iterate 24 (all_goals try (first
    | with_reducible apply GoodNext.next
    | with_reducible exact Good.refl _
    | intro _
    | (apply Good.before; with_reducible apply word_good)
    | (apply Good.before; with_reducible apply Good.setFlow)))
  done

theorem execLedgSelect_good (d : Fin 16) (k : Fin 256) (e : Emit) (inc : Bool) (item : BitVec 16) (s : State) : GoodNext s (execLedgSelect d k e inc item s) := by
  unfold execLedgSelect
  try dsimp only
  iterate 24 (all_goals try (first
    | with_reducible apply GoodNext.next
    | with_reducible exact Good.refl _
    | intro _
    | (apply Good.before; with_reducible apply word_good)
    | (apply Good.before; with_reducible apply Good.of_keeps (ledg_keeps ..))))
  done

theorem execLedgCommit_good (d : Fin 16) (k : Fin 256) (e : Emit) (s : State) : GoodNext s (execLedgCommit d k e s) := by
  unfold execLedgCommit
  try dsimp only
  iterate 24 (all_goals try (first
    | with_reducible apply GoodNext.next
    | with_reducible exact Good.refl _
    | intro _
    | (apply Good.before; with_reducible apply word_good)
    | (apply Good.before; with_reducible apply Good.of_keeps (ledg_keeps ..))))
  done

theorem execCapt_good (d : Fin 16) (k : Fin 256) (e : Emit) (banks : BitVec 8) (action : CaptAction) (s : State) : GoodNext s (execCapt d k e banks action s) := by
  unfold execCapt
  try dsimp only
  iterate 24 (all_goals try (first
    | with_reducible apply GoodNext.next
    | with_reducible exact Good.refl _
    | intro _
    | (apply Good.before; with_reducible apply word_good)
    | (apply Good.before; with_reducible apply Good.of_keeps (progError_keeps ..))
    | (apply Good.before; with_reducible apply Good.setFlow)
    | (with_reducible apply Good.ite) <;> intro _))
  done

theorem execApg_good (d : Fin 16) (k : Fin 256) (e : Emit) (banks : BitVec 8) (entry : Nat) (vcount : Nat) (s : State) : GoodNext s (execApg d k e banks entry vcount s) := by
  unfold execApg
  try dsimp only
  iterate 24 (all_goals try (first
    | with_reducible apply GoodNext.next
    | with_reducible exact Good.refl _
    | intro _
    | (apply Good.before; with_reducible apply word_good)
    | (apply Good.before; with_reducible apply Good.of_keeps (progError_keeps ..))
    | (apply Good.before; with_reducible apply Good.setFlow)
    | (apply Good.before; with_reducible apply Good.of_keeps (playApg_keeps ..))
    | (apply Good.before; with_reducible apply Good.setCum)
    | (apply Good.before; with_reducible apply Good.of_keeps (barriers_keeps ..))
    | (apply Good.before; with_reducible apply Good.of_keeps (startCum_keeps ..))
    | (with_reducible apply Good.ite) <;> intro _
    | with_reducible apply Good.foldl))
  done

theorem lateErrors_good (s : State) (d : Nat) (c : Nat) : Good s (lateErrors s d c) := by
  unfold lateErrors
  try dsimp only
  iterate 24 (all_goals try (first
    | with_reducible exact Good.refl _
    | intro _
    | (apply Good.before; with_reducible apply Good.of_keeps (progErrorAt_keeps ..))
    | with_reducible apply Good.foldl
    | split))
  done

theorem execVectorPop_good (d : Fin 16) (parity : Bool) (s : State) : GoodNext s (execVectorPop d parity s) := by
  unfold execVectorPop
  try dsimp only
  iterate 24 (all_goals try (first
    | with_reducible apply GoodNext.next
    | (with_reducible apply GoodNext.ite) <;> intro _
    | with_reducible exact Good.refl _
    | intro _
    | (apply Good.before; with_reducible apply Good.of_keeps (machineCheck_keeps ..))
    | (apply Good.before; with_reducible apply Good.of_keeps (squallEclk_keeps ..))
    | (apply Good.before; with_reducible apply popVector_good)
    | (apply Good.before; with_reducible apply lateErrors_good)
    | (apply Good.before; with_reducible apply Good.of_keeps (cumErrors_keeps ..))
    | (apply Good.before; with_reducible apply Good.of_keeps (pushAll_keeps ..))
    | (apply Good.before; with_reducible apply Good.of_keeps (endEclk_keeps ..))
    | (apply Good.before; with_reducible apply Good.of_keeps (dropDiscarded_keeps ..))
    | (apply Good.before; with_reducible apply Good.of_keeps (endEngines_keeps ..))
    | (apply Good.before; with_reducible apply Good.setDom)
    | (apply Good.before; with_reducible apply Good.of_keeps (parkUnplayed_keeps ..))
    | (with_reducible apply Good.ite) <;> intro _
    | with_reducible apply Good.foldl))
  done

theorem execKeepAliveEnd_good (d : Fin 16) (k : Fin 256) (s : State) : GoodNext s (execKeepAliveEnd d k s) := by
  unfold execKeepAliveEnd
  try dsimp only
  iterate 24 (all_goals try (first
    | with_reducible apply GoodNext.next
    | with_reducible exact Good.refl _
    | intro _
    | (apply Good.before; with_reducible apply Good.setPin)
    | (apply Good.before; with_reducible apply Good.of_keeps (atEnd_keeps ..))
    | (apply Good.before; with_reducible apply Good.of_keeps (notePark_keeps ..))
    | with_reducible apply Good.foldl
    | split))
  done

theorem execCompareReturn_good (d : Fin 16) (readings : List PinReading) (s : State) : GoodNext s (execCompareReturn d readings s) := by
  unfold execCompareReturn
  try dsimp only
  iterate 24 (all_goals try (first
    | with_reducible apply GoodNext.next
    | with_reducible exact Good.refl _
    | (apply Good.before; with_reducible apply judgeVector_good)
    | split))
  done

theorem execCumulusInstruction_good (b : Fin 8) (parity : Bool) (s : State) : GoodNext s (execCumulusInstruction b parity s) := by
  unfold execCumulusInstruction
  try dsimp only
  iterate 24 (all_goals try (first
    | with_reducible apply GoodNext.next
    | with_reducible exact Good.refl _
    | (apply Good.before; with_reducible apply Good.of_keeps (unitCheck_keeps ..))
    | (apply Good.before; with_reducible apply Good.regPut)
    | (apply Good.before; with_reducible apply Good.setCum)
    | (apply Good.before; with_reducible apply Good.of_keeps (cumErrors_keeps ..))
    | (apply Good.before; with_reducible apply Good.of_keeps (showBlock_keeps ..))
    | split))
  done

theorem execVirgaStamp_good (ch : Fin 256) (kinds : BitVec 4) (c : Nat) (r : Nat) (s : State) : GoodNext s (execVirgaStamp ch kinds c r s) := by
  unfold execVirgaStamp
  try dsimp only
  iterate 24 (all_goals try (first
    | with_reducible apply GoodNext.next
    | with_reducible exact Good.refl _
    | (apply Good.before; with_reducible apply Good.of_keeps (loseTransitions_keeps ..))
    | (apply Good.before; with_reducible apply Good.of_keeps (stampTransition_keeps ..))
    | split))
  done

theorem execVirgaGapCalibration_good (ch : Fin 256) (sum1 : Nat) (sum2 : Nat) (s : State) : GoodNext s (execVirgaGapCalibration ch sum1 sum2 s) := by
  unfold execVirgaGapCalibration
  try dsimp only
  iterate 24 (all_goals try (first
    | with_reducible apply GoodNext.next
    | (with_reducible apply GoodNext.ite) <;> intro _
    | with_reducible exact Good.refl _
    | (apply Good.before; with_reducible apply Good.of_keeps (applyCal_keeps ..))
    | (apply Good.before; with_reducible apply Good.setVirga)))
  done

theorem execSquallForceTrigger_good (b : Fin 8) (v : Nat) (s : State) : GoodNext s (execSquallForceTrigger b v s) := by
  unfold execSquallForceTrigger
  try dsimp only
  iterate 24 (all_goals try (first
    | with_reducible apply GoodNext.next
    | with_reducible exact Good.refl _
    | (apply Good.before; with_reducible apply Good.of_keeps (takeCapt_keeps ..))))
  done

theorem execJumpRequestRegister_good (n : Fin 8) (s : State) : GoodNext s (execJumpRequestRegister n s) := by
  unfold execJumpRequestRegister
  try dsimp only
  iterate 24 (all_goals try (first
    | with_reducible apply GoodNext.next
    | with_reducible exact Good.refl _
    | (apply Good.before; with_reducible apply Good.setAurora)
    | (apply Good.before; with_reducible apply Good.of_keeps (bumpReq_keeps ..))
    | split))
  done

theorem execAuroraRefillRequest_good (n : Fin 8) (borrow : Bool) (sample : Nat) (s : State) : GoodNext s (execAuroraRefillRequest n borrow sample s) := by
  unfold execAuroraRefillRequest
  try dsimp only
  iterate 24 (all_goals try (first
    | with_reducible apply GoodNext.next
    | (with_reducible apply GoodNext.ite) <;> intro _
    | with_reducible exact Good.refl _
    | (apply Good.before; with_reducible apply Good.of_keeps (auroraNow_keeps ..))
    | (apply Good.before; with_reducible apply Good.of_keeps (touchDram_keeps ..))
    | (apply Good.before; with_reducible apply Good.of_keeps (askDram_keeps ..))))
  done

theorem fillColumns_good (a0 : Nat) (a1 : State) (a2 : Port) : Good a1 (fillColumns a0 a1 a2) := by
  induction a0 generalizing a1 a2 with
  | zero => exact Good.refl _
  | succ m ih =>
    unfold fillColumns
    try dsimp only
    iterate 24 (all_goals try (first
      | with_reducible exact Good.refl _
      | (apply Good.before; with_reducible apply ih)
      | (apply Good.before; with_reducible apply Good.of_keeps (goOnFrame_keeps ..))
      | (apply Good.before; with_reducible apply startFrame_good)
      | (apply Good.before; with_reducible apply Good.of_keeps (sendCredit_keeps ..))
      | split))
    done

theorem execMarkerSend_good (p : Port) (s : State) : GoodNext s (execMarkerSend p s) := by
  unfold execMarkerSend
  try dsimp only
  iterate 24 (all_goals try (first
    | with_reducible apply GoodNext.next
    | (with_reducible apply GoodNext.ite) <;> intro _
    | with_reducible exact Good.refl _
    | (apply Good.before; with_reducible apply fillColumns_good)
    | (apply Good.before; with_reducible apply Good.of_keeps (sendIdle_keeps ..))
    | (apply Good.before; with_reducible apply Good.setPort)
    | (apply Good.before; with_reducible apply Good.of_keeps (sendLanes_keeps ..))
    | (apply Good.before; with_reducible apply Good.of_keeps (setWidths_keeps ..))
    | (with_reducible apply Good.ite) <;> intro _))
  done

theorem execDeepIdleEntry_good (p : Port) (s : State) : GoodNext s (execDeepIdleEntry p s) := by
  unfold execDeepIdleEntry
  try dsimp only
  iterate 24 (all_goals try (first
    | with_reducible apply GoodNext.next
    | (with_reducible apply GoodNext.ite) <;> intro _
    | with_reducible exact Good.refl _
    | (apply Good.before; with_reducible apply Good.setPort)
    | (apply Good.before; with_reducible apply Good.of_keeps (quietPort_keeps ..))
    | (apply Good.before; with_reducible apply Good.setUnit)))
  done

theorem execCreditBlockSend_good (p : Port) (q : Fin 64) (elapsed : Nat) (s : State) : GoodNext s (execCreditBlockSend p q elapsed s) := by
  unfold execCreditBlockSend
  try dsimp only
  iterate 24 (all_goals try (first
    | with_reducible apply GoodNext.next
    | (with_reducible apply GoodNext.ite) <;> intro _
    | with_reducible exact Good.refl _
    | (apply Good.before; with_reducible apply Good.of_keeps (sendCredit_keeps ..))))
  done

theorem execLinePop_good (q : Fin 64) (damage : Option Nat) (s : State) : GoodNext s (execLinePop q damage s) := by
  unfold execLinePop
  try dsimp only
  iterate 24 (all_goals try (first
    | with_reducible apply GoodNext.next
    | with_reducible exact Good.refl _
    | (apply Good.before; with_reducible apply Good.of_keeps (popLine_keeps ..))
    | (apply Good.before; with_reducible apply Good.of_keeps (queueDamage_keeps ..))
    | split))
  done

theorem execRead_good (f : Frame) (parity : Option (Fin 65536)) (s : State) : GoodNext s (execRead f parity s) := by
  unfold execRead
  try dsimp only
  iterate 24 (all_goals try (first
    | with_reducible apply GoodNext.next
    | with_reducible exact Good.refl _
    | (apply Good.before; with_reducible apply take3_good)))
  done

theorem execLoadFree_good (f : Frame) (s : State) : GoodNext s (execLoadFree f s) := by
  unfold execLoadFree
  try dsimp only
  iterate 24 (all_goals try (first
    | with_reducible apply GoodNext.next
    | with_reducible exact Good.refl _
    | (apply Good.before; with_reducible apply takeLoad_good)))
  done

theorem execTimeSetLaunch_good (f : Frame) (s : State) : GoodNext s (execTimeSetLaunch f s) := by
  unfold execTimeSetLaunch
  try dsimp only
  iterate 24 (all_goals try (first
    | with_reducible apply GoodNext.next
    | with_reducible exact Good.refl _
    | intro _
    | (apply Good.before; with_reducible apply onOp_good)
    | (apply Good.before; with_reducible apply doTimeSetLaunch_good)))
  done

theorem execTimedLaunch_good (s : State) : GoodNext s (execTimedLaunch s) := by
  unfold execTimedLaunch
  try dsimp only
  iterate 24 (all_goals try (first
    | with_reducible apply GoodNext.next
    | intro _
    | (apply Good.before; with_reducible apply Good.of_keeps (makeLaunch_keeps ..))
    | with_reducible apply Good.foldl
    | with_reducible apply Good.zenith <;> rfl))
  done

theorem execSyncRequest_good (f : Frame) (s : State) : GoodNext s (execSyncRequest f s) := by
  unfold execSyncRequest
  try dsimp only
  iterate 24 (all_goals try (first
    | with_reducible apply GoodNext.next
    | (with_reducible apply GoodNext.ite) <;> intro _
    | with_reducible exact Good.refl _
    | intro _
    | (apply Good.before; with_reducible apply onFrame_good)
    | (apply Good.before; with_reducible apply Good.of_keeps (doSyncRequest_keeps ..))))
  done

theorem execSyncExchangeTimeout_good (s : State) : GoodNext s (execSyncExchangeTimeout s) := by
  unfold execSyncExchangeTimeout
  try dsimp only
  iterate 24 (all_goals try (first
    | with_reducible apply GoodNext.next
    | with_reducible exact Good.refl _
    | (apply Good.before; with_reducible apply rejectExchange_good)
    | split))
  done

theorem execRecover_good (f : Frame) (s : State) : GoodNext s (execRecover f s) := by
  unfold execRecover
  try dsimp only
  iterate 24 (all_goals try (first
    | with_reducible apply GoodNext.next
    | with_reducible exact Good.refl _
    | intro _
    | (apply Good.before; with_reducible apply onFrame_good)
    | (apply Good.before; with_reducible apply Good.of_keeps (doRecover_keeps ..))))
  done

theorem execPowerSleep_good (f : Frame) (s : State) : GoodNext s (execPowerSleep f s) := by
  unfold execPowerSleep
  try dsimp only
  iterate 24 (all_goals try (first
    | with_reducible apply GoodNext.next
    | with_reducible exact Good.refl _
    | intro _
    | (apply Good.before; with_reducible apply onOp_good)
    | (apply Good.before; with_reducible apply doPowerSleep_good)))
  done

theorem execPowerHold_good (f : Frame) (s : State) : GoodNext s (execPowerHold f s) := by
  unfold execPowerHold
  try dsimp only
  iterate 24 (all_goals try (first
    | with_reducible apply GoodNext.next
    | with_reducible exact Good.refl _
    | intro _
    | (apply Good.before; with_reducible apply onOp_good)
    | (apply Good.before; with_reducible apply doPowerHold_good)))
  done

theorem execPowerConfigure_good (f : Frame) (s : State) : GoodNext s (execPowerConfigure f s) := by
  unfold execPowerConfigure
  try dsimp only
  iterate 24 (all_goals try (first
    | with_reducible apply GoodNext.next
    | with_reducible exact Good.refl _
    | intro _
    | (apply Good.before; with_reducible apply onOp_good)
    | (apply Good.before; with_reducible apply doPowerConfigure_good)))
  done

theorem execHoldExpiry_good (u : Fin 22) (s : State) : GoodNext s (execHoldExpiry u s) := by
  unfold execHoldExpiry
  try dsimp only
  iterate 24 (all_goals try (first
    | with_reducible apply GoodNext.next
    | with_reducible exact Good.refl _
    | (apply Good.before; with_reducible apply Good.setUnit)
    | split))
  done

theorem unitWake_good (s : State) (u : Nat) : Good s (unitWake s u) := by
  unfold unitWake
  try dsimp only
  iterate 24 (all_goals try (first
    | with_reducible exact Good.refl _
    | (apply Good.before; with_reducible apply enterService_good)
    | (apply Good.before; with_reducible apply Good.of_keeps (bankLoads_keeps ..))
    | (apply Good.before; with_reducible apply Good.setUnit)
    | (with_reducible apply Good.ite) <;> intro _))
  done

theorem execUnitWake_good (u : Fin 22) (s : State) : GoodNext s (execUnitWake u s) := by
  unfold execUnitWake
  try dsimp only
  iterate 24 (all_goals try (first
    | with_reducible apply GoodNext.next
    | with_reducible exact Good.refl _
    | (apply Good.before; with_reducible apply resumeDram_good)
    | (apply Good.before; with_reducible apply unitWake_good)
    | (with_reducible apply Good.ite) <;> intro _))
  done

theorem execPatrolScrubRead_good (fault : BurstFault) (s : State) : GoodNext s (execPatrolScrubRead fault s) := by
  unfold execPatrolScrubRead
  try dsimp only
  iterate 24 (all_goals try (first
    | with_reducible apply GoodNext.next
    | (with_reducible apply GoodNext.ite) <;> intro _
    | with_reducible exact Good.refl _
    | (apply Good.before; with_reducible apply Good.of_keeps (debitScrub_keeps ..))
    | (apply Good.before; with_reducible apply Good.regBump)
    | (apply Good.before; with_reducible apply readBurst_good)
    | (with_reducible apply Good.ite) <;> intro _
    | (apply Good.before; with_reducible apply Good.dram)))
  done

theorem execAlertN_good (sub : Fin 8) (writes : Nat) (persist : Nat) (s : State) : GoodNext s (execAlertN sub writes persist s) := by
  unfold execAlertN
  try dsimp only
  iterate 24 (all_goals try (first
    | with_reducible apply GoodNext.next
    | (with_reducible apply GoodNext.ite) <;> intro _
    | with_reducible exact Good.refl _
    | (apply Good.before; with_reducible apply latchFault_good)
    | (apply Good.before; with_reducible apply Good.regBump)
    | (apply Good.before; with_reducible apply Good.of_keeps (drawFree_keeps ..))
    | (apply Good.before; with_reducible apply Good.of_keeps (freeBytes_keeps ..))
    | (apply Good.before; with_reducible apply freeze_good)))
  done

theorem execModeRegisterCheck_good (sub : Fin 8) (bad : Option Byte) (s : State) : GoodNext s (execModeRegisterCheck sub bad s) := by
  unfold execModeRegisterCheck
  try dsimp only
  iterate 24 (all_goals try (first
    | with_reducible apply GoodNext.next
    | with_reducible exact Good.refl _
    | (apply Good.before; with_reducible apply resumeDram_good)
    | (apply Good.before; with_reducible apply modeCheck_good)))
  done

theorem execRefclkAbsent_good (s : State) : GoodNext s (execRefclkAbsent s) := by
  unfold execRefclkAbsent
  try dsimp only
  iterate 24 (all_goals try (first
    | with_reducible apply GoodNext.next
    | (with_reducible apply GoodNext.ite) <;> intro _
    | (apply Good.before; with_reducible apply Good.regBump)
    | (apply Good.before; with_reducible apply latchFault_good)
    | with_reducible apply Good.zenith <;> rfl))
  done

theorem execPllFeedbackTimeout_good (n : Fin 10) (s : State) : GoodNext s (execPllFeedbackTimeout n s) := by
  unfold execPllFeedbackTimeout
  try dsimp only
  iterate 24 (all_goals try (first
    | with_reducible apply GoodNext.next
    | (with_reducible apply GoodNext.ite) <;> intro _
    | with_reducible exact Good.refl _
    | (apply Good.before; with_reducible apply pllLoss_good)
    | (apply Good.before; with_reducible apply Good.setPll)))
  done

theorem failHalo_good (s : State) (n : Nat) : Good s (failHalo s n) := by
  unfold failHalo
  try dsimp only
  iterate 24 (all_goals try (first
    | with_reducible exact Good.refl _
    | (apply Good.before; with_reducible apply Good.of_keeps (syncPlls_keeps ..))
    | (apply Good.before; with_reducible apply retireHalo_good)))
  done

theorem execPllLockTimeout_good (n : Fin 10) (s : State) : GoodNext s (execPllLockTimeout n s) := by
  unfold execPllLockTimeout
  try dsimp only
  iterate 24 (all_goals try (first
    | with_reducible apply GoodNext.next
    | (with_reducible apply GoodNext.ite) <;> intro _
    | with_reducible exact Good.refl _
    | (apply Good.before; with_reducible apply Good.of_keeps (failPll_keeps ..))
    | (apply Good.before; with_reducible apply latchFault_good)
    | (apply Good.before; with_reducible apply failHalo_good)
    | (apply Good.before; with_reducible apply losePll_good)
    | (apply Good.before; with_reducible apply Good.setPll)))
  done

theorem execDiodeReading_good (value : Option Int) (s : State) : GoodNext s (execDiodeReading value s) := by
  unfold execDiodeReading
  try dsimp only
  iterate 24 (all_goals try (first
    | with_reducible apply GoodNext.next
    | with_reducible exact Good.refl _
    | (apply Good.before; with_reducible apply Good.of_keeps (examinePending_keeps ..))
    | (apply Good.before; with_reducible apply takeDiode_good)))
  done

theorem execThrottleGraceExpiry_good (s : State) : GoodNext s (execThrottleGraceExpiry s) := by
  unfold execThrottleGraceExpiry
  try dsimp only
  iterate 24 (all_goals try (first
    | with_reducible apply GoodNext.next
    | (with_reducible apply GoodNext.ite) <;> intro _
    | (apply Good.before; with_reducible apply Good.of_keeps (raiseEvent_keeps ..))
    | with_reducible apply Good.fields <;> rfl))
  done

theorem execDipFault_good (r : Rail) (s : State) : GoodNext s (execDipFault r s) := by
  unfold execDipFault
  try dsimp only
  iterate 24 (all_goals try (first
    | with_reducible apply GoodNext.next
    | with_reducible exact Good.refl _
    | (apply Good.before; with_reducible apply latchFault_good)
    | (apply Good.before; with_reducible apply Good.of_keeps (setDip_keeps ..))
    | split))
  done

theorem powerOn_good (s : State) (b : BootInput) : Good s (powerOn s b) := by
  unfold powerOn
  refine Good.before (from1_good ..) (Good.before (.of_keeps (begin__keeps ..)) ?_)
  have h := powerOnState_good s
  generalize powerOnState s = u at h
  exact h.trans (.fields rfl rfl rfl rfl rfl)

theorem execSupplyReset_good (boot : BootInput) (s : State) : GoodNext s (execSupplyReset boot s) := by
  unfold execSupplyReset
  try dsimp only
  iterate 24 (all_goals try (first
    | with_reducible apply GoodNext.next
    | with_reducible exact Good.refl _
    | (apply Good.before; with_reducible apply powerOn_good)))
  done

theorem execBackgroundCalibrationStart_good (s : State) : GoodNext s (execBackgroundCalibrationStart s) := by
  unfold execBackgroundCalibrationStart
  try dsimp only
  iterate 24 (all_goals try (first
    | with_reducible apply GoodNext.next
    | with_reducible exact Good.refl _
    | (apply Good.before; with_reducible apply Good.of_keeps (touchItem_keeps ..))
    | (apply Good.before; with_reducible apply Good.of_keeps (putDue_keeps ..))
    | split))
  done

theorem execFaultNotice_good (s : State) : GoodNext s (execFaultNotice s) := by
  unfold execFaultNotice
  try dsimp only
  iterate 24 (all_goals try (first
    | with_reducible apply GoodNext.next
    | with_reducible exact Good.refl _
    | (apply Good.before; with_reducible apply resumeQueues_good)
    | (apply Good.before; with_reducible apply haltStart_good)
    | (apply Good.before; with_reducible apply faultNotice_good)
    | split))
  done

theorem execNimbusWatchdogExpiry_good (s : State) : GoodNext s (execNimbusWatchdogExpiry s) := by
  unfold execNimbusWatchdogExpiry
  try dsimp only
  iterate 24 (all_goals try (first
    | with_reducible apply GoodNext.next
    | (with_reducible apply GoodNext.ite) <;> intro _
    | (apply Good.before; with_reducible apply nimbusFault_good)
    | with_reducible apply Good.fields <;> rfl))
  done

theorem execRecoveryDrainEnd_good (boot : BootInput) (s : State) : GoodNext s (execRecoveryDrainEnd boot s) := by
  unfold execRecoveryDrainEnd
  try dsimp only
  iterate 24 (all_goals try (first
    | with_reducible apply GoodNext.next
    | (with_reducible apply GoodNext.ite) <;> intro _
    | with_reducible exact Good.refl _
    | (apply Good.before; with_reducible apply warmState_good)
    | (apply Good.before; with_reducible apply from6_good)
    | (apply Good.before; with_reducible apply Good.of_keeps (begin__keeps ..))
    | (apply Good.before; with_reducible apply from1_good)
    | (apply Good.before; with_reducible apply Good.struct)))
  done

theorem failPlls_good (s : State) (fails : List (Fin 10)) : Good s (failPlls s fails) := by
  unfold failPlls
  try dsimp only
  iterate 24 (all_goals try (first
    | with_reducible exact Good.refl _
    | intro _
    | (apply Good.before; with_reducible apply Good.of_keeps (failPll_keeps ..))
    | (apply Good.before; with_reducible apply failHalo_good)
    | (apply Good.before; with_reducible apply latchFault_good)
    | (with_reducible apply Good.ite) <;> intro _
    | with_reducible apply Good.foldl))
  done

theorem execRecoveryComplete_good (pllFails : List (Fin 10)) (s : State) : GoodNext s (execRecoveryComplete pllFails s) := by
  unfold execRecoveryComplete
  try dsimp only
  iterate 24 (all_goals try (first
    | with_reducible apply GoodNext.next
    | (with_reducible apply GoodNext.ite) <;> intro _
    | with_reducible exact Good.refl _
    | (apply Good.before; with_reducible apply failPlls_good)
    | (apply Good.before; with_reducible apply endRecovery_good)
    | (with_reducible apply Good.ite) <;> intro _))
  done

theorem execPowerOnReset_good (boot : BootInput) (s : State) : GoodNext s (execPowerOnReset boot s) := by
  unfold execPowerOnReset
  try dsimp only
  iterate 24 (all_goals try (first
    | with_reducible apply GoodNext.next
    | with_reducible exact Good.refl _
    | (apply Good.before; with_reducible apply powerOn_good)))
  done

theorem execPortHWaitTimeout_good (s : State) : GoodNext s (execPortHWaitTimeout s) := by
  unfold execPortHWaitTimeout
  try dsimp only
  iterate 24 (all_goals try (first
    | with_reducible apply GoodNext.next
    | with_reducible exact Good.refl _
    | intro _
    | (apply Good.before; with_reducible apply resumeQueues_good)
    | (apply Good.before; with_reducible apply goOn_good)
    | (apply Good.before; with_reducible apply Good.of_keeps (endStep10_keeps ..))
    | (apply Good.before; with_reducible apply from11_good)
    | split))
  done

theorem execGlobalEvent_good (f : Frame) (s : State) : GoodNext s (execGlobalEvent f s) := by
  have h : Good s (onFrame s f 0x81 (doGlobalEvent f)) :=
    onFrame_good _ _ _ _ (fun u => Good.of_keeps (doGlobalEvent_keeps f u))
  unfold execGlobalEvent
  by_cases c : (getPort s f.port).state = .up ∧ discardReason s f = 0 ∧ f.ty = 0x81
  · simp only [if_pos c]; exact GoodNext.next (h.trans (Good.of_keeps (passEvent_keeps ..)))
  · simp only [if_neg c]; exact GoodNext.next h

theorem execPairDigest_good (f : Frame) (s : State) : GoodNext s (execPairDigest f s) := by
  unfold execPairDigest
  try dsimp only
  iterate 24 (all_goals try (first
    | with_reducible apply GoodNext.next
    | with_reducible exact Good.refl _
    | intro _
    | (apply Good.before; with_reducible apply onFrame_good)
    | (apply Good.before; with_reducible apply Good.of_keeps (doPairDigest_keeps ..))))
  done

theorem execPairOwnConflict_good (s : State) : GoodNext s (execPairOwnConflict s) := by
  unfold execPairOwnConflict
  try dsimp only
  iterate 24 (all_goals try (first
    | with_reducible apply GoodNext.next
    | (with_reducible apply GoodNext.ite) <;> intro _
    | (apply Good.before; with_reducible apply latchFault_good)
    | with_reducible apply Good.fields <;> rfl))
  done

theorem execOwnerClaim_good (s : State) : GoodNext s (execOwnerClaim s) := by
  unfold execOwnerClaim
  try dsimp only
  iterate 24 (all_goals try (first
    | with_reducible apply GoodNext.next
    | (with_reducible apply GoodNext.ite) <;> intro _
    | with_reducible apply Good.fields <;> rfl))
  done

theorem execMarkOut_good (n : Fin 8) (s : State) : GoodNext s (execMarkOut n s) := by
  unfold execMarkOut
  try dsimp only
  iterate 24 (all_goals try (first
    | with_reducible apply GoodNext.next
    | with_reducible exact Good.refl _
    | (apply Good.before; with_reducible apply Good.setMark)
    | (apply Good.before; with_reducible apply Good.regBump)
    | split))
  done

theorem execSysPecWr_good (o : Fin 32) (word : Word) (s : State) : GoodNext s (execSysPecWr o word s) := by
  unfold execSysPecWr
  try dsimp only
  iterate 24 (all_goals try (first
    | with_reducible apply GoodNext.next
    | (with_reducible apply GoodNext.ite) <;> intro _
    | with_reducible exact Good.refl _
    | (apply Good.before; with_reducible apply Good.of_keeps (pecPut_keeps ..))))
  done

theorem execExtestPulse_good (s : State) : GoodNext s (execExtestPulse s) := by
  unfold execExtestPulse
  try dsimp only
  iterate 24 (all_goals try (first
    | with_reducible apply GoodNext.next
    | with_reducible exact Good.refl _
    | (apply Good.before; with_reducible apply jtagLoad_good)))
  done

theorem execUnlock_good (s : State) : GoodNext s (execUnlock s) := by
  unfold execUnlock
  try dsimp only
  iterate 24 (all_goals try (first
    | with_reducible apply GoodNext.next
    | with_reducible exact Good.refl _
    | (apply Good.before; with_reducible apply jtagLoad_good)
    | (apply Good.before; with_reducible apply newChallenge_good)
    | (with_reducible apply Good.ite) <;> intro _))
  done

theorem execDebug_good (s : State) : GoodNext s (execDebug s) := by
  unfold execDebug
  try dsimp only
  iterate 24 (all_goals try (first
    | with_reducible apply GoodNext.next
    | with_reducible exact Good.refl _
    | (apply Good.before; with_reducible apply jtagLoad_good)))
  done

theorem execDebugAccess_good (reg : BitVec 66) (s : State) : GoodNext s (execDebugAccess reg s) := by
  unfold execDebugAccess
  try dsimp only
  iterate 24 (all_goals try (first
    | with_reducible apply GoodNext.next
    | (with_reducible apply GoodNext.ite) <;> intro _
    | with_reducible exact Good.refl _
    | (apply Good.before; with_reducible apply debugWrite_good)
    | (apply Good.before; with_reducible apply resumeQueues_good)
    | (apply Good.before; with_reducible apply debugRead_good)
    | (with_reducible apply Good.ite) <;> intro _))
  done

theorem execJetLoop_good (ports : BitVec 4) (s : State) : GoodNext s (execJetLoop ports s) := by
  unfold execJetLoop
  try dsimp only
  iterate 24 (all_goals try (first
    | with_reducible apply GoodNext.next
    | with_reducible exact Good.refl _
    | (apply Good.before; with_reducible apply testField_good)))
  done

theorem execBistGo_good (s : State) : GoodNext s (execBistGo s) := by
  unfold execBistGo
  try dsimp only
  iterate 24 (all_goals try (first
    | with_reducible apply GoodNext.next
    | with_reducible exact Good.refl _
    | (apply Good.before; with_reducible apply testField_good)))
  done

theorem zTime_inRange (u : Nat) : (zTime u).InRange :=
  ⟨Nat.mod_lt _ (Nat.zero_lt_succ _), Nat.mod_lt _ (Nat.zero_lt_succ _)⟩

/-- A change of the Zenith counter that leaves it and the pending sets in range. -/
theorem Good.clock {s : State} {z : Zenith} (h : Sound s → z.time.InRange)
    (g : z.pendingSet = s.zenith.pendingSet ∨ z.pendingSet = []) : Good s { s with zenith := z } := by
  refine ⟨rfl, fun i => { time := h i, set := ?_, memo := i.memo, failures := i.failures, scope := i.scope, cells := i.cells }⟩
  intro p hp
  change p ∈ z.pendingSet at hp
  rcases g with g | g
  · exact i.set p (g ▸ hp)
  · rw [g] at hp; cases hp

theorem execNclkTick_good (s : State) : GoodNext s (execNclkTick s) := by
  unfold execNclkTick
  dsimp only
  have ht : Good s (tickDram (tickDoms { s with now := s.now + Config.nclkNs })) :=
    Good.before (.of_keeps (tickDram_keeps _)) (Good.before (.of_keeps (tickDoms_keeps _)) (.fields rfl rfl rfl rfl rfl))
  generalize tickDram (tickDoms { s with now := s.now + Config.nclkNs }) = u at ht ⊢
  generalize u.zenith.launches.filter (fun l => !l.made) = ls
  split
  · rename_i t f hp
    refine .next (.foldl (ht.trans ?_) _ (fun v w => reply_good ..))
    have hc : Good u { u with zenith := { u.zenith with
        time := t, pendingSet := [], jump := none, c := if u.zenith.jump.isSome then 0 else u.zenith.c
        rootSet := u.zenith.rootSet || decide (u.zenith.parent = 0), launches := ls } } :=
      .clock (fun i => i.set (t, f) (List.mem_of_getLast? hp)) (Or.inr rfl)
    exact .ite (fun _ => hc) (fun _ => hc.trans (stepClock_good _))
  · split
    · exact .next (Good.before (stepClock_good _) (ht.trans (.clock (fun _ => zTime_inRange _) (Or.inl rfl))))
    · exact .next (ht.trans (.clock (fun _ => zTime_inRange _) (Or.inl rfl)))

end Sys2Proof.Machine
end

