-- ==== Sys2Proof/Laws/PerInstr.lean ====
section
/-! SUPPORT. What the check of a command's operands accepts, command by command: the field widths of a frame and the operand
ranges of a word (R44, R274), read as propositions. -/

namespace Sys2Proof

/-- The bounds of a frame's fields (R274). -/
def Frame.Fits (f : Frame) : Prop := f.ty < 256 ∧ f.queue < 256 ∧ f.length < 2 ^ 32 ∧ f.payload.length ≤ 65536

/-- A start or jump source names an event that exists (R58). -/
def AurSource.Fits (a : AurSource) : Prop := ∀ n, a = .event n → n < 24

/-- The length of an image copy (R415). -/
def imageFits (b : Bytes) : Prop := 736 ≤ b.length ∧ b.length ≤ 14680064

/-- Both copies of a start, and a density R315 supports. -/
def BootInput.Fits (b : BootInput) : Prop :=
  imageFits b.copyA ∧ imageFits b.copyB ∧ (b.density = 16 ∨ b.density = 24 ∨ b.density = 32)

theorem Frame.wf_iff (f : Frame) : f.wf = true ↔ f.Fits := by
  simp [Frame.wf, Frame.Fits, and_assoc]

theorem AurSource.wf_iff (a : AurSource) : a.wf = true ↔ a.Fits := by
  cases a <;> simp [AurSource.wf, AurSource.Fits]

theorem BootInput.wf_iff (b : BootInput) : b.wf = true ↔ b.Fits := by
  simp only [BootInput.wf, BootInput.Fits, imageWf, imageFits, Bool.and_eq_true, Bool.or_eq_true, decide_eq_true_eq, and_assoc, or_assoc]

theorem Emit.within_iff (e : Emit) (lo hi : Nat) : e.within lo hi = true ↔ lo ≤ e.ecount.toNat ∧ e.ecount.toNat ≤ hi := by
  simp [Emit.within]

theorem count32_iff (n : Nat) : count32 n = true ↔ 1 ≤ n ∧ n ≤ 2 ^ 32 := by
  simp [count32]

theorem branchOk_iff (target lpop : Nat) : branchOk target lpop = true ↔ target < 65536 ∧ lpop ≤ 8 := by
  simp [branchOk]

namespace Laws.Operands

/-- The operand ranges a command must meet; a command that is not listed has operands of fixed width alone. -/
def Fits : Instr → Prop
  | .jobSubmit f => f.Fits
  | .jobCancel f => f.Fits
  | .vec _ _ e => 1 ≤ e.ecount.toNat ∧ e.ecount.toNat ≤ 65535
  | .rpt _ _ e reps => 1 ≤ e.ecount.toNat ∧ e.ecount.toNat ≤ 16 ∧ 1 ≤ reps ∧ reps ≤ 2 ^ 32
  | .loop _ _ _ count => 1 ≤ count ∧ count ≤ 2 ^ 32
  | .call _ _ _ target => target < 65536
  | .jmp _ _ _ target lpop => target < 65536 ∧ lpop ≤ 8
  | .jsc _ _ e target lpop cond _ _ => target < 65536 ∧ lpop ≤ 8 ∧ (cond.toNat < 0x60 → 1 ≤ e.ecount.toNat ∧ e.ecount.toNat ≤ 16)
  | .jev _ _ _ target lpop _ _ => target < 65536 ∧ lpop ≤ 8
  | .wordMatch _ _ e target lpop _ passes => 1 ≤ e.ecount.toNat ∧ e.ecount.toNat ≤ 64 ∧ target < 65536 ∧ lpop ≤ 8 ∧ 1 ≤ passes ∧ passes ≤ 2 ^ 32
  | .wait _ _ e target lpop _ passes => 1 ≤ e.ecount.toNat ∧ e.ecount.toNat ≤ 16 ∧ target < 65536 ∧ lpop ≤ 8 ∧ 1 ≤ passes ∧ passes ≤ 2 ^ 32
  | .barr _ _ e => 1 ≤ e.ecount.toNat ∧ e.ecount.toNat ≤ 16
  | .apg _ _ e _ entry vcount => e.ecount = 0 ∧ entry < 65536 ∧ 1 ≤ vcount ∧ vcount ≤ 2 ^ 32
  | .eventWordArrival _ word => word.stamp < 2 ^ 64 ∧ word.lost < 65536
  | .auroraStart _ src _ => src.Fits
  | .jumpRequestArrival _ src _ => src.Fits
  | .packetCommit _ _ ty _ _ payload _ => ty < 256 ∧ payload.length ≤ 65536
  | .linePop _ damage => ∀ m, damage = some m → 1 ≤ m ∧ m ≤ 3
  | .read f _ => f.Fits
  | .regWrite f => f.Fits
  | .regRead f => f.Fits
  | .loadOpen f => f.Fits
  | .loadData f => f.Fits
  | .loadClose f => f.Fits
  | .loadFree f => f.Fits
  | .loadAbort f => f.Fits
  | .calSetBoardTerms f => f.Fits
  | .calSetCalibrate f => f.Fits
  | .calSetLoadChannelRecords f => f.Fits
  | .calSetLoadAuroraRecords f => f.Fits
  | .calSetSave f => f.Fits
  | .calSetConfigure f => f.Fits
  | .timeSetSet f => f.Fits
  | .timeSetConfigure f => f.Fits
  | .timeSetLaunch f => f.Fits
  | .syncRequest f => f.Fits
  | .syncResponse f => f.Fits
  | .recover f => f.Fits
  | .powerSleep f => f.Fits
  | .powerHold f => f.Fits
  | .powerDramPoint f => f.Fits
  | .powerWarmReset f boot => f.Fits ∧ boot.Fits
  | .powerConfigure f => f.Fits
  | .ringOscillatorRead raw => raw.length = 8
  | .nimbusDrainEnd boot => boot.Fits
  | .recoveryDrainEnd boot => boot.Fits
  | .supplyReset boot => boot.Fits
  | .powerOnReset boot => boot.Fits
  | .resetN boot => boot.Fits
  | .globalEvent f => f.Fits
  | .pairDigest f => f.Fits
  | .pairTakeover f => f.Fits
  | .unlockVerify challenge _ signature pubkey => challenge.length = 32 ∧ signature.length = 96 ∧ pubkey.length = 96
  | _ => True

/-- The check accepts exactly the commands whose operands fit. -/
def Statement (i : Instr) : Prop := WellFormed i = true ↔ Fits i

theorem jobSubmit (f : Frame) : Statement (.jobSubmit f) := f.wf_iff
theorem jobCancel (f : Frame) : Statement (.jobCancel f) := f.wf_iff
theorem jobAdmit : Statement .jobAdmit := ⟨fun _ => trivial, fun _ => rfl⟩
theorem admissionWaitExpiry (tag : Word) : Statement (.admissionWaitExpiry tag) := ⟨fun _ => trivial, fun _ => rfl⟩
theorem cancelMemoExpiry : Statement .cancelMemoExpiry := ⟨fun _ => trivial, fun _ => rfl⟩
theorem timedStartRecheck (d : Fin 16) : Statement (.timedStartRecheck d) := ⟨fun _ => trivial, fun _ => rfl⟩
theorem engineStart (d : Fin 16) : Statement (.engineStart d) := ⟨fun _ => trivial, fun _ => rfl⟩
theorem jobStart (d : Fin 16) : Statement (.jobStart d) := ⟨fun _ => trivial, fun _ => rfl⟩
theorem jobStatusCommit (d : Fin 16) : Statement (.jobStatusCommit d) := ⟨fun _ => trivial, fun _ => rfl⟩
theorem ledgerResultSend (d : Fin 16) (parity : Bool) : Statement (.ledgerResultSend d parity) := ⟨fun _ => trivial, fun _ => rfl⟩
theorem microwordExecute (d : Fin 16) (k : Fin 256) (upset : Option (Fin 256 × Microword)) : Statement (.microwordExecute d k upset) := ⟨fun _ => trivial, fun _ => rfl⟩
theorem controlStoreReloadDone (ch : Fin 256) (digestOk readbackOk : Bool) : Statement (.controlStoreReloadDone ch digestOk readbackOk) := ⟨fun _ => trivial, fun _ => rfl⟩
theorem nop (d : Fin 16) (k : Fin 256) : Statement (.nop d k) := ⟨fun _ => trivial, fun _ => rfl⟩
theorem vec (d : Fin 16) (k : Fin 256) (e : Emit) : Statement (.vec d k e) := by
  simp [Statement, Fits, WellFormed, Emit.within_iff]
theorem rpt (d : Fin 16) (k : Fin 256) (e : Emit) (reps : Nat) : Statement (.rpt d k e reps) := by
  simp [Statement, Fits, WellFormed, Emit.within_iff, count32_iff, and_assoc]
theorem loop (d : Fin 16) (k : Fin 256) (e : Emit) (count : Nat) : Statement (.loop d k e count) := by
  simp [Statement, Fits, WellFormed, count32_iff]
theorem endl (d : Fin 16) (k : Fin 256) (e : Emit) : Statement (.endl d k e) := ⟨fun _ => trivial, fun _ => rfl⟩
theorem call (d : Fin 16) (k : Fin 256) (e : Emit) (target : Nat) : Statement (.call d k e target) := by
  simp [Statement, Fits, WellFormed]
theorem ret (d : Fin 16) (k : Fin 256) (e : Emit) : Statement (.ret d k e) := ⟨fun _ => trivial, fun _ => rfl⟩
theorem jmp (d : Fin 16) (k : Fin 256) (e : Emit) (target lpop : Nat) : Statement (.jmp d k e target lpop) := by
  simp [Statement, Fits, WellFormed, branchOk_iff]
theorem jsc (d : Fin 16) (k : Fin 256) (e : Emit) (target lpop : Nat) (cond : BitVec 7) (sense : Bool) (reduce : Reduce) : Statement (.jsc d k e target lpop cond sense reduce) := by
  simp [Statement, Fits, WellFormed, Emit.within_iff, branchOk_iff, siteCond, and_assoc]
  omega
theorem jev (d : Fin 16) (k : Fin 256) (e : Emit) (target lpop : Nat) (event : Fin 24) (keep : Bool) : Statement (.jev d k e target lpop event keep) := by
  simp [Statement, Fits, WellFormed, branchOk_iff]
theorem wordMatch (d : Fin 16) (k : Fin 256) (e : Emit) (target lpop : Nat) (cond : BitVec 7) (passes : Nat) : Statement (.wordMatch d k e target lpop cond passes) := by
  simp [Statement, Fits, WellFormed, Emit.within_iff, count32_iff, branchOk_iff, and_assoc]
theorem wait (d : Fin 16) (k : Fin 256) (e : Emit) (target lpop : Nat) (event : Fin 24) (passes : Nat) : Statement (.wait d k e target lpop event passes) := by
  simp [Statement, Fits, WellFormed, Emit.within_iff, count32_iff, branchOk_iff, and_assoc]
theorem barr (d : Fin 16) (k : Fin 256) (e : Emit) : Statement (.barr d k e) := by
  simp [Statement, Fits, WellFormed, Emit.within_iff]
theorem tset (d : Fin 16) (k : Fin 256) (e : Emit) (set : BitVec 8) : Statement (.tset d k e set) := ⟨fun _ => trivial, fun _ => rfl⟩
theorem fmask (d : Fin 16) (k : Fin 256) (e : Emit) (entry : BitVec 8) : Statement (.fmask d k e entry) := ⟨fun _ => trivial, fun _ => rfl⟩
theorem ledgSelect (d : Fin 16) (k : Fin 256) (e : Emit) (inc : Bool) (item : BitVec 16) : Statement (.ledgSelect d k e inc item) := ⟨fun _ => trivial, fun _ => rfl⟩
theorem ledgCommit (d : Fin 16) (k : Fin 256) (e : Emit) : Statement (.ledgCommit d k e) := ⟨fun _ => trivial, fun _ => rfl⟩
theorem ledgCommitSelect (d : Fin 16) (k : Fin 256) (e : Emit) (inc : Bool) (item : BitVec 16) : Statement (.ledgCommitSelect d k e inc item) := ⟨fun _ => trivial, fun _ => rfl⟩
theorem ledgerCommit (d : Fin 16) (k : Fin 256) (parity : Bool) : Statement (.ledgerCommit d k parity) := ⟨fun _ => trivial, fun _ => rfl⟩
theorem mark (d : Fin 16) (k : Fin 256) (e : Emit) (aurora markOut squall : BitVec 8) (ring : Option (Fin 8)) (code : BitVec 8) : Statement (.mark d k e aurora markOut squall ring code) := ⟨fun _ => trivial, fun _ => rfl⟩
theorem capt (d : Fin 16) (k : Fin 256) (e : Emit) (banks : BitVec 8) (action : CaptAction) : Statement (.capt d k e banks action) := ⟨fun _ => trivial, fun _ => rfl⟩
theorem apg (d : Fin 16) (k : Fin 256) (e : Emit) (banks : BitVec 8) (entry vcount : Nat) : Statement (.apg d k e banks entry vcount) := by
  simp [Statement, Fits, WellFormed, Emit.within_iff, count32_iff, BitVec.toNat_eq, and_assoc]
theorem halt (d : Fin 16) (k : Fin 256) (e : Emit) : Statement (.halt d k e) := ⟨fun _ => trivial, fun _ => rfl⟩
theorem vectorPop (d : Fin 16) (parity : Bool) : Statement (.vectorPop d parity) := ⟨fun _ => trivial, fun _ => rfl⟩
theorem keepAliveEnd (d : Fin 16) (k : Fin 256) : Statement (.keepAliveEnd d k) := ⟨fun _ => trivial, fun _ => rfl⟩
theorem compareReturn (d : Fin 16) (readings : List PinReading) : Statement (.compareReturn d readings) := ⟨fun _ => trivial, fun _ => rfl⟩
theorem refillRequest (b : Fin 8) (borrow : Bool) : Statement (.refillRequest b borrow) := ⟨fun _ => trivial, fun _ => rfl⟩
theorem refillLanding (ch : Fin 256) : Statement (.refillLanding ch) := ⟨fun _ => trivial, fun _ => rfl⟩
theorem cumulusInstruction (b : Fin 8) (parity : Bool) : Statement (.cumulusInstruction b parity) := ⟨fun _ => trivial, fun _ => rfl⟩
theorem cumulusRewriteDone (b : Fin 8) (readbackOk : Bool) : Statement (.cumulusRewriteDone b readbackOk) := ⟨fun _ => trivial, fun _ => rfl⟩
theorem virgaStamp (ch : Fin 256) (kinds : BitVec 4) (c r : Nat) : Statement (.virgaStamp ch kinds c r) := ⟨fun _ => trivial, fun _ => rfl⟩
theorem virgaRunCalibration (ch : Fin 256) (sum1 sum2 : Nat) : Statement (.virgaRunCalibration ch sum1 sum2) := ⟨fun _ => trivial, fun _ => rfl⟩
theorem virgaGapCalibration (ch : Fin 256) (sum1 sum2 : Nat) : Statement (.virgaGapCalibration ch sum1 sum2) := ⟨fun _ => trivial, fun _ => rfl⟩
theorem eventWordArrival (b : Fin 8) (word : EventWord) : Statement (.eventWordArrival b word) := by
  simp [Statement, Fits, WellFormed, EventWord.wf]
theorem squallArm (b : Fin 8) (v : Nat) : Statement (.squallArm b v) := ⟨fun _ => trivial, fun _ => rfl⟩
theorem squallForceTrigger (b : Fin 8) (v : Nat) : Statement (.squallForceTrigger b v) := ⟨fun _ => trivial, fun _ => rfl⟩
theorem squallStop (b : Fin 8) (v : Nat) : Statement (.squallStop b v) := ⟨fun _ => trivial, fun _ => rfl⟩
theorem triggerExit (b : Fin 8) (parity : Option Bool) : Statement (.triggerExit b parity) := ⟨fun _ => trivial, fun _ => rfl⟩
theorem segmentClose (b : Fin 8) : Statement (.segmentClose b) := ⟨fun _ => trivial, fun _ => rfl⟩
theorem rearmGapEnd (b : Fin 8) : Statement (.rearmGapEnd b) := ⟨fun _ => trivial, fun _ => rfl⟩
theorem pinStateRecordComplete (b : Fin 8) : Statement (.pinStateRecordComplete b) := ⟨fun _ => trivial, fun _ => rfl⟩
theorem captureSend (b : Fin 8) (parity : Option Bool) : Statement (.captureSend b parity) := ⟨fun _ => trivial, fun _ => rfl⟩
theorem auroraStart (n : Fin 8) (src : AurSource) (ball : Nat) : Statement (.auroraStart n src ball) := src.wf_iff
theorem jumpRequestArrival (n : Fin 8) (src : AurSource) (sample : Int) : Statement (.jumpRequestArrival n src sample) := src.wf_iff
theorem jumpRequestRegister (n : Fin 8) : Statement (.jumpRequestRegister n) := ⟨fun _ => trivial, fun _ => rfl⟩
theorem auroraJump (n : Fin 8) : Statement (.auroraJump n) := ⟨fun _ => trivial, fun _ => rfl⟩
theorem auroraStepEnd (n : Fin 8) : Statement (.auroraStepEnd n) := ⟨fun _ => trivial, fun _ => rfl⟩
theorem auroraUnderrun (n : Fin 8) (sample : Nat) : Statement (.auroraUnderrun n sample) := ⟨fun _ => trivial, fun _ => rfl⟩
theorem auroraRefillRequest (n : Fin 8) (borrow : Bool) (sample : Nat) : Statement (.auroraRefillRequest n borrow sample) := ⟨fun _ => trivial, fun _ => rfl⟩
theorem auroraRefillLanding (n : Fin 8) : Statement (.auroraRefillLanding n) := ⟨fun _ => trivial, fun _ => rfl⟩
theorem openLoadCheck (n : Fin 8) (highLeg : Bool) : Statement (.openLoadCheck n highLeg) := ⟨fun _ => trivial, fun _ => rfl⟩
theorem complianceViolation (n : Fin 8) (sample : Nat) : Statement (.complianceViolation n sample) := ⟨fun _ => trivial, fun _ => rfl⟩
theorem markerSend (p : Port) : Statement (.markerSend p) := ⟨fun _ => trivial, fun _ => rfl⟩
theorem markerReceive (lane : Fin 20) (groups : List (BitVec 10)) (inverted : Bool) (skew : Nat) : Statement (.markerReceive lane groups inverted skew) := ⟨fun _ => trivial, fun _ => rfl⟩
theorem cdrLockLoss (lane : Fin 20) (signal : Bool) : Statement (.cdrLockLoss lane signal) := ⟨fun _ => trivial, fun _ => rfl⟩
theorem mainPathTimeout (p : Port) : Statement (.mainPathTimeout p) := ⟨fun _ => trivial, fun _ => rfl⟩
theorem fallbackTimeout (p : Port) : Statement (.fallbackTimeout p) := ⟨fun _ => trivial, fun _ => rfl⟩
theorem linkIdleExpiry (p : Port) : Statement (.linkIdleExpiry p) := ⟨fun _ => trivial, fun _ => rfl⟩
theorem deepIdleEntry (p : Port) : Statement (.deepIdleEntry p) := ⟨fun _ => trivial, fun _ => rfl⟩
theorem deepIdleExit (p : Port) (woken : Bool) : Statement (.deepIdleExit p woken) := ⟨fun _ => trivial, fun _ => rfl⟩
theorem deepIdleExitTimeout (p : Port) : Statement (.deepIdleExitTimeout p) := ⟨fun _ => trivial, fun _ => rfl⟩
theorem frameTransmit (p : Port) (columns elapsed : Nat) : Statement (.frameTransmit p columns elapsed) := ⟨fun _ => trivial, fun _ => rfl⟩
theorem timestampBlockReceive (p : Port) (elapsed : Nat) : Statement (.timestampBlockReceive p elapsed) := ⟨fun _ => trivial, fun _ => rfl⟩
theorem creditBlockReceive (p : Port) (q : Fin 64) (count : BitVec 16) (bad : Bool) : Statement (.creditBlockReceive p q count bad) := ⟨fun _ => trivial, fun _ => rfl⟩
theorem creditBlockSend (p : Port) (q : Fin 64) (elapsed : Nat) : Statement (.creditBlockSend p q elapsed) := ⟨fun _ => trivial, fun _ => rfl⟩
theorem packetCommit (q : Fin 64) (stage : Writing) (ty : Nat) (flags : BitVec 16) (tag : Word) (payload : Bytes) (mismatch : Bool) : Statement (.packetCommit q stage ty flags tag payload mismatch) := by
  simp [Statement, Fits, WellFormed]
theorem linePop (q : Fin 64) (damage : Option Nat) : Statement (.linePop q damage) := by
  cases damage <;> simp [Statement, Fits, WellFormed]
theorem dftPop (value : Word) : Statement (.dftPop value) := ⟨fun _ => trivial, fun _ => rfl⟩
theorem failLogFrameCommit (d : Fin 16) : Statement (.failLogFrameCommit d) := ⟨fun _ => trivial, fun _ => rfl⟩
theorem read (f : Frame) (parity : Option (Fin 65536)) : Statement (.read f parity) := f.wf_iff
theorem regWrite (f : Frame) : Statement (.regWrite f) := f.wf_iff
theorem regRead (f : Frame) : Statement (.regRead f) := f.wf_iff
theorem loadOpen (f : Frame) : Statement (.loadOpen f) := f.wf_iff
theorem loadData (f : Frame) : Statement (.loadData f) := f.wf_iff
theorem loadClose (f : Frame) : Statement (.loadClose f) := f.wf_iff
theorem loadFree (f : Frame) : Statement (.loadFree f) := f.wf_iff
theorem loadAbort (f : Frame) : Statement (.loadAbort f) := f.wf_iff
theorem calSetBoardTerms (f : Frame) : Statement (.calSetBoardTerms f) := f.wf_iff
theorem calSetCalibrate (f : Frame) : Statement (.calSetCalibrate f) := f.wf_iff
theorem calSetLoadChannelRecords (f : Frame) : Statement (.calSetLoadChannelRecords f) := f.wf_iff
theorem calSetLoadAuroraRecords (f : Frame) : Statement (.calSetLoadAuroraRecords f) := f.wf_iff
theorem calSetSave (f : Frame) : Statement (.calSetSave f) := f.wf_iff
theorem calSetConfigure (f : Frame) : Statement (.calSetConfigure f) := f.wf_iff
theorem timeSetSet (f : Frame) : Statement (.timeSetSet f) := f.wf_iff
theorem timeSetConfigure (f : Frame) : Statement (.timeSetConfigure f) := f.wf_iff
theorem timeSetLaunch (f : Frame) : Statement (.timeSetLaunch f) := f.wf_iff
theorem timedLaunch : Statement .timedLaunch := ⟨fun _ => trivial, fun _ => rfl⟩
theorem syncRequest (f : Frame) : Statement (.syncRequest f) := f.wf_iff
theorem syncResponse (f : Frame) : Statement (.syncResponse f) := f.wf_iff
theorem syncExchangeStart : Statement .syncExchangeStart := ⟨fun _ => trivial, fun _ => rfl⟩
theorem syncExchangeTimeout : Statement .syncExchangeTimeout := ⟨fun _ => trivial, fun _ => rfl⟩
theorem syncQualityExpiry : Statement .syncQualityExpiry := ⟨fun _ => trivial, fun _ => rfl⟩
theorem zenTimeSnapshot : Statement .zenTimeSnapshot := ⟨fun _ => trivial, fun _ => rfl⟩
theorem recover (f : Frame) : Statement (.recover f) := f.wf_iff
theorem powerSleep (f : Frame) : Statement (.powerSleep f) := f.wf_iff
theorem powerHold (f : Frame) : Statement (.powerHold f) := f.wf_iff
theorem powerDramPoint (f : Frame) : Statement (.powerDramPoint f) := f.wf_iff
theorem powerWarmReset (f : Frame) (boot : BootInput) : Statement (.powerWarmReset f boot) := by
  simp only [Statement, Fits, WellFormed, Bool.and_eq_true, Frame.wf_iff, BootInput.wf_iff]
theorem powerConfigure (f : Frame) : Statement (.powerConfigure f) := f.wf_iff
theorem holdExpiry (u : Fin 22) : Statement (.holdExpiry u) := ⟨fun _ => trivial, fun _ => rfl⟩
theorem unitIdleTimeout (u : Fin 22) : Statement (.unitIdleTimeout u) := ⟨fun _ => trivial, fun _ => rfl⟩
theorem unitDozeTimeout (u : Fin 22) : Statement (.unitDozeTimeout u) := ⟨fun _ => trivial, fun _ => rfl⟩
theorem unitWake (u : Fin 22) : Statement (.unitWake u) := ⟨fun _ => trivial, fun _ => rfl⟩
theorem refresh (sub : Fin 8) : Statement (.refresh sub) := ⟨fun _ => trivial, fun _ => rfl⟩
theorem patrolScrubRead (fault : BurstFault) : Statement (.patrolScrubRead fault) := ⟨fun _ => trivial, fun _ => rfl⟩
theorem dramRead (port : DramPort) (burst : Nat) (fault : BurstFault) : Statement (.dramRead port burst fault) := ⟨fun _ => trivial, fun _ => rfl⟩
theorem alertN (sub : Fin 8) (writes persist : Nat) : Statement (.alertN sub writes persist) := ⟨fun _ => trivial, fun _ => rfl⟩
theorem modeRegisterCheck (sub : Fin 8) (bad : Option Byte) : Statement (.modeRegisterCheck sub bad) := ⟨fun _ => trivial, fun _ => rfl⟩
theorem selfRefreshEntry : Statement .selfRefreshEntry := ⟨fun _ => trivial, fun _ => rfl⟩
theorem selfRefreshExit : Statement .selfRefreshExit := ⟨fun _ => trivial, fun _ => rfl⟩
theorem refclkAbsent : Statement .refclkAbsent := ⟨fun _ => trivial, fun _ => rfl⟩
theorem refclkPresent : Statement .refclkPresent := ⟨fun _ => trivial, fun _ => rfl⟩
theorem pllWindowClose (n : Fin 10) (count : Nat) : Statement (.pllWindowClose n count) := ⟨fun _ => trivial, fun _ => rfl⟩
theorem pllFeedbackTimeout (n : Fin 10) : Statement (.pllFeedbackTimeout n) := ⟨fun _ => trivial, fun _ => rfl⟩
theorem pllLockTimeout (n : Fin 10) : Statement (.pllLockTimeout n) := ⟨fun _ => trivial, fun _ => rfl⟩
theorem ddrPllRelockTimeout : Statement .ddrPllRelockTimeout := ⟨fun _ => trivial, fun _ => rfl⟩
theorem diodeReading (value : Option Int) : Statement (.diodeReading value) := ⟨fun _ => trivial, fun _ => rfl⟩
theorem ringOscillatorRead (raw : List Int) : Statement (.ringOscillatorRead raw) := by
  simp [Statement, Fits, WellFormed]
theorem throttleGraceExpiry : Statement .throttleGraceExpiry := ⟨fun _ => trivial, fun _ => rfl⟩
theorem bankCapDecrement : Statement .bankCapDecrement := ⟨fun _ => trivial, fun _ => rfl⟩
theorem dipBegin (r : Rail) : Statement (.dipBegin r) := ⟨fun _ => trivial, fun _ => rfl⟩
theorem dipEnd (r : Rail) (samples : Nat) : Statement (.dipEnd r samples) := ⟨fun _ => trivial, fun _ => rfl⟩
theorem dipFault (r : Rail) : Statement (.dipFault r) := ⟨fun _ => trivial, fun _ => rfl⟩
theorem supplyReset (boot : BootInput) : Statement (.supplyReset boot) := boot.wf_iff
theorem telemetry : Statement .telemetry := ⟨fun _ => trivial, fun _ => rfl⟩
theorem backgroundCalibrationStart : Statement .backgroundCalibrationStart := ⟨fun _ => trivial, fun _ => rfl⟩
theorem calibrationRunComplete (item : CalItem) (values : List Int) : Statement (.calibrationRunComplete item values) := ⟨fun _ => trivial, fun _ => rfl⟩
theorem fence : Statement .fence := ⟨fun _ => trivial, fun _ => rfl⟩
theorem faultNotice : Statement .faultNotice := ⟨fun _ => trivial, fun _ => rfl⟩
theorem nimbusWatchdogExpiry : Statement .nimbusWatchdogExpiry := ⟨fun _ => trivial, fun _ => rfl⟩
theorem nimbusDrainEnd (boot : BootInput) : Statement (.nimbusDrainEnd boot) := boot.wf_iff
theorem recoveryDrainEnd (boot : BootInput) : Statement (.recoveryDrainEnd boot) := boot.wf_iff
theorem recoveryComplete (pllFails : List (Fin 10)) : Statement (.recoveryComplete pllFails) := ⟨fun _ => trivial, fun _ => rfl⟩
theorem powerOnReset (boot : BootInput) : Statement (.powerOnReset boot) := boot.wf_iff
theorem resetN (boot : BootInput) : Statement (.resetN boot) := boot.wf_iff
theorem refclkWaitTimeout : Statement .refclkWaitTimeout := ⟨fun _ => trivial, fun _ => rfl⟩
theorem portHWaitTimeout : Statement .portHWaitTimeout := ⟨fun _ => trivial, fun _ => rfl⟩
theorem globalEvent (f : Frame) : Statement (.globalEvent f) := f.wf_iff
theorem pairDigest (f : Frame) : Statement (.pairDigest f) := f.wf_iff
theorem digestTimeout (d : Fin 16) (window : Nat) : Statement (.digestTimeout d window) := ⟨fun _ => trivial, fun _ => rfl⟩
theorem pairTakeover (f : Frame) : Statement (.pairTakeover f) := f.wf_iff
theorem pairOwnInLow : Statement .pairOwnInLow := ⟨fun _ => trivial, fun _ => rfl⟩
theorem pairOwnConflict : Statement .pairOwnConflict := ⟨fun _ => trivial, fun _ => rfl⟩
theorem ownerClaim : Statement .ownerClaim := ⟨fun _ => trivial, fun _ => rfl⟩
theorem extTrig (n : Fin 8) : Statement (.extTrig n) := ⟨fun _ => trivial, fun _ => rfl⟩
theorem markOut (n : Fin 8) : Statement (.markOut n) := ⟨fun _ => trivial, fun _ => rfl⟩
theorem sysPecWr (o : Fin 32) (word : Word) : Statement (.sysPecWr o word) := ⟨fun _ => trivial, fun _ => rfl⟩
theorem pecFrameComplete (o : Fin 32) (status : Byte) (data : BitVec 16) (crc : Byte) : Statement (.pecFrameComplete o status data crc) := ⟨fun _ => trivial, fun _ => rfl⟩
theorem csDiagRead (value : Word) : Statement (.csDiagRead value) := ⟨fun _ => trivial, fun _ => rfl⟩
theorem csDiagReadDone : Statement .csDiagReadDone := ⟨fun _ => trivial, fun _ => rfl⟩
theorem bypass : Statement .bypass := ⟨fun _ => trivial, fun _ => rfl⟩
theorem idcode : Statement .idcode := ⟨fun _ => trivial, fun _ => rfl⟩
theorem samplePreload (cells : Bytes) : Statement (.samplePreload cells) := ⟨fun _ => trivial, fun _ => rfl⟩
theorem extest : Statement .extest := ⟨fun _ => trivial, fun _ => rfl⟩
theorem extestPulse : Statement .extestPulse := ⟨fun _ => trivial, fun _ => rfl⟩
theorem extestTrain : Statement .extestTrain := ⟨fun _ => trivial, fun _ => rfl⟩
theorem clamp : Statement .clamp := ⟨fun _ => trivial, fun _ => rfl⟩
theorem highz : Statement .highz := ⟨fun _ => trivial, fun _ => rfl⟩
theorem unlock : Statement .unlock := ⟨fun _ => trivial, fun _ => rfl⟩
theorem unlockVerify (challenge : Bytes) (scope : Byte) (signature pubkey : Bytes) : Statement (.unlockVerify challenge scope signature pubkey) := by
  simp [Statement, Fits, WellFormed, and_assoc]
theorem debug : Statement .debug := ⟨fun _ => trivial, fun _ => rfl⟩
theorem debugAccess (reg : BitVec 66) : Statement (.debugAccess reg) := ⟨fun _ => trivial, fun _ => rfl⟩
theorem peLoop (on : Bool) : Statement (.peLoop on) := ⟨fun _ => trivial, fun _ => rfl⟩
theorem jetLoop (ports : BitVec 4) : Statement (.jetLoop ports) := ⟨fun _ => trivial, fun _ => rfl⟩
theorem prbs (on : Bool) (errors : Nat) : Statement (.prbs on errors) := ⟨fun _ => trivial, fun _ => rfl⟩
theorem bistGo : Statement .bistGo := ⟨fun _ => trivial, fun _ => rfl⟩
theorem bistComplete (failed : Bool) : Statement (.bistComplete failed) := ⟨fun _ => trivial, fun _ => rfl⟩
theorem nclkTick : Statement .nclkTick := ⟨fun _ => trivial, fun _ => rfl⟩
theorem gridOffsetMeasurement (elapsed : Nat) : Statement (.gridOffsetMeasurement elapsed) := ⟨fun _ => trivial, fun _ => rfl⟩
theorem cdrLock (lane : Fin 20) : Statement (.cdrLock lane) := ⟨fun _ => trivial, fun _ => rfl⟩
theorem auroraParityError (n : Fin 8) (sample : Nat) (testOk : Bool) : Statement (.auroraParityError n sample testOk) := ⟨fun _ => trivial, fun _ => rfl⟩
theorem nimbusMemoryError : Statement .nimbusMemoryError := ⟨fun _ => trivial, fun _ => rfl⟩
theorem bgIntervalExpiry (item : CalItem) : Statement (.bgIntervalExpiry item) := ⟨fun _ => trivial, fun _ => rfl⟩
theorem twinkleTransition : Statement .twinkleTransition := ⟨fun _ => trivial, fun _ => rfl⟩

end Laws.Operands

end Sys2Proof
end

