-- ==== Sys2Proof/Tests/World.lean ====
section
/-! SUPPORT. A small device for the tests: in service, its ports Up, its queues sized, with the images and the payload of a
job of two pins, CH0 in site 0 and CH1 in site 1. -/

namespace Sys2Proof.Tests

open Sys2Proof.Machine

/-- `n` zero bytes. -/
def zero (n : Nat) : Bytes := List.replicate n 0

/-- The payload of a job (R9): flags, the longest wait, the start second, the claims of banks, channels and outputs,
and the two pins. -/
def job (flags maxWait startS cums squs aurs marks : Nat) : Bytes :=
  le 1 1 ++ (le 1 flags ++ (le 1 1 ++ (le 1 0 ++ (le 2 2 ++ (zero 2 ++ (le 4 1000 ++ (le 4 maxWait ++ (le 8 startS ++ (zero 8 ++
    (le 4 1 ++ (le 4 2 ++ (le 4 3 ++ (le 4 (if cums = 0 then 0 else 4) ++ (le 4 (if aurs = 0 then 0 else 5) ++
    (le 4 (if squs = 0 then 0 else 6) ++ (zero 8 ++ (le 1 cums ++ (le 1 squs ++ (le 1 aurs ++ (le 1 marks ++ (le 2 0 ++
    (zero 58 ++ (le 1 3 ++ (zero 31 ++ (zero 1 ++ (le 1 1 ++ zero 254))))))))))))))))))))))))))

/-- Image 1: a sequence program of four `NOP` words (R40). -/
def seqImg : Bytes := le 2 1 ++ (le 2 4 ++ zero 76)

/-- A word of an opcode with a constant emission of `n` vectors of symbol 3, and the operand bits `low` (R43). -/
def wordOf (op n low : Nat) : Nat := op * 2 ^ 122 + 2 * 2 ^ 120 + 3 * 2 ^ 116 + n * 2 ^ 96 + low

/-- A sequence program of four copies of a word. -/
def progOf (w : Nat) : Bytes := le 2 1 ++ (le 2 4 ++ (zero 12 ++ (le 16 w ++ (le 16 w ++ (le 16 w ++ le 16 w)))))

/-- Image 2: empty streams of CH0 and CH1 (R99). -/
def strImg : Bytes := le 2 1 ++ (le 2 2 ++ (zero 12 ++ (zero 32 ++ (le 2 1 ++ zero 30))))

/-- Image 3: a period of one ECLK, one set of number 0, no edges, no keep-alive (R143). -/
def timImg : Bytes :=
  le 2 1 ++ (le 2 2 ++ (le 4 1 ++ (le 5 8192 ++ (zero 3 ++ (zero 256 ++ (zero 16 ++ (zero 1024 ++ (le 2 0 ++ (le 2 1 ++
    (zero 508 ++ zero 1024))))))))))

/-- A queue of `n` lines with credits in hand. -/
def queue (n : Nat) : Queue := { Queue.init with lines := n, grant := 4000 }

/-- A port that is Up at full width. -/
def upPort : PortSt := { PortSt.init with state := .up, width := 4, rxWidth := 4, partnerLive := 255 }

/-- The device in service (R427). -/
def base : State :=
  { State.reset with
    now := 1000000000000
    boot := { Boot.init with state := 1, step := 12 }
    ports := [(0, upPort), (1, upPort), (2, upPort), (3, upPort)]
    lanes := [0, 8, 12, 16].map (fun l => (l, { Lane.init with live := true, cdr := true }))
    queues := (List.range 51).map (fun q => (q, queue 4096))
    images := [(1, { kind := 1, data := seqImg }), (2, { kind := 2, data := strImg }), (3, { kind := 3, data := timImg })]
    refPresent := true
    units := (List.range 22).map (fun u => (u, { PowUnit.init with state := .active }))
    plls := (List.range 10).map (fun n => (n, { Pll.init with state := .locked }))
    dram := { Dram.init with state := .service, density := 16 } }

/-- A frame at port H (R274). -/
def frame (ty q : Nat) (payload : Bytes) : Frame :=
  let f : Frame := { port := .host, ty := ty, queue := q, flags := 0, length := payload.length, seq := 5, tag := 7,
                     payload := payload, trailer := 0, link := .eof }
  { f with trailer := frameCrc f }

/-- The job in slot 0, running. -/
def slot (flags : Nat) : Dom :=
  { Dom.init with
    phase := .running, tag := 7, payload := job flags 0 0 0 0 0 0, sites := 2, engines := true, lead := 5, eclk := 10, next := 10, ret := 2 }

/-- A job that waits in the window. -/
def waiting (maxWait : Nat) : Waiting :=
  { tag := 7, payload := job 0 maxWait 0 0 0 0 0, entered := 0, reason := 1, throttled := false }

/-- The job in slot 0, admitted; timed for flags 2. -/
def admitted (flags : Nat) : State := { base with doms := [(0, { Dom.init with phase := .admitted, tag := 7, payload := job flags 0 0 0 0 0 0, sites := 2 })] }

/-- A state whose sequence image holds copies of one word. -/
def programmed (w : Nat) (s : State) : State := { s with images := tset .init s.images 1 { kind := 1, data := progOf w } }

/-- The job in slot 0 as it ends. -/
def ending (e : Ending) (sent : Bool) : State :=
  { base with
    doms := [(0, { slot 0 with phase := .ending, ended := some e, flight := [], sent := sent })]
    sites := [(0, { Site.init with parked := true }), (1, { Site.init with parked := true })] }

/-- The device with a job in slot 0: site-locked for 0, site-free for 1. -/
def running_ (flags : Nat) : State := { base with doms := [(0, slot flags)] }

end Sys2Proof.Tests
end

