-- ==== Sys2Proof/Tests/WitnessFaults.lean ====
section
/-! SUPPORT. States and operands that meet the hypotheses of the statements about faults, starts, the ring, the pair, pins and
test, clause by clause. -/

namespace Sys2Proof.Tests

set_option Elab.async false
set_option maxRecDepth 100000

open Sys2Proof.Machine

/-- The device with Anvil as given, driving PAIR_OWN_OUT. -/
def anvil (a : Anvil) : State := { running_ 0 with anvil := a, owner := true }

/-- Anvil Faulted, its window open or closed. -/
def faulted (window : Bool) : Anvil := { Anvil.init with state := .faulted, valid := true, window := window, minLevel := 1 }

theorem leVal_le : ∀ (n v : Nat), v < 256 ^ n → leVal (le n v) = v
  | 0, v, h => by simp at h; subst h; rfl
  | n + 1, v, h => by
    have : v / 256 < 256 ^ n := by rw [Nat.div_lt_iff_lt_mul (by decide)]; rw [Nat.pow_succ] at h; exact h
    simp only [le, leVal, leVal_le n _ this, BitVec.toNat_ofNat]; omega

theorem length_le (n v : Nat) : (le n v).length = n := by
  induction n generalizing v with
  | zero => rfl
  | succ n ih => simp [le, ih]

/-- The field that stands between two byte strings. -/
theorem fld_between (a : Bytes) (n v : Nat) (b : Bytes) (h : v < 256 ^ n) : fld (a ++ (le n v ++ b)) a.length n = v := by
  simp only [fld, List.drop_left]
  rw [List.take_left' (length_le n v), leVal_le n v h]

/-- A directory entry (R416). -/
def entry (ty off len : Nat) (digest : BitVec 384) : Bytes := le 4 ty ++ (le 4 off ++ (le 4 len ++ (zero 4 ++ le 48 digest.toNat)))

/-- The image of the tests: a control store of zeros, a descriptor of zeros and a section of type 1, all behind the header (R415, R416). -/
def imgHead : Bytes := le 4 0x4B425944 ++ (le 1 1 ++ (le 1 3 ++ (zero 2 ++ (le 4 0xB1 ++ (le 4 9 ++ (le 4 0x5544 ++ zero 12))))))
def imgKey : Bytes := le 96 Config.deviceKey.toNat
def imgDir : Bytes :=
  entry 1 0x300 64 (Config.sha384 (zero 64)) ++ (entry 4 0x340 512 (Config.sha384 (zero 512)) ++
    (entry 2 0x540 20484 (Config.sha384 (zero 20484)) ++ zero 320))
def imgSigned : Bytes := imgHead ++ (imgKey ++ imgDir)
def imgSig : Bytes := le 96 (Config.ecdsaSign (Config.sha384 imgSigned)).toNat
def copy : Bytes := imgSigned ++ (imgSig ++ zero 21092)

theorem copy_header : headerOk (imageHeader copy) = true := by decide +kernel
theorem copy_places : fld (imageHeader copy) 5 1 = 3 ∧ dirOffset (imageHeader copy) 0 = 0x300 ∧ dirLength (imageHeader copy) 0 = 64 ∧
   dirOffset (imageHeader copy) 1 = 0x340 ∧ dirLength (imageHeader copy) 1 = 512 ∧ dirOffset (imageHeader copy) 2 = 0x540 ∧ dirLength (imageHeader copy) 2 = 20484 := by decide +kernel
theorem imgHead_length : imgHead.length = 32 := by decide +kernel
theorem imgDir_length : imgDir.length = 512 := by decide +kernel
theorem imgSigned_length : imgSigned.length = 640 := by simp [imgSigned, imgHead_length, imgDir_length, imgKey, length_le]
theorem imgSig_length : imgSig.length = 96 := length_le _ _

/-- A section of the copy. -/
theorem copy_section (off len : Nat) (h : 736 ≤ off) (h2 : off + len ≤ 736 + 21092) : (copy.drop off).take len = zero len := by
  have e : copy = (imgSigned ++ imgSig) ++ zero 21092 := by simp [copy]
  have l : (imgSigned ++ imgSig).length = 736 := by simp [imgSigned_length, imgSig_length]
  rw [e, List.drop_append, l]
  simp only [zero, List.drop_replicate, List.drop_eq_nil_of_le (Nat.le_trans (Nat.le_of_eq l) h), List.nil_append, List.take_replicate]
  congr 1; omega

theorem copy_digest (i : Nat) (a b : Bytes) (v : BitVec 384) (h : copy = a ++ (le 48 v.toNat ++ b)) (ha : a.length = 0x90 + 64 * i)
    (hs : v = Config.sha384 (sectionBytes copy i)) : digestOk copy i = true := by
  have : fld copy (0x90 + 64 * i) 48 = v.toNat := by
    rw [← ha, h]; exact fld_between a 48 _ b (by have := v.isLt; rwa [Nat.pow_mul 2 8 48] at this)
  simp [digestOk, this, hs]

theorem copy_digests (i : Nat) (h : i < 3) : digestOk copy i = true := by
  obtain ⟨-, a, b, c, d, e, f⟩ := copy_places
  have p (ty off len : Nat) (v : BitVec 384) : (entry ty off len v).length = 64 := by simp [entry, length_le, zero]
  match i, h with
  | 0, _ =>
    refine copy_digest 0 (imgHead ++ (imgKey ++ (le 4 1 ++ (le 4 0x300 ++ (le 4 64 ++ zero 4))))) (entry 4 0x340 512 (Config.sha384 (zero 512)) ++ (entry 2 0x540 20484 (Config.sha384 (zero 20484)) ++ (zero 320 ++ (imgSig ++ zero 21092)))) (Config.sha384 (zero 64)) ?_ ?_ ?_
    · simp [copy, imgSigned, imgDir, entry]
    · simp [imgHead_length, imgKey, length_le, zero]
    · simp only [sectionBytes, a, b]; rw [copy_section _ _ (by decide) (by decide)]
  | 1, _ =>
    refine copy_digest 1 (imgHead ++ (imgKey ++ (entry 1 0x300 64 (Config.sha384 (zero 64)) ++ (le 4 4 ++ (le 4 0x340 ++ (le 4 512 ++ zero 4)))))) (entry 2 0x540 20484 (Config.sha384 (zero 20484)) ++ (zero 320 ++ (imgSig ++ zero 21092)))
      (Config.sha384 (zero 512)) ?_ ?_ ?_
    · simp [copy, imgSigned, imgDir, entry]
    · simp [imgHead_length, imgKey, length_le, p, show ∀ n, (zero n).length = n from fun n => List.length_replicate ..]
    · simp only [sectionBytes, c, d]; rw [copy_section _ _ (by decide) (by decide)]
  | 2, _ =>
    refine copy_digest 2 (imgHead ++ (imgKey ++ (entry 1 0x300 64 (Config.sha384 (zero 64)) ++ (entry 4 0x340 512 (Config.sha384 (zero 512)) ++
      (le 4 2 ++ (le 4 0x540 ++ (le 4 20484 ++ zero 4))))))) (zero 320 ++ (imgSig ++ zero 21092)) (Config.sha384 (zero 20484)) ?_ ?_ ?_
    · simp [copy, imgSigned, imgDir, entry]
    · simp [imgHead_length, imgKey, length_le, p, show ∀ n, (zero n).length = n from fun n => List.length_replicate ..]
    · simp only [sectionBytes, e, f]; rw [copy_section _ _ (by decide) (by decide)]

theorem copy_ok : copyOk copy = true := by
  have hk : (((imageHeader copy).drop 0x20).take 96) = imgKey := by
    have : imageHeader copy = imgHead ++ (imgKey ++ (imgDir ++ imgSig)) := by
      have l : (imgHead ++ (imgKey ++ (imgDir ++ imgSig))).length = 736 := by simp [imgHead_length, imgDir_length, imgKey, imgSig, length_le]
      simp only [imageHeader, copy, imgSigned, ← List.append_assoc] at *
      rw [← l, List.take_left]
    rw [this, ← imgHead_length, List.drop_left, List.take_left' (show imgKey.length = 96 from length_le _ _)]
  have hs : (imageHeader copy).take 0x280 = imgSigned := by
    simp only [imageHeader, copy]; rw [List.take_take, show min 640 736 = 640 from rfl, ← imgSigned_length, List.take_left]
  have hg : ((imageHeader copy).drop 0x280).take 96 = imgSig := by
    simp only [imageHeader, copy]; rw [List.drop_take, ← imgSigned_length, List.drop_left, imgSigned_length, show (736 - 640 : Nat) = 96 from rfl, List.take_take, Nat.min_self,
      List.take_left' imgSig_length]
  simp only [copyOk, copy_header, hk, hs, hg, copy_places.1, Bool.true_and, Bool.and_eq_true, decide_eq_true_eq, List.all_eq_true, List.mem_range]
  refine ⟨⟨rfl, ?_⟩, copy_digests⟩
  simp [ecdsaP384, imgKey, imgSig]
/-- A start in which everything passes at once. -/
def goodBoot : BootInput :=
  { straps := 0, ownIn := false, fusesOk := true, lab := false, probe8d := true, probe1s := true, copyA := copy, copyB := copy,
    pllFails := [], binsFailedA := 0, binsFailedB := 0, density := 16, badStores := [], portHUp := some (0xFF, 0xFF), runs := [],
    deskewRuns := [([0, 0], [0, 0])], linRuns := [], auroraRuns := [([0, 0], [0, 0])], diodeRuns := [([0], [0])], diode := some 200,
    ro := List.replicate 8 200,
    durations := List.replicate 12 1 }

/-- A GLOBAL_EVENT at port E (R432). -/
def event (ev hops origin id : Nat) : Frame :=
  { frame 0x81 8 (le 1 ev ++ (le 1 hops ++ (le 1 origin ++ (zero 1 ++ (le 2 id ++ zero 18))))) with port := .east }

/-- A pair member with the job in slot 0 and its own digest of window 0 open. -/
def paired (owner : Bool) (own : List Digest) : State :=
  { running_ 0 with
    boot := { base.boot with desc := zero 0x104 ++ (le 1 1 ++ (zero 3 ++ (le 2 100 ++ zero 246))) }, owner := owner
    doms := [(0, { slot 2 with pair := { PairJob.init with own := own } })] }

/-- A digest of window 0 (R441). -/
def digest (fail : Word) : Digest := { at_ := 0, kind := 1, window := 0, vectors := 5, drive := 1, fail := fail }

/-- A PAIR_DIGEST frame of window 0 of the job in slot 0, and a PAIR_TAKEOVER. -/
def digestFrame0 : Frame :=
  { frame 0x82 10 (le 1 1 ++ (le 1 0 ++ (zero 2 ++ (le 4 7 ++ (le 4 0 ++ (zero 4 ++ (le 6 5 ++ (zero 2 ++ (le 4 1 ++ le 4 2))))))))) with port := .pair }
def takeoverFrame : Frame := { frame 0x83 10 (zero 16) with port := .pair }

/-- A shadow without a job. -/
def idleShadow : State := { paired false [] with doms := [] }

/-- An owner whose own digest of window 0 has the fail checksum given. -/
def sentDigest (fail : Word) : State := paired true [digest fail]

theorem witness_FaultsLatchMergeOverflow :
    let rec_ := anvil { Anvil.init with state := .recovering, level := 1 }
    (base.owner = false) ∧ (∀ a ∈ [Anvil.init, faulted true, faulted false], (anvil a).owner = true) ∧
    ((anvil .init).anvil.state = .running ∧ (getDom (anvil .init) 0).phase ≠ .free) ∧
    ((anvil (faulted true)).anvil.state ≠ .running ∧ (anvil (faulted true)).anvil.window = true ∧ (anvil (faulted true)).anvil.source ≤ 0x1103 ∧
      (anvil { faulted true with source := 0x1200, latchAt := 1 }).anvil.latchAt ≠ base.now) ∧
    ((anvil (faulted false)).anvil.state = .faulted ∧ (anvil (faulted false)).anvil.window = false ∧
      (faulted false).overCodes.length < 8) ∧
    (rec_.owner = true ∧ rec_.anvil.state = .recovering ∧ rec_.boot.state = 1 ∧ Takes rec_ 16 256 ∧ rec_.anvil.overCodes.length ≤ 8) := by
  dsimp only; refine ⟨?_, ?_, ?_, ?_, ?_, ?_⟩ <;> decide +kernel

theorem witness_FaultsAreNoticedAndRecovered :
    let f (level : Nat) : Frame := frame 0x09 2 (le 8 level)
    let formed (f : Frame) : Prop := f.payload.length = 8 ∧ 1 ≤ fld f.payload 0 1 ∧ fld f.payload 0 1 ≤ 3 ∧ zeros f.payload 1 7 = true
    let r := anvil { Anvil.init with state := .recovering, level := 1 }
    let two := anvil { faulted false with minLevel := 2 }
    let pend := anvil { faulted false with pendingRec := some 3 }
    let hot := { anvil (faulted false) with power := { base.power with diodeOk := true, diode := 2000 } }
    let lost := { r with plls := (List.range 10).map (fun n => (n, { Pll.init with state := .bypass })) }
    ((anvil (faulted true)).boot.input = none ∧ (anvil (faulted true)).anvil.window = true ∧ (anvil (faulted true)).anvil.stopped = false ∧
      (anvil (faulted true)).anvil.state ≠ .running ∧ (anvil (faulted true)).inbox = [] ∧ (anvil (faulted true)).held3 = [] ∧
      (getAurora (anvil (faulted true)) 0).test ≠ some false ∧ (getQueue (anvil (faulted true)) 16).lines ≠ 0 ∧ (getQueue (anvil (faulted true)) 16).dram = false ∧
      fits (getQueue (anvil (faulted true)) 16) 196 = true) ∧
    (base.boot.input = none ∧ base.anvil.window = false) ∧
    (∀ l ∈ [1, 3], let s := anvil (faulted false)
      Arrives s (f l) 0x09 ∧ (f l).port = .host ∧ s.boot.state = 1 ∧ formed (f l) ∧ s.anvil.window = false ∧ s.anvil.state = .faulted ∧
        s.anvil.pendingRec = none ∧ s.anvil.minLevel ≤ l ∧ diodeHot s = false) ∧
    (Arrives hot (f 1) 0x09 ∧ hot.anvil.minLevel ≤ 1 ∧ hot.anvil.state = .faulted ∧ diodeHot hot = true) ∧
    (∀ s ∈ [anvil .init, two, pend], Arrives s (f 1) 0x09 ∧ Arrives s (f 4) 0x09 ∧ s.boot.state = 1 ∧ formed (f 1) ∧
      ¬ formed (f 4) ∧ Takes s 16 256 ∧ s.anvil.overCodes.length ≤ 8) ∧
    ((anvil .init).anvil.state = .running ∧ two.anvil.state = .faulted ∧ two.anvil.pendingRec = none ∧ fld (f 1).payload 0 1 < two.anvil.minLevel ∧
      pend.anvil.pendingRec = some 3 ∧ pend.anvil.state = .faulted) ∧
    (r.anvil.state = .recovering ∧ r.anvil.level = 1 ∧ pllsSettled (failPlls r []) = true ∧ r.held0 = [] ∧ r.held1 = [] ∧ r.window = []) ∧
    (lost.anvil.state = .recovering ∧ lost.anvil.level = 1 ∧ pllsSettled (failPlls lost []) = false ∧ (getPll lost 0).since + us 100 ≤ lost.now ∧ pllNeeded lost 0 = true ∧ (getPll lost 0).state = .bypass ∧ lost.boot.state = 1 ∧
      lost.anvil.window = false) ∧
    (base.anvil.state ≠ .recovering) := by
  dsimp only; refine ⟨?_, ?_, ?_, ?_, ?_, ?_, ?_, ?_, ?_⟩ <;> decide +kernel

theorem witness_NimbusFaultsAndTwinkle :
    let w := anvil { Anvil.init with watchdog := true, twinkleOn := true }
    (w.anvil.watchdog = true ∧ w.anvil.stopped = false ∧ w.anvil.state = .running ∧ w.boot.state = 1 ∧ w.anvil.twinkleOn = true ∧
      w.anvil.twinkleAt ≤ w.now) ∧
    ((let n := anvil { faulted true with watchdog := true, nimbus := true, stopped := true }
      n.anvil.watchdog = true ∧ n.anvil.stopped = true ∧ n.anvil.state ≠ .running) ∧ base.anvil.watchdog = false ∧ State.reset.boot.state ≠ 1 ∧
      base.anvil.twinkleOn = false) := by
  dsimp only; refine ⟨?_, ?_⟩ <;> decide +kernel

theorem copy_short : copyOk (zero 800) = false := by
  have : headerOk (imageHeader (zero 800)) = false := by decide +kernel
  simp [copyOk, this]

theorem witness_StartsReachReady :
    let b := goodBoot
    let n := anvil { faulted true with nimbus := true, stopped := true }
    let w (step : Nat) : State := { base with boot := { base.boot with state := 0, step := step, input := some b } }
    let fault := { w 6 with anvil := { faulted true with faultSeq := 1 } }
    (b.fusesOk = true ∧ b.probe8d = true ∧ b.pllFails = [] ∧ b.binsFailedA = 0 ∧ b.portHUp = some (0xFF, 0xFF) ∧ (0xFF : BitVec 8) ≠ 0 ∧ b.copyA = copy ∧ b.diode = some 200) ∧
    (base.refPresent = true ∧ State.reset.refPresent = false ∧
      started { base with boot := { base.boot with record := { StepRec.init with seq := 1 } } } = true ∧ started State.reset = false) ∧
    (n.refPresent = true ∧ n.anvil.stopped = true ∧ n.boot.state = 1 ∧ base.anvil.stopped = false) ∧
    (∀ l ∈ [2, 3], let r := anvil { Anvil.init with state := .recovering, level := l }
      r.refPresent = true ∧ r.anvil.state = .recovering ∧ r.anvil.level = l ∧ base.anvil.state ≠ .recovering) ∧
    (∀ k ∈ [6, 10], (w k).boot.input.isSome = true ∧ (w k).boot.step = k ∧ (w k).boot.state = 0 ∧ faultInStart (w k) = false ∧ (w k).power.invalid = 0 ∧ (w k).inbox = []) ∧
    (fault.boot.input.isSome = true ∧ faultInStart fault = true ∧ fault.inbox = [] ∧ base.boot.input = none) := by
  dsimp only; refine ⟨⟨rfl, rfl, rfl, rfl, rfl, by decide, rfl, rfl⟩, ?_, ?_, ?_, ?_, ?_⟩ <;> decide +kernel

/-- Every image hypothesis of a start is met: `copy` is an image, and 800 bytes of zeros are none. -/
theorem witness_images : copyOk goodBoot.copyA = true ∧ ¬ (copyOk (zero 800) = true ∨ copyOk (zero 800) = true) := by
  refine ⟨copy_ok, ?_⟩; simp [copy_short]

theorem witness_RingEventsPass :
    let s := running_ 0
    let acc (f : Frame) : Bool := acceptsEvent (deviceId s) (fld f.payload 2 1) (tget 0 s.originIds (fld f.payload 2 1)) (fld f.payload 4 2)
    (∀ h ∈ [1, 2, 31], Arrives s (event 7 h 5 0) 0x81) ∧ (acc (event 7 1 5 0) = true ∧ acc (event 7 1 0 0) = false) ∧
    (latching (getDom s 0) = true ∧ 1 < (getDom s 0).sites) ∧
    (portHasLive s (opposite .east).1 = true ∧ Takes s (opposite .east).2 24 ∧ (event 7 2 5 0).payload.length = 24 ∧ 1 < fld (event 7 2 5 0).payload 1 1 ∧
      fld (event 7 1 5 0).payload 1 1 ≤ 1) := by
  dsimp only; refine ⟨?_, ?_, ?_, ?_⟩ <;> decide +kernel

/-- The PAIR_DIGEST of an end in kind 3 or 4, and one of a job in no slot. -/
def digestFrame (kind tag : Nat) : Frame :=
  let f : Frame := { digestFrame0 with payload := le 1 kind ++ (zero 3 ++ (le 4 tag ++ zero 24)) }
  { f with trailer := frameCrc f }

theorem witness_PairComparesAndTakesOver :
    let t := sentDigest 2
    let g := readDigest t digestFrame0.payload
    (Arrives t digestFrame0 0x82 ∧ slotOf t (BitVec.ofNat 32 (fld digestFrame0.payload 4 4)) = some 0 ∧
      compared t (getDom t 0) = true ∧ (getDom t 0).pair.own = [digest 2] ∧ (getDom t 0).pair.partner = [] ∧ g.kind = 1 ∧
      (digest 2).window = g.window ∧ agree (digest 2) g = true ∧ t.anvil.state = .running ∧ (getDom t 0).endClock ≠ clock (getDom t 0) - 1 + 1) ∧
    (agree (digest 3) g = false ∧ (getDom (sentDigest 3) 0).pair.own = [digest 3] ∧ compared (sentDigest 3) (getDom (sentDigest 3) 0) = true) ∧
    ((getDom (paired true []) 0).pair.own = [] ∧ compared (paired true []) (getDom (paired true []) 0) = true ∧ Arrives (paired true []) digestFrame0 0x82) ∧
    (∀ s ∈ [t, paired false []], ∀ k ∈ [3, 4], Arrives s (digestFrame k 7) 0x82 ∧ (readDigest s (digestFrame k 7).payload).kind = k ∧
      slotOf s (BitVec.ofNat 32 (fld (digestFrame k 7).payload 4 4)) = some 0 ∧ compared s (getDom s 0) = true ∧ s.anvil.state = .running ∧
      (getDom s 0).endClock ≠ clock (getDom s 0) - 1 + 1) ∧
    (shadow t = false ∧ shadow (paired false []) = true) ∧
    (Arrives t (digestFrame 1 9) 0x82 ∧ slotOf t (BitVec.ofNat 32 (fld (digestFrame 1 9).payload 4 4)) = none) := by
  dsimp only; refine ⟨?_, ?_, ?_, ?_, ?_, ?_⟩ <;> decide +kernel

theorem witness_takeover :
    let due (s : State) (w : Nat) : Bool := (getDom s 0).pair.own.any (fun g => g.window = w && decide (g.at_ + us (digestTimeoutUs s) ≤ s.now))
    (due (sentDigest 2) 0 = true ∧ due (sentDigest 2) 1 = false ∧ (getDom (sentDigest 2) 0).phase ≠ .free) ∧
    (Arrives base takeoverFrame 0x83 ∧ shadow idleShadow = true ∧ ready idleShadow = true ∧ allFree idleShadow = true ∧
      shadow base = false ∧ pairEnable idleShadow = true ∧ idleShadow.straps.getLsbD 1 = false ∧ pairEnable base = false) ∧
    (shadow (paired false []) = true ∧ ready (paired false []) = true ∧ (getDom (paired false []) 0).phase ≠ .free ∧
      (getDom (paired false []) 0).ended = none) := by
  dsimp only; refine ⟨?_, ?_, ?_⟩ <;> decide +kernel

theorem witness_PinsAndPortsAct :
    let m (rise : Option Nat) : State := setMark base 0 { pending := [100], rise := rise }
    let p (x : Pec) : State := setPec base 0 x
    let w : Word := 0x30000000
    let b : Pec := { Pec.init with busy := some w }
    let crc := crc8 [0, 0]
    (latching (getDom (running_ 0) 0) = true ∧ 1 < (getDom (running_ 0) 0).sites) ∧
    ((∀ r ∈ [none, some 0, some 99], (getMark (m r) 0).pending = [100]) ∧ (getMark base 0).pending = [] ∧ max 100 (0 + markGap) ≠ 100) ∧
    (pecOk w.toNat = true ∧ pecFull (p b) 0 = false ∧ shadow (p b) = false ∧ (getPec (p b) 0).busy.isSome = true ∧ pecFull base 0 = false ∧
      (getPec base 0).busy = none ∧ (getPec base 0).queue = [] ∧ pecOk 0x4FFFFFFF = false) ∧
    (shadow (setPec (paired false []) 0 b) = true ∧ pecFull (setPec (paired false []) 0 b) 0 = false) ∧
    ((getPec (p b) 0).busy = some w ∧ (getPec (p b) 0).repeated = false ∧ (p b).held3 = [] ∧ bits w.toNat 31 28 = 3 ∧
      pecAccepted w 0xA5 0 (crc + 1) = false ∧ (getPec (p { b with repeated := true }) 0).repeated = true) := by
  dsimp only; refine ⟨?_, ?_, ?_, ?_, ?_⟩ <;> decide +kernel

/-- The answer to the challenge of `s` under the device key. -/
theorem unlock_answers (s : State) (scope : Byte) (hs : scope = 1 ∨ scope = 2) :
    unlockOk s (le 32 s.jtag.challenge) scope
      (le 96 (Config.ecdsaSign (Config.sha384 (le 32 s.jtag.challenge ++ [scope]))).toNat) (le 96 Config.deviceKey.toNat) = true := by
  rcases hs with rfl | rfl <;> simp [unlockOk, keyHash, ecdsaP384]

theorem witness_JtagSelectsAndUnlocks :
    let j : Jtag := { Jtag.init with ir := 0x20, failures := 2 }
    let s := { base with jtag := j }
    (j.ir = 0x20 ∧ j.failures < 3 ∧ 3 ≤ ({ j with failures := 3 } : Jtag).failures ∧ Jtag.init.ir ≠ 0x20) ∧
    unlockOk s (le 32 s.jtag.challenge) 1 (le 96 (Config.ecdsaSign (Config.sha384 (le 32 s.jtag.challenge ++ [1]))).toNat)
      (le 96 Config.deviceKey.toNat) = true ∧
    unlockOk s [] 0 [] [] = false := by
  refine ⟨by decide +kernel, unlock_answers _ 1 (.inl rfl), ?_⟩
  simp [unlockOk]

theorem witness_DebugAndTestModesAct :
    let s (scope : Nat) (d : Tbl Dom) : State := { base with jtag := { Jtag.init with ir := 0x21, scope := scope }, doms := d }
    let rd (a : Nat) : BitVec 66 := BitVec.ofNat 66 (2 ^ 65 + a * 2 ^ 32)
    let wr (a v : Nat) : BitVec 66 := BitVec.ofNat 66 (2 ^ 65 + 2 ^ 64 + a * 2 ^ 32 + v)
    let full := { setPec (s 2 []) 7 { Pec.init with busy := some 0, queue := List.replicate 64 7 } with boot := base.boot }
    let gives (o : WriteResult) (k : Nat) : Bool := match o with | .done _ => k = 0 | .wait => k = 1 | .fail _ => k = 2
    ((s 1 []).jtag.ir = 0x21 ∧ bit (rd 3).toNat 65 = true ∧ bit (rd 3).toNat 64 = false ∧ debugOpen (s 1 []) = true ∧
      (readReg (s 1 []) (bits (rd Reg.cancelMiss).toNat 63 32)).isSome = true ∧ readReg (s 1 []) (bits (rd 3).toNat 63 32) = none) ∧
    (debugOpen (s 0 []) = false ∧ debugWrites (s 1 []) = false) ∧
    (bit (wr 3 7).toNat 65 = true ∧ bit (wr 3 7).toNat 64 = true ∧ debugWrites (s 2 []) = true ∧ index (bits (wr 3 7).toNat 63 32) (Reg.dftCfg 0) 0x10 64 = none ∧
      bits (wr Reg.drmScrub 7).toNat 63 32 = Reg.drmScrub ∧ gives (writeReg (s 2 []) true Reg.drmScrub 7 0xFFFFFFFF) 0 = true ∧
      gives (writeReg full true (Reg.pecWr 7) 0x30000000 0xFFFFFFFF) 1 = true ∧ gives (writeReg (s 2 []) true 3 7 0xFFFFFFFF) 2 = true) ∧
    (allFree (s 2 []) = true ∧ allFree (s 2 [(0, slot 0)]) = false ∧ debugWrites (s 2 [(0, slot 0)]) = true ∧ bit (stored base Reg.test) 5 = false ∧
      base.jtag.ir ≠ 0x21) ∧
    (let t := { base with bist := true }
     t.bist = true ∧ t.window = [] ∧ t.held0 = [] ∧ base.bist = false) := by
  dsimp only; refine ⟨?_, ?_, ?_, ?_, ?_⟩ <;> decide +kernel

end Sys2Proof.Tests
end

