-- ==== Sys2Proof/Tests/Slice0.lean ====
section
/-! SUPPORT. Tests of the model: an ill-formed command for each check of `WellFormed`, the worked examples of the manual's
chapters, and one step on a small device. -/

namespace Sys2Proof.Tests

set_option Elab.async false

open Sys2Proof.Machine

/-! ### Ill-formed commands are refused -/

/-- An emission of `n` vectors. -/
def count (n : BitVec 16) : Emit := { src := .const, sym := 0, ecount := n }

theorem too_long : (zero 65537).length = 65537 := List.length_replicate ..

theorem test_frame_type_is_a_byte : WellFormed (.jobSubmit (frame 256 0 [])) = false := by decide
theorem test_frame_queue_is_a_byte : WellFormed (.regRead (frame 6 256 [])) = false := by decide
theorem test_frame_length_is_a_word : WellFormed (.syncRequest { frame 0x80 8 [] with length := 2 ^ 32 }) = false := by decide
theorem test_frame_payload_is_bounded : WellFormed (.loadData (frame 3 1 (zero 65537))) = false := by
  simp [WellFormed, Frame.wf, frame, too_long]
theorem test_vec_takes_a_vector : WellFormed (.vec 0 0 (count 0)) = false ∧ WellFormed (.vec 0 0 (count 0xFFFF)) = true := by decide
theorem test_rpt_block_is_short : WellFormed (.rpt 0 0 (count 17) 1) = false := by decide
theorem test_rpt_repeats : WellFormed (.rpt 0 0 (count 1) 0) = false ∧ WellFormed (.rpt 0 0 (count 1) (2 ^ 32)) = true := by decide
theorem test_loop_counts : WellFormed (.loop 0 0 (count 0) (2 ^ 32 + 1)) = false := by decide
theorem test_call_target : WellFormed (.call 0 0 (count 0) 65536) = false := by decide
theorem test_jmp_levels : WellFormed (.jmp 0 0 (count 0) 0 9) = false ∧ WellFormed (.jmp 0 0 (count 0) 0 8) = true := by decide
theorem test_jsc_site_condition_block : WellFormed (.jsc 0 0 (count 17) 0 0 0x5F false .own) = false ∧
    WellFormed (.jsc 0 0 (count 17) 0 0 0x60 false .own) = true := by decide
theorem test_jev_target : WellFormed (.jev 0 0 (count 0) 65536 0 0 false) = false := by decide
theorem test_match_block : WellFormed (.wordMatch 0 0 (count 65) 0 0 0 1) = false := by decide
theorem test_wait_block : WellFormed (.wait 0 0 (count 17) 0 0 0 1) = false := by decide
theorem test_barr_block : WellFormed (.barr 0 0 (count 0)) = false := by decide
theorem test_apg_entry : WellFormed (.apg 0 0 (count 0) 1 65536 1) = false ∧ WellFormed (.apg 0 0 (count 1) 1 0 1) = false := by decide
theorem test_event_word_lost : WellFormed (.eventWordArrival 0
    { stamp := 0, channel := 0, input := false, falling := false, merged := false, stale := false, lost := 65536 }) = false := by decide
theorem test_aurora_source : WellFormed (.auroraStart 0 (.event 24) 0) = false ∧
    WellFormed (.jumpRequestArrival 0 (.event 24) 0) = false := by decide
theorem test_packet_type : WellFormed (.packetCommit 0 .whole 256 0 0 [] false) = false := by decide
theorem test_line_damage : WellFormed (.linePop 0 (some 4)) = false ∧ WellFormed (.linePop 0 (some 0)) = false := by decide
theorem test_ring_oscillators_are_eight : WellFormed (.ringOscillatorRead [1, 2, 3]) = false := by decide
theorem test_unlock_lengths : WellFormed (.unlockVerify (zero 32) 1 (zero 95) (zero 96)) = false := by decide
theorem test_packet_is_bounded : WellFormed (.packetCommit 0 .whole 1 0 0 (zero 65537) false) = false := by
  simp [WellFormed, too_long]
theorem test_boot_header : WellFormed (.powerOnReset { goodBoot with copyA := zero 735, copyB := zero 736 }) = false ∧
    WellFormed (.powerOnReset { goodBoot with copyA := zero 736, copyB := zero 736 }) = true := by decide +kernel
theorem test_boot_second_copy : WellFormed (.resetN { goodBoot with copyA := zero 736, copyB := zero 735 }) = false := by decide +kernel
theorem test_boot_density : WellFormed (.nimbusDrainEnd { goodBoot with copyA := zero 736, copyB := zero 736, density := 20 }) = false := by
  decide +kernel
theorem test_boot_of_a_recovery : WellFormed (.recoveryDrainEnd { goodBoot with copyA := [], copyB := [] }) = false := by decide +kernel
theorem test_warm_reset_frame : WellFormed (.powerWarmReset (frame 256 2 []) goodBoot) = false := by decide +kernel

/-! ### The manual's worked examples -/

/-- Codeword 0 of the example of chapter 14, in the order of the burst: data byte 7 is 0x01, the check symbols are 0x03 (beat 0)
and 0x02 (beat 1). Components 0 to 3 return bytes 0 to 3 of beat 0 and 5 to 8 of beat 1. -/
def codeword : Bytes := [0, 0, 0, 0, 3, 0, 0, 0, 1, 2] ++ zero 70

theorem test_codeword_clean : decodeTwo codeword = some (codeword, 0) := by decide +kernel

/-- Component 2 errs in beat 1 by 0x10. -/
def oneWrong : Bytes := [0, 0, 0, 0, 3, 0, 0, 0x10, 1, 2] ++ zero 70

theorem test_codeword_syndromes : syndrome0 oneWrong 0 = 0x10 ∧ syndrome1 oneWrong 0 = 0x80 := by decide +kernel
theorem test_codeword_one_symbol : shapeOf 0x10 0x80 = .single 6 0x10 ∧ symbolComp 6 = 2 ∧ correct oneWrong [(0, 6, 0x10)] = codeword := by
  decide +kernel
theorem test_codeword_two_symbols : decodeTwo ([0, 0, 1, 0, 3, 0, 0, 1, 1, 2] ++ zero 70) = none := by decide +kernel
theorem test_codeword_marked : compSymbols 2 = (2, 6) ∧ syndrome0 ([0, 0, 1, 0, 3, 0, 0, 1, 1, 2] ++ zero 70) 0 = 0 ∧
    syndrome1 ([0, 0, 1, 0, 3, 0, 0, 1, 1, 2] ++ zero 70) 0 = 0x88 ∧ gfPow 7 ^^^ gfPow 3 = 0x88 := by decide +kernel

/-- Training that reaches 6,800 MT/s leaves 122 units a bank (R324). -/
theorem test_bandwidth_plan : planShare 5 (8 * 128) (256 + 64 + hostShare) 128 = 122 := by decide

/-- The gain and the offset of the example of chapter 08. -/
theorem test_virga_gain_and_offset : calResult 33216 65728 64 = some (33026, -355) := by decide +kernel

/-- CH041 of the example of chapter 08, calibrated. -/
def ch041 : State :=
  let r : ChanRec := { ChanRec.init with compareBoard := 150, lin := [(700, 3)] }
  { regSet base (Reg.virCal 41) 0xFE9D8102 with horizon := { base.horizon with chans := [(41, r)] } }

theorem test_virga_stamp : stampTime ch041 41 1000 700 = 1022458 := by decide +kernel

/-- A time of the example of chapter 13: nanoseconds and thousandths. -/
def at_ (ns thousandths : Nat) : ZTime := { s := 0, ns := 500000000 + ns, frac := thousandths * 4294967296 / 1000 }

/-- θ is 3.1875 ns and δ 20.0625 ns. -/
theorem test_sync_exchange : theta2 (at_ 0 0) (at_ 23 250) (at_ 523 250) (at_ 540 125) = 2 * 208896 ∧
    delta2 (at_ 0 0) (at_ 23 250) (at_ 523 250) (at_ 540 125) = 2 * 1314816 := by decide +kernel

/-- A level write to channel 5 of octet 9 sends the CRC 0xFA (chapter 21). -/
theorem test_pec_crc : crc8 [0x1A, 0x12, 0x0C, 0x80] = 0xFA := by decide +kernel

/-- Chapter 12's queue 19 of 512 lines, and `n` more FAIL_LOG frames of 64 records. -/
def fails : Nat → State → State
  | 0, s => s
  | n + 1, s => fails n (commitFrame s 19 0x45 0 7 (zero 4112))
def queue19 : State := setQueue base 19 (queue 512)

theorem test_queue_takes_three : usedLines (getQueue (fails 3 queue19) 19) = 390 := by decide +kernel
theorem test_queue_marks_the_gap : usedLines (getQueue (fails 4 queue19) 19) = 391 := by decide +kernel
theorem test_queue_gap_coalesces : usedLines (getQueue (fails 5 queue19) 19) = 391 := by decide +kernel

/-- K28.5 at either disparity, and every data group read back (R258). -/
theorem test_code_groups : encodeSym false .idle = 0b0011111010 ∧ encodeSym true .idle = 0b1100000101 ∧
    ∀ pos ∈ [true, false], ∀ b ∈ List.range 256, decodeAt pos (encodeSym pos (.data (BitVec.ofNat 8 b))) = some (.data (BitVec.ofNat 8 b)) := by
  decide +kernel

/-- Port E of the example of chapter 11: its partner's LIVE is 0x07, so it sends x2 and announces 0x42; its neighbour 0x44. -/
theorem test_port_set : chooseSet .east 0x07 = (2, 0) ∧ ctrlByte false 2 0 = 0x42 ∧ ctrlByte false 4 0 = 0x44 := by decide +kernel

/-- What JET_PORT_STAT_1 reads in that example. -/
theorem test_port_status : readReg { base with
    ports := [(1, { upPort with reversed := true, fallbackUsed := true, width := 2, rxWidth := 4, partnerLive := 0x07 })]
    lanes := [8, 9, 10, 11].map (fun l => (l, { Lane.init with live := true, cdr := true })) } (Reg.jetPortStat 1) |>.map Prod.fst |> (· = some 0x070F423C) := by
  decide +kernel

/-- The accepted values of the deskew example of chapter 17. -/
theorem test_deskew_rounds : roundDiv (-209 - 207) 2 = -208 ∧ roundDiv (131 + 134) 2 = 133 := by decide

/-- Slot 0 of a job at 8,192 ftu without strobes: a compare_skew of 1,000 takes the compare return from 40 to 41 (R167). -/
theorem test_compare_return : compareReturn base (job 0 0 0 0 0 0 0) = 40 ∧
    compareReturn { base with horizon := { base.horizon with chans := [(1, { ChanRec.init with compareBoard := 1000 })] } }
      (job 0 0 0 0 0 0 0) = 41 := by decide +kernel

/-! ### Steps -/

theorem test_no_word_spells_a_command : decodeTableWord 8 0 = none := rfl
theorem test_fetch_word_leaves_the_state : base.withFetchWord 8 0 = base := rfl
theorem test_empty_queue_idles : step base = .next base := rfl

/-- The device with a tick in front and a cancel memo of one tag. -/
def ticking : State := { base with pending := [.nclkTick, .telemetry], memo := [(9, 0)] }

theorem witness_StepRunsFront : ticking.pending = .nclkTick :: [.telemetry] ∧ base.pending = [] := by decide +kernel

theorem witness_EveryStepKeepsSound : Sound ticking ∧ ∃ t, step ticking = .next t ∧ t.zenith.time = { s := 0, ns := 50, frac := 0 } :=
  ⟨⟨⟨by decide +kernel, by decide +kernel⟩, (fun _ h => by cases h), by decide +kernel, by decide +kernel, by decide +kernel, by decide +kernel⟩,
    _, rfl, by decide +kernel⟩

/-! ### The package: the example of chapter 21, and the signal count of R448 -/

theorem test_ball_examples : ballAt 13 64 = .pe 77 .drv .p ∧ ballAt 14 67 = .pe 77 .cmpl .n ∧ ballAt 13 40 = .pec 9 .sck ∧
    ballAt 13 43 = .pec 9 .di := by decide +kernel

/-- How many balls satisfy a test. -/
def countBalls (test : Ball → Bool) : Nat :=
  ((List.range 77).map (fun r => (List.range 77).countP (fun c => test (ballAt (r + 1) (c + 1))))).sum

theorem test_signal_balls : countBalls scanned = 2869 := by decide +kernel

end Sys2Proof.Tests
end

