-- ==== Sys2Proof/Tests/WitnessJobs.lean ====
section
/-! SUPPORT. States and operands that meet the hypotheses of the statements about jobs, clause by clause. -/

namespace Sys2Proof.Tests

set_option Elab.async false
set_option maxRecDepth 100000

open Sys2Proof.Machine

theorem witness_JobsAreJudgedAndAdmitted :
    let f := frame 0x01 0 (job 0 0 0 0 0 0 0)
    let g := frame 0x01 0 (le 1 2)
    let pre (s : State) (f : Frame) : Prop := Arrives s f 0x01 ∧ f.port = .host ∧ readsWork s = true ∧ s.held0 = [] ∧
      s.held1 = [] ∧ s.memo = [] ∧ s.window = [] ∧ pairEnable s = false
    let may (s : State) (w : Waiting) (d : Nat) : Prop := admits s = true ∧ waitReason s w.payload = 0 ∧ freeSlotOf s = some d ∧
      jobTimed w.payload = false
    let s := { base with suspended := true }
    let u := { base with window := [waiting 0] }
    (pre base g ∧ rejects base g.tag g.payload = some (5, 1, 0) ∧ Takes base 16 64) ∧
    (pre s f ∧ rejects s f.tag f.payload = none ∧ admits s = false) ∧
    (pre base f ∧ rejects base f.tag f.payload = none ∧ may base (waiting 0) 0) ∧
    (u.window = [waiting 0] ∧ u.held0 = [] ∧ u.held1 = [] ∧ may u (waiting 0) 0) := by decide +kernel

theorem witness_CancelsAndWaitsEnd :
    let f := frame 0x02 2 (le 4 7)
    let tag := BitVec.ofNat 32 (fld f.payload 0 4)
    let only (s : State) : Prop := ∀ e : Fin 16, e ≠ 0 → (getDom s e).tag ≠ tag
    let pre (s : State) : Prop := pairEnable s = false ∧ s.held0 = [] ∧ s.held1 = [] ∧ tag ≠ 0xFFFFFFFF ∧ Arrives s f 0x02 ∧ f.port = .host ∧
      readsWork s = true
    let u := { base with window := [waiting 5] }
    let a := admitted 0
    let r := running_ 0
    let g := { base with done := [7] }
    (pre u ∧ u.window = [waiting 5] ∧ (waiting 5).tag = tag ∧ Takes u 16 64 ∧ ∀ e : Fin 16, (getDom u e).tag ≠ tag) ∧
    (pre a ∧ a.window = [] ∧ (getDom a 0).phase = .admitted ∧ (getDom a 0).tag = tag ∧ (getDom a 0).ended = none ∧ only a) ∧
    (pre r ∧ r.window = [] ∧ (getDom r 0).phase = .running ∧ (getDom r 0).tag = tag ∧ only r) ∧
    (pre base ∧ base.window = [] ∧ tagHeld base tag = false ∧ base.memo.length < 16 ∧ base.memo.all (fun m => m.1 ≠ tag) = true ∧
      completed base tag = false ∧ ∀ e : Fin 16, (getDom base e).tag = tag → (getDom base e).phase = .free) ∧
    (pre g ∧ g.window = [] ∧ tagHeld g tag = false ∧ completed g tag = true) ∧
    (jobMaxWait (waiting 5).payload ≠ 0 ∧ (waiting 5).entered + us (jobMaxWait (waiting 5).payload) ≤ u.now ∧ u.anvil.state = .running) := by
  dsimp only; refine ⟨?_, ?_, ?_, ?_, ?_, ?_⟩ <;> decide +kernel

theorem witness_JobsStart :
    let a := admitted 0
    let b := setDom a 0 { getDom a 0 with engines := true, lead := 5 }
    let c := admitted 2
    let pre (s : State) : Prop := (getDom s 0).phase = .admitted ∧ (getDom s 0).ended = none
    (pre a ∧ (getDom a 0).engines = false ∧ awake a 0 = true ∧ jobTimed (getDom a 0).payload = false ∧ (getDom a 0).sites ≤ 256) ∧
    ((getDom b 0).phase = .admitted ∧ (getDom b 0).engines = true ∧ (getDom b 0).halted = false ∧ (getDom b 0).lead = 5 ∧ jobTimed (getDom b 0).payload = false) ∧
    (pre c ∧ jobTimed (getDom c 0).payload = true ∧
      startGrid (getDom c 0).payload ≤ zUnits c.zenith.time + us 10 * 4294967296 ∧ synced c = false) := by decide +kernel

/-- The ending of a job that reports. -/
def passed : Ending := { status := 0, reason := 0, endVector := 10, starveCh := 0xFFFF, reports := true, logs := false }

theorem witness_JobsComplete :
    let a := setCtx (ending passed false) 2 { Ctx.init with status := 1 }
    let b := ending passed true
    let pre (s : State) : Prop := (getDom s 0).ended = some passed ∧ (getDom s 0).phase = .ending ∧ quiet s 0 = true ∧
      pairEnable s = false ∧ s.anvil.state = .running ∧ s.anvil.window = false ∧ s.anvil.stopped = false
    (pre a ∧ passed.reports = true ∧ (getDom a 0).sent = false ∧
      governs (getDom a 0) (theClock a 0) 1 true = true ∧
      contextRuns a (getDom a 0).payload = [(2, [{ Ctx.init with status := 1 }])] ∧ virgaChannels a 0 = [] ∧
      (getQueue a 19).lines ≠ 0 ∧ fits (openQueue a 19) (16 + 32 * 1) = true) ∧
    (pre b ∧ repaired b 0 = true ∧ framesOut b 0 passed = true ∧ dipHolds b (getDom b 0) = false ∧ b.window = [] ∧
      b.held0 = [] ∧ b.held1 = [] ∧ Takes b 16 64) := by decide +kernel

end Sys2Proof.Tests
end

