-- ==== Sys2Proof/Tests/WitnessLinks.lean ====
section
/-! SUPPORT. States and operands that meet the hypotheses of the statements about links, queues, images, registers and time, clause
by clause. -/

namespace Sys2Proof.Tests

set_option Elab.async false
set_option maxRecDepth 100000

open Sys2Proof.Machine

/-- The device with port H as given. -/
def ported (x : PortSt) : State := { base with ports := (0, x) :: base.ports.drop 1 }

/-- The device with lane 0 as given. -/
def laned (l : Lane) : State := { base with lanes := (0, l) :: base.lanes.drop 1 }

/-- The device with queue `q` as given. -/
def queued (q : Nat) (x : Queue) : State := setQueue base q x

/-- A packet of `n` bytes. -/
def packet (n : Nat) : Packet := { ty := 0x45, flags := 0, seq := 0, tag := 0, payload := zero n, popped := 0, order := 0 }

/-- The code groups of `n` columns without a block and the marker of lane 0 of port H, from negative disparity (R261). -/
def markerGroups (n : Nat) : List (BitVec 10) := (sendSyms false (List.replicate n .idle ++ markerSyms 0 255 0x44)).1

/-- A lane that has had `n` right markers. -/
def marked (n : Nat) : Lane := { Lane.init with cdr := true, good := n, rxRd := some false }

theorem witness_MarkersKeepLanes :
    let r (l : Lane) (g : List (BitVec 10)) := receiveGroups l.rxRd g
    let main := { laned (marked 1) with
      ports := (0, { upPort with state := .mainPath }) :: base.ports.drop 1
      lanes := (0, marked 1) :: (List.range 7).map (fun i => (i + 1, { Lane.init with live := true })) }
    let d := laned { marked 0 with live := true, bad := 1 }
    (lanePort 0 = .host ∧ (getPort base .host).state = .up ∧ (getPort main .host).state = .mainPath ∧ (marked 1).died = false) ∧
    (readMarkerSyms (r (marked 0) (markerGroups 0)).1 = some (0, 255, 0x44) ∧ (marked 0).inverted = false ∧ (marked 0).good = 0 ∧
      (0 : Byte).toNat = idByte .host (laneAt .host (getPort base .host) 0) ∧ (0x44 : Byte).getLsbD 7 = false ∧ (32 : Nat) ≤ 32 ∧
      (r (marked 0) (markerGroups 0)).2.2 = 0) ∧
    (readMarkerSyms (r (marked 1) (markerGroups 2043)).1 = some (0, 255, 0x44) ∧ (markerGroups 2043).length = 2048 ∧
      laneHolds (marked 1) true (r (marked 1) (markerGroups 2043)).2.2 = true ∧
      (∀ i ∈ portLanes .host, i ≠ 0 → (getLane main (portFirst .host + i)).live = true)) ∧
    (readMarkerSyms (r (marked 0) []).1 = none ∧ (marked 0).bad = 0 ∧ (r (marked 0) []).2.2 = 0) ∧
    ((getLane d 0).live = true ∧ 1 ≤ (getLane d 0).bad ∧ readMarkerSyms (r (getLane d 0) []).1 = none ∧
      16 ≤ (r (marked 0) (List.replicate 16 0)).2.2) ∧
    ((getPort base .host).state ≠ .off ∧ (getPort base .host).state ≠ .deepIdle) := by
  dsimp only; refine ⟨?_, ?_, ?_, ?_, ?_, ?_⟩ <;> decide +kernel

theorem witness_PortsMoveThroughStates :
    let at_ (st : PortState) (n : Nat) : State := ported { upPort with state := st, since := base.now - n }
    let idle := { ported upPort with units := [] }
    (∀ n ∈ [ms 1, ms 1 - 1], (getPort (at_ .mainPath n) .host).state = .mainPath ∧
      decide ((getPort (at_ .mainPath n) .host).since + ms 1 ≤ base.now) = decide (n = ms 1)) ∧
    ((getPort (at_ .fallback (ms 1)) .host).state = .fallback ∧ (getPort (at_ .fallback (ms 1)) .host).since + ms 1 ≤ base.now ∧
      portHasLive (at_ .fallback (ms 1)) .host = true ∧ portHasLive { at_ .fallback (ms 1) with lanes := [] } .host = false) ∧
    ((getPort idle .host).state = .up ∧ (getPort idle .host).sleep = false ∧ (getPort idle .host).tx = none ∧ idle.power.linkIdleMs ≠ 0 ∧ (getPort idle .host).lastUse + ms idle.power.linkIdleMs ≤ idle.now ∧
      mayLinkIdle idle .host = true) ∧
    (∀ n ∈ [0, 1],
     let s := setQueue (ported { upPort with sleep := true, sleepSent := 4, sleepRcvd := 4 }) 18
       { queue 64 with packets := List.replicate n { ty := 0x45, flags := 0, seq := 0, tag := 0, payload := zero 64, popped := 0, order := 0 } }
     let x := getPort s .host
     x.state = .up ∧ x.sleep = true ∧ x.sleepSent = 4 ∧ x.sleepRcvd = 4 ∧ x.tx = none ∧ frameReady s .host = decide (n = 1)) ∧
    ((getPort (at_ .deepIdle 0) .host).state = .deepIdle ∧ (getPort base .host).state ≠ .deepIdle) ∧
    ((getPort (at_ .exiting (us 200)) .host).state = .exiting ∧
      (getPort (at_ .exiting (us 200)) .host).since + us 200 ≤ base.now ∧ portUnused (at_ .exiting (us 200)) .host = false) := by
  dsimp only; refine ⟨?_, ?_, ?_, ?_, ?_, ?_⟩ <;> decide +kernel

/-- A frame of queue 18 in progress, with the bytes that wait. -/
def sending (rest : Bytes) : TxFrame :=
  { queue := 18, order := 0, rest := rest, sent := 84 - rest.length, stamp := false, sof := false, abort := false }

theorem witness_FramesAndCreditsMove :
    let s := queued 18 { queue 64 with packets := [packet 64] }
    let go (q : Nat) (u : TxFrame) : State := { queued q { queue 64 with packets := [{ packet 64 with popped := 1 }] } with
      ports := [(0, { upPort with tx := some u })] }
    (nextQueue s .host = some (18, packet 64) ∧ (getPort s .host).state = .up ∧ (getPort s .host).tx = none ∧ (getPort s .host).width ≠ 0 ∧
      (getPort s .host).firstDue = [] ∧ (getPort s .host).col < 2048 ∧ heldByTime s (packet 64) (stampNow s 0) 0 = false ∧
      frameLines (packet 64).payload.length ≤ creditsHeld (getQueue s 18) ∧ (packet 64).popped = 0 ∧ (packet 64).ty ≠ 0x81) ∧
    (let k := { packet 48 with ty := 0x80, payload := le 1 1 ++ zero 47 }
     let z := { queued 48 { queue 64 with packets := [k] } with zenith := { base.zenith with t1 := some (.zero, 0) } }
     nextQueue z .east = some (48, k) ∧ fld k.payload 0 1 = 1 ∧ z.zenith.t1.isSome = true ∧ fld k.payload 2 2 = z.zenith.xid ∧ heldByTime z k (stampNow z 0) 0 = false ∧
       frameLines k.payload.length ≤ creditsHeld (getQueue z 48)) ∧
    (∀ u ∈ [sending (zero 64), sending []], (getPort (go 18 u) .host).tx = some u ∧ (getPort (go 18 u) .host).state = .up ∧
      (getPort (go 18 u) .host).width ≠ 0 ∧ (getPort (go 18 u) .host).col < 2048 ∧ u.stamp = false ∧ u.sof = false ∧
      u.abort = false ∧ withdrawn (go 18 u) u = false) ∧
    (withdrawn (go 19 (sending (zero 84))) (sending (zero 84)) = true) ∧
    (creditTarget .host 42 = some 42 ∧ creditTarget .east 9 = some 48 ∧ creditTarget .host 3 = none ∧ grants .host 3 = true ∧
      (getPort base .host).col + 4 ≤ 2048 ∧ meetsLaunch base .host (stampNow base 0) 4 = false ∧ grants .host 16 = false) := by
  dsimp only; refine ⟨?_, ?_, ?_, ?_, ?_⟩ <;> decide +kernel

/-- A GLOBAL_EVENT frame on port E (R432). -/
def globalFrame : Frame :=
  let f := { frame 0x81 8 (le 1 7 ++ (le 1 2 ++ (le 1 5 ++ zero 21))) with port := .east }
  { f with trailer := frameCrc f }

theorem witness_QueuesKeepOrder :
    let s := queued 18 { queue 4 with packets := [packet 12], jtag := true }
    let e (j : Bool) : State := { queued 0 { queue 64 with jtag := j } with held0 := [frame 0x01 0 (zero 12)] }
    let bad := { globalFrame with link := .abort }
    (outboundFits 18 0x45 44 = true ∧ outboundFits 18 0x45 45 = true ∧ outboundFits 18 0x41 64 = false ∧ s.anvil.window = false ∧
      s.anvil.stopped = false ∧ s.dram.state ≠ .frozen ∧ (getQueue s 18).writing = none ∧
      (getQueue s 18).lines ≠ 0 ∧ fits (getQueue s 18) 44 = true ∧ fits (getQueue s 18) 45 = false ∧
      hasRoom (getQueue s 18) (writtenLines (min 60 (16 + 44))) = true ∧ hasRoom (getQueue s 18) (writtenLines (min 65 (16 + 60))) = false ∧
      0 < (getQueue s 18).lines ∧ (getQueue s 18).lines ≤ smallLines) ∧
    ((getQueue s 18).packets = [packet 12] ∧ (getQueue base 18).packets = [] ∧ waitingFrames base 18 = []) ∧
    (∀ j ∈ [true, false], (getQueue (e j) 0).packets = [] ∧ waitingFrames (e j) 0 = [frame 0x01 0 (zero 12)] ∧ (getQueue (e j) 0).jtag = j) ∧
    (smallLines < (getQueue (queued 0 (queue 8193)) 0).lines) ∧
    ((18 : Word).toNat % 64 = 18 ∧ (getQueue s 18).jtag = true ∧ (getQueue base 18).jtag = false) ∧
    ((getPort base bad.port).state = .up ∧ discardReason base bad = 1 ∧ discardReason base globalFrame = 0 ∧ globalFrame.ty = 0x81 ∧
      nimbusStopped { base with boot := { base.boot with state := 0 } } (inQueue globalFrame) = true ∧ inQueue globalFrame = 8) := by
  dsimp only; refine ⟨?_, ?_, ?_, ?_, ?_, ?_⟩ <;> decide +kernel

/-- A LOAD frame (R292). -/
def load (op kind staging pos handle : Nat) (data : Bytes) : Frame :=
  frame 0x03 1 (le 1 op ++ (le 1 kind ++ (zero 2 ++ (le 4 staging ++ (le 8 pos ++ (le 4 handle ++ (zero 12 ++ data)))))))

/-- The device with staging 1 as given. -/
def staged (kind n : Nat) (data : Bytes) : State := { base with stagings := [(1, { kind := kind, length := n, data := data, pages := [] })] }

/-- The running device with staging 1 as given, whose job pins images 1 to 3. -/
def pinning (kind n : Nat) (data : Bytes) : State := { running_ 0 with stagings := [(1, { kind := kind, length := n, data := data, pages := [] })] }

theorem witness_LoadsPlaceImages :
    let pre (s : State) (f : Frame) (op : Nat) (held : Bool) : Prop := Arrives s f 0x03 ∧ f.port = .host ∧ Serves s 4 ∧ s.held1 = [] ∧
      fld f.payload 0 1 = op ∧ firstFault (loadChecks f.payload op) = none ∧ loadHeld s f = held
    let b := staged 1 80 (zero 16)
    let c := staged 1 80 seqImg
    let bad := staged 1 16 (zero 16)
    (pre base (load 1 1 0 4096 0 []) 1 false ∧ base.stagings.length < 4 ∧ pages 4096 ≤ freePages base) ∧
    (∀ d ∈ [true, false], let b := { b with dram := { b.dram with state := if d then .service else .changing } }
      pre b (load 2 0 1 16 0 (zero 64)) 2 false ∧ dramServing b = d ∧ .host 1 ∉ b.dram.waiting ∧ (getStaging b 1).kind ≠ 0 ∧ 16 = (getStaging b 1).data.length ∧
      (getStaging b 1).data.length + (zero 64).length ≤ (getStaging b 1).length) ∧
    (∀ h ∈ [0, 1], pre c (load 3 0 1 0 h []) 3 false ∧ dramServing c = true ∧ (getStaging c 1).kind ≠ 0 ∧ (getStaging c 1).length ≤ (getStaging c 1).data.length ∧
      imageFault (getStaging c 1).kind (getStaging c 1).data = none ∧ (h = 0 ∨ (getImage c h).kind = (getStaging c 1).kind)) ∧
    (pre bad (load 3 0 1 0 0 []) 3 false ∧ dramServing bad = true ∧ (getStaging bad 1).length ≤ (getStaging bad 1).data.length ∧
      imageFault (getStaging bad 1).kind (getStaging bad 1).data = some 0) ∧
    (pre base (load 4 0 0 0 3 []) 4 false ∧ placed base 3 = true) ∧
    (pre b (load 5 0 1 0 0 []) 5 false ∧ (getStaging b 1).kind ≠ 0) ∧
    (pre (pinning 1 80 seqImg) (load 3 0 1 0 1 []) 3 true ∧ pre (pinning 1 80 seqImg) (load 4 0 0 0 1 []) 4 true) := by
  dsimp only; refine ⟨?_, ?_, ?_, ?_, ?_, ?_, ?_⟩ <;> decide +kernel

/-- A READ of a space (R293). -/
def readFrame (space len off : Nat) : Frame := frame 0x04 3 (le 1 space ++ (zero 3 ++ (le 4 len ++ le 8 off)))

/-- A REG_WRITE of one entry, and a REG_READ of one register (R294). -/
def regFrame (ty a value mask : Nat) : Frame := frame ty 3 (if ty = 6 then le 4 a else le 4 a ++ le 4 value ++ le 4 mask)

theorem witness_RegistersAreReadAndWritten :
    let f := readFrame 1 32 (32 * 65535)
    let g := regFrame 6 Reg.cancelMiss 0 0
    let w (a : Nat) : Frame := regFrame 5 a 100 0xFFFFFFFF
    let u (f : Frame) : State := { acceptFrame base f with held3 := [f] }
    (Arrives base f 0x04 ∧ f.port = .host ∧ base.held3 = [] ∧ base.written = 0 ∧ firstFault (readChecks f.payload) = none ∧ fld f.payload 0 1 ≠ 5 ∧
      readOk base 1 (32 * 65535) 32 = true ∧ Serves base (readData base 1 (32 * 65535) 32).length ∧
      32 * 65535 / 32 ≤ 65535 ∧ 65535 < (32 * 65535 + 32) / 32 ∧ inRange_ base 65535 = false ∧ Serves base 32) ∧
    (Arrives base g 0x06 ∧ Serves base 4 ∧ g.payload.length = 4 ∧ regValue { u g with zenith := base.zenith } Reg.cancelMiss = some 0 ∧
      regValue (u (regFrame 6 3 0 0)) 3 = none) ∧
    (∀ a ∈ [Reg.drmScrub, Reg.test, 3], Arrives base (w a) 0x05 ∧ Serves base 0 ∧ (w a).payload.length = 12 ∧ fld (w a).payload 0 4 = a) ∧
    (regValue (u (w 3)) 3 = none) := by
  dsimp only; refine ⟨?_, ?_, ?_, ?_⟩ <;> decide +kernel

/-- A TIME_SET frame (R305). -/
def timeFrame (op parent event interval asym sec ns : Nat) : Frame :=
  frame 0x08 2 (le 1 op ++ (zero 3 ++ (le 1 parent ++ (le 1 event ++ (le 2 interval ++ (le 2 asym ++ (zero 6 ++ (le 8 sec ++ (le 4 ns ++ zero 4)))))))))

theorem witness_ClockTicks :
    let z := base.zenith
    let f := timeFrame 1 0 0 0 0 0 0
    let j := { base with zenith := { z with jump := some 5 } }
    let p (n : Nat) : State := { base with zenith := { z with parent := n, pendingSet := [(.zero, f)] } }
    (z.pendingSet = [] ∧ z.jump = none) ∧ (j.zenith.pendingSet = [] ∧ j.zenith.jump = some 5) ∧
    ((p 0).zenith.pendingSet = [] ++ [(.zero, f)] ∧ (p 0).zenith.parent = 0 ∧ (p 2).zenith.parent ≠ 0 ∧ (p 0).owed = [] ∧
      Takes (p 0) 17 32) ∧
    ((getDom (admitted 2) 0).phase = .admitted ∧ jobTimed (getDom (admitted 2) 0).payload = true ∧ (getDom (admitted 2) 0).ended = none) ∧
    ((getDom (running_ 0) 0).engines = true ∧ (getDom (running_ 0) 1).engines = false) := by
  dsimp only; refine ⟨?_, ?_, ?_, ?_, ?_⟩ <;> decide +kernel

theorem witness_TimeSetActs :
    let a (ns : Nat) : Frame := timeFrame 1 0 0 0 0 5 ns
    let c := timeFrame 2 3 0 800 475 0 0
    let l (sec : Nat) : Frame := timeFrame 3 0 7 0 0 sec 0
    let s := { base with zenith := { base.zenith with time := { s := 1, ns := 0, frac := 0 }, launches := [{ event := 1, time := .zero, id := 0, made := false }] } }
    (∀ f ∈ [a 999999990, a 5, c, l 0, l 1, l 2], Arrives s f 0x08 ∧ f.port = .host ∧ Serves s 0) ∧
    (∀ ns ∈ [999999990, 5], firstFault (timeSetChecks (a ns).payload) = none ∧ gridTime s (stampAt (a ns).payload 16) = decide (ns ≠ 5)) ∧
    (firstFault (timeConfigChecks c.payload) = none ∧ s.zenith.parent ≠ fld c.payload 4 1) ∧
    (∀ n ∈ [0, 1, 2], firstFault (timeLaunchChecks (l n).payload) = none ∧
      decide (zUnits s.zenith.time ≤ zUnits (stampAt (l n).payload 16)) = decide (n ≠ 0)) ∧
    (s.refPresent = true) := by
  dsimp only; refine ⟨?_, ?_, ?_, ?_, ?_⟩ <;> decide +kernel

/-- A SYNC frame of port E (R308). -/
def sync (msg hops xid q rxS txS : Nat) : Frame :=
  let f := { frame 0x80 8 (le 1 msg ++ (le 1 hops ++ (le 2 xid ++ (le 4 q ++ (zero 8 ++ (le 8 rxS ++ (zero 8 ++ (le 8 txS ++ zero 8)))))))) with port := .east }
  { f with trailer := frameCrc f }

theorem witness_SyncExchanges :
    let z := { base.zenith with parent := 2, t1 := some (.zero, base.now), asked := true, xid := 3, lastAccept := some 0 }
    let s := { base with zenith := z }
    let f := sync 2 1 3 100 0 0
    let t4 := (getPort s .east).stamp.getD z.time
    let d := delta2 .zero (stampAt f.payload 0x20) (stampAt f.payload 0x10) t4
    (Arrives base (sync 1 0 0 0 0 0) 0x80 ∧ fld (sync 1 0 0 0 0 0).payload 0 1 = 1 ∧ base.boot.state = 1 ∧
      Takes base (syncQueue .east) 48) ∧
    (Arrives s f 0x80 ∧ fld f.payload 0 1 = 2 ∧ s.zenith.t1 = some (.zero, s.now) ∧ s.zenith.asked = true ∧ parentPort s.zenith.parent = some f.port) ∧
    (s.now ≤ s.now + us 100 ∧ fld f.payload 2 2 = s.zenith.xid ∧ fld f.payload 4 4 ≠ 0xFFFFFFFF ∧ 0 ≤ d ∧ d ≤ 2 * 10000 * 65536) ∧
    (fld (sync 2 1 4 100 0 0).payload 2 2 ≠ s.zenith.xid ∧ Arrives s (sync 2 1 4 100 0 0) 0x80) ∧
    (parentPort s.zenith.parent = some .east ∧ Takes s (syncQueue .east) 48 ∧ s.zenith.lastReq + intervalNs s ≤ s.now ∧ parentPort base.zenith.parent = none ∧
      s.now < ({ z with lastReq := s.now, interval := 1 } : Zenith).lastReq + us 125) ∧
    (∀ n ∈ [s.now - us 100, s.now - us 100 - 1], responseWaits s n = false ∧ decide (n + us 100 < s.now) = decide (n ≠ s.now - us 100)) ∧
    (s.zenith.lastAccept = some 0 ∧ 0 + 4 * intervalNs s < s.now) := by
  dsimp only; refine ⟨?_, ?_, ?_, ?_, ?_, ?_, ?_⟩ <;> decide +kernel

end Sys2Proof.Tests
end

