-- ==== Sys2Proof/Tests/WitnessMemory.lean ====
section
/-! SUPPORT. States and operands that meet the hypotheses of the statements about the DRAM, the clocks, power, temperature and
calibration, clause by clause. -/

namespace Sys2Proof.Tests

set_option Elab.async false
set_option maxRecDepth 100000

open Sys2Proof.Machine

theorem witness_OuterCodeCorrects :
    let b := upset (zero 80) ((List.range 8).map (fun j => (j, 0)))
    b.length = 80 ∧ (∀ j, j < 8 → syndrome0 b j = 0 ∧ syndrome1 b j = 0) ∧ (0x80 : Byte) ≠ 0 := by decide +kernel

/-- The device with the controller as given. -/
def dram (d : Dram) : State := { base with dram := d }

theorem witness_DramReadsDecode :
    let good : BurstFault := { first := [(0, 1)], second := [], failed := [] }
    let bad (failed : List (Fin 5)) : BurstFault := { first := [(0, 1), (5, 2), (6, 4)], second := [(0, 1), (5, 2), (6, 4)], failed := failed }
    let at_ (f : BurstFault) : Bytes × Bytes := (upset (rawBurst base 0) f.first, upset (rawBurst base 0) f.second)
    let sr := dram { base.dram with state := .selfRefresh }
    (dramServing base = true ∧ burstOk base 0 = true ∧ burstOk base (burstCount base - 1) = true) ∧
    ((decodeBurst base 0 (at_ good).1).isSome = true ∧ base.dram.scrubAt = 0) ∧
    (∀ l ∈ [[3], [], [1, 2]], decodeBurst base 0 (at_ (bad l)).1 = none ∧ decodeBurst base 0 (at_ (bad l)).2 = none) ∧
    ((bad []).failed.eraseDups.length ≠ 1 ∧ (bad [1, 2]).failed.eraseDups.length ≠ 1 ∧ base.anvil.state = .running) ∧
    (sr.dram.state = .selfRefresh ∧ (getUnit sr 20).state ≠ .doze ∧ (getUnit sr 20).wakes = none ∧ burstOk sr 0 = true ∧
      (getUnit (setUnit sr 20 { PowUnit.init with state := .doze }) 20).state = .doze) ∧
    ((dram { base.dram with state := .changing }).dram.state = .changing ∧
      base.dram.state = .service ∧ dramServing (dram { base.dram with lostAt := some 5 }) = false ∧ (dram { base.dram with state := .frozen }).dram.state = .frozen) := by
  dsimp only; refine ⟨?_, ?_, ?_, ?_, ?_, ?_⟩ <;> decide +kernel

theorem witness_DramControllerActs :
    let a := dram { base.dram with modeFails := [(0, 1)] }
    let l := { dram { base.dram with lostAt := some 5 } with plls := [] }
    let r := dram { base.dram with state := .selfRefresh }
    (dramServing base = true ∧ tget 0 base.dram.modeFails 0 = 0 ∧ base.held1 = [] ∧ base.held3 = [] ∧ base.dram.checks = [] ∧
      ddrLost base = false) ∧
    (dramServing a = true ∧ 1 ≤ tget 0 a.dram.modeFails 0 ∧ ddrLost l = true) ∧
    (∀ n ∈ [none, some 5], let k := dram { base.dram with lostAt := n, checks := [0] }
      k.dram.checks = [(0 : Fin 8).val] ∧ k.dram.state = .service ∧ k.dram.change = [] ∧ k.dram.waiting = [] ∧ k.dram.lostAt = n) ∧
    (base.anvil.state = .running ∧ regField base Reg.drmIdle 0 20 ≠ 0 ∧ noClaims base = true ∧
      base.dram.idleSince + us (regField base Reg.drmIdle 0 20) ≤ base.now ∧
      base.now < (dram { base.dram with idleSince := base.now }).dram.idleSince + us (regField base Reg.drmIdle 0 20)) ∧
    ((dram { base.dram with state := .frozen }).dram.state = .frozen ∧ base.dram.state ≠ .selfRefresh) ∧
    (r.dram.state = .selfRefresh ∧ (getUnit r 20).wakes = none ∧ (getUnit r 20).state ≠ .doze ∧
      (getUnit (setUnit r 20 { PowUnit.init with state := .doze }) 20).state = .doze) := by
  dsimp only; refine ⟨?_, ?_, ?_, ?_, ?_, ?_⟩ <;> decide +kernel

/-- The device with PLL `n` as given. -/
def pll (n : Nat) (x : Pll) : State := setPll base n x

theorem witness_ClocksLockAndFail :
    let lock (far : Bool) : Pll := { Pll.init with state := .locked, far := far }
    let byp (good fails : Nat) (age base_ : Nat) : Pll :=
      { Pll.init with state := .bypass, good := good, fails := fails, since := base.now - age, base := base.now - base_ }
    let off (c : Nat) : Nat := ((c : Int) - 1024).natAbs
    let r := { pll 4 (byp 3 0 100000 0) with anvil := { Anvil.init with state := .recovering } }
    (base.refPresent = true ∧ (∀ n : Fin 10, (getPll (pll n (lock false)) n).state = .locked ∧
        (getPll (pll n (lock false)) n).lockedAt ≠ some base.now) ∧ off 1040 ≤ 16 ∧ 4 < off 1029 ∧ off 1020 ≤ 4 ∧
      16 < off 1041 ∧ (getPll (pll 2 (lock true)) 2).far = true) ∧
    (∀ n : Fin 10, (let s := pll n (byp 3 0 100000 50000)
      let x := getPll s n
      x.state = .bypass ∧ x.lost = false ∧ x.base + (1024 + 128 * x.closings) * refCycle n x < s.now + 50 ∧ s.now ≤ x.since + us 100 ∧ off 1026 ≤ 2 ∧ 2 < off 1027 ∧
        3 ≤ x.good ∧ (byp 2 0 0 0).good < 3 ∧ s.dram.change = [] ∧ s.dram.state = .service ∧ s.dram.lostAt = none ∧ x.since + us 100 ≤ s.now ∧
        s.now < (byp 0 0 99999 0).since + us 100)) ∧
    ((getPll (pll 0 (byp 3 2 100000 0)) 0).fails = 2) ∧
    (r.anvil.state = .recovering ∧ r.boot.state = 1 ∧ r.anvil.window = false ∧ (getPll r 4).state = .bypass ∧
      (getPll r 4).since + us 100 ≤ r.now) ∧
    (∀ n ∈ [0, base.now - 20000, base.now - 20001], (dram { base.dram with lostAt := some n }).dram.lostAt = some n ∧
      base.dram.checks = [] ∧ decide (n + us 20 < base.now) = decide (n ≠ base.now - 20000)) ∧ (base.boot.input = none) := by
  dsimp only; refine ⟨?_, ?_, ?_, ?_, ?_, ?_⟩ <;> decide +kernel

/-- The device with unit `u` as given. -/
def unit_ (u : Nat) (x : PowUnit) : State := setUnit base u x

theorem witness_UnitsChangeState :
    let idle := { base with units := (List.range 22).map (fun u => (u, { PowUnit.init with state := .idle })), dram := { base.dram with state := .selfRefresh } }
    let w (n : Nat) : State := setPll (unit_ 20 { PowUnit.init with state := .doze, wakes := some n }) 4 { Pll.init with state := .locked }
    let b := setPll (unit_ 0 { PowUnit.init with state := .off, wakes := some 9 }) 1 { Pll.init with state := .locked }
    (∀ u : Fin 22, u.val ≠ 21 → (getUnit base u).state = .active ∧ inUse base u = false ∧ (getUnit base u).since + us base.power.idleUs ≤ base.now ∧
      base.now < (getUnit (unit_ u { PowUnit.init with state := .active, since := base.now }) u).since + us base.power.idleUs) ∧
    (inUse base 21 = true ∧ inUse (running_ 0) 0 = true) ∧
    (∀ u ∈ [(0 : Fin 22), 20], (getUnit idle u).state = .idle ∧ (getUnit idle u).hold = none ∧ (getUnit idle u).wakes = none ∧
      (u.val < 16 ∨ 20 ≤ u.val) ∧ inUse idle u = false ∧ (getUnit idle u).since + ms idle.power.dozeMs ≤ idle.now ∧
      (u.val = 20 → idle.dram.state = .selfRefresh)) ∧
    ((getUnit (w 9) 20).wakes = some 9 ∧ 9 ≤ (w 9).now ∧ unitClocked (w 9) 20 = true ∧ (w 9).dram.waiting = [] ∧
      (w 9).held1 = [] ∧ (w 9).held3 = [] ∧
      (getUnit (w (base.now + 1)) 20).wakes = some (base.now + 1) ∧ unitClocked { base with plls := [] } 0 = false ∧
      (getUnit b 0).wakes = some 9 ∧ (getUnit b 0).state = .off ∧ unitClocked b 0 = true) ∧
    (∀ n ∈ [9, base.now, base.now + 1], let h := unit_ 5 { PowUnit.init with state := .idle, hold := some n }
      (getUnit h 5).hold = some n ∧ decide (n ≤ h.now) = decide (n ≠ base.now + 1)) ∧
    (let c := { idle with units := (List.range 21).map (fun u => (u, { PowUnit.init with state := .doze })) ++ [(21, { PowUnit.init with state := .idle })] }
     (getUnit c 21).state = .idle ∧ inUse c 21 = false ∧ ∀ p ∈ [Port.host, .east, .west, .pair], (getPort c p).lastUse + ms c.power.dozeMs ≤ c.now) := by
  dsimp only; refine ⟨?_, ?_, ?_, ?_, ?_, ?_⟩ <;> decide +kernel

/-- A POWER frame (R356). -/
def power (op code units hold idle doze link telem telemS grace : Nat) : Frame :=
  frame 0x0A 2 (le 1 op ++ (le 1 code ++ (zero 2 ++ (le 4 units ++ (le 4 hold ++ (le 4 idle ++ (le 4 doze ++ (le 2 link ++ (le 2 telem ++
    (le 2 telemS ++ (le 2 grace ++ zero 4)))))))))))

theorem witness_PowerRequestsAct :
    let a := power 1 0 0xF 0 0 0 0 0 0 0
    let h (n : Nat) : Frame := power 2 0 0x3FFFFF n 0 0 0 0 0 0
    let p (n : Nat) : Frame := power 3 n 0 0 0 0 0 0 0 0
    let t := power 5 0 0 0 1 1 0 0 0 100
    let r := power 4 0 0 0 0 0 0 0 0 0
    let u := { base with boot := { base.boot with desc := zero 0x14 ++ (le 1 14 ++ zero 491) } }
    let c := dram { base.dram with state := .changing, change := [(true, none)] }
    let h0 := { base with units := [] }
    (∀ f ∈ [a, h 0, h 3600000, p 0, p 1, t, r], Arrives base f 0x0A ∧ f.port = .host ∧ Serves base 0) ∧
    (firstFault (sleepChecks base a.payload) = none ∧ unusedUnit base 0 = false ∧
      firstFault (sleepChecks u (power 1 0 0x20000 0 0 0 0 0 0 0).payload) = none ∧ unusedUnit u 17 = true) ∧
    (∀ n ∈ [0, 3600000], firstFault (holdChecks base (h n).payload) = none) ∧
    (∀ n ∈ [0, 1], firstFault (pointChecks base (p n).payload) = none ∧ fld (p n).payload 1 1 = n ∧
      firstFault (pointChecks c (p n).payload) = none ∧ c.dram.change ≠ []) ∧
    (unusedUnit h0 0 = false ∧ (getUnit h0 0).wakes = none) ∧
    (base.dram.change = [] ∧ base.dram.pointB = false ∧ (getPll base 4).state ≠ .bypass ∧ base.dram.waiting = [] ∧ firstFault (timesChecks t.payload) = none ∧ firstFault (resetChecks r.payload) = none) := by
  dsimp only; refine ⟨?_, ?_, ?_, ?_, ?_, ?_⟩ <;> decide +kernel

theorem witness_ThermalProtectionActs :
    let at_ (t : Throttle) (n : Nat) : State := { base with power := { base.power with throttle := t, entered := n } }
    let hot (s : State) (v : Int) : Int := hotReading { s with power := { s.power with diode := v } }
    let raw : List Int := [100, 943, 0, 0, 0, 0, 0, -5]
    let down := { base with units := [], power := { base.power with diodeOk := true, diode := 943 } }
    (∀ v ∈ [(-400 : Int), 799, 800, 919], -400 ≤ v ∧ v < 920 ∧ base.anvil.pendingRec = none ∧ base.power.throttle = .normal) ∧
    (hot base 799 < 800 ∧ 800 ≤ hot base 800 ∧ hot (at_ .requested 0) 775 < 776 ∧ 776 ≤ hot (at_ .enforced 0) 776) ∧
    ((920 : Int) ≤ 920 ∧ (1200 : Int) ≤ 1200 ∧ base.power.diodeHigh = false ∧ base.anvil.state = .running) ∧
    (base.anvil.pendingRec = none ∧ base.power.invalid = 0 ∧ ({ base.power with invalid := 1 } : Power).invalid = 1 ∧
      ∀ o ∈ ([none, some 1201, some (-401)] : List (Option Int)), o.filter (fun v => -400 ≤ v && v ≤ 1200) = none) ∧
    (raw.length = 8 ∧ banksDown base = false ∧ (∀ b, b < 8 → raw.getD b 0 + tget 0 base.horizon.roTrim b < 944) ∧
      banksDown down = true ∧ down.horizon.vacantTrim + ms 1000 ≤ down.now ∧ down.power.diodeOk = true ∧ down.power.diode < 944 ∧
      (944 : Int) ≤ [944, 0, 0, 0, 0, 0, 0, 0].getD 0 0 + tget 0 base.horizon.roTrim 0 ∧ tget false base.power.bankHigh 0 = false) ∧
    (∀ n ∈ [base.now - ms 2000, base.now - ms 2000 + 1], (at_ .requested n).power.throttle = .requested ∧
      decide (n + ms (at_ .requested n).power.graceMs ≤ base.now) = decide (n = base.now - ms 2000)) ∧
    (∀ n ∈ [base.now - ms 1000, base.now - ms 1000 + 1], (at_ .enforced n).power.throttle = .enforced ∧
      decide (n + ms 1000 * ((at_ .enforced n).power.capSteps + 1) ≤ base.now) = decide (n = base.now - ms 1000)) := by
  dsimp only; refine ⟨?_, ?_, ?_, ?_, ?_, ?_, ?_⟩ <;> decide +kernel

theorem witness_SupplyIsSupervised :
    let d (n : Nat) (f : Bool) : State := setDip (running_ 0) .tim (some { since := n, stamp := .zero, faulted := f })
    (getDip base .core = none ∧ (400 : Nat) ≤ 400 ∧ (401 : Nat) ≤ 401) ∧
    (∀ n ∈ [base.now - 20000, base.now - 19999], getDip (d n false) .tim = some { since := n, stamp := .zero, faulted := false } ∧
      decide (n + 20000 ≤ (d n false).now) = decide (n = base.now - 20000) ∧ (d n false).anvil.state = .running) ∧
    ((getDom (d 0 false) 0).phase = .running ∧ zUnits (getDom (d 0 false) 0).startAt ≤ zUnits .zero ∧
      getDip (d 0 true) .tim = some { since := 0, stamp := .zero, faulted := true } ∧
      (getDom (setDip (admitted 0) .tim (some { since := 0, stamp := .zero, faulted := false })) 0).phase = .admitted) ∧
    (∀ st ∈ [PortState.up, .deepIdle], let s := { base with ports := (0, { upPort with state := st }) :: base.ports.drop 1 }
      let gap := if (getPort s .host).state = .deepIdle then ms (1000 * s.power.telemS) else ms s.power.telemMs
      s.boot.state = 1 ∧ gap ≠ 0 ∧ s.power.telemAt + gap ≤ s.now ∧ Takes s 18 64 ∧ s.now < ({ s.power with telemAt := s.now } : Power).telemAt + gap) ∧
    (base.now < ({ base.power with telemAt := base.now } : Power).telemAt + ms base.power.telemMs) := by
  dsimp only; refine ⟨?_, ?_, ?_, ?_⟩ <;> decide +kernel

/-- A CAL_SET frame (R376, R381). -/
def cal (op count : Nat) (rest : Bytes) : Frame := frame 0x07 2 (le 1 op ++ (zero 1 ++ (le 2 count ++ (zero 12 ++ rest))))

/-- The device in compatibility mode. -/
def calDev : State := { base with straps := 1 }

theorem witness_CalibrationRequestsAct :
    let f1 := cal 1 2 (le 2 0 ++ (le 2 5 ++ (le 2 6 ++ (zero 2 ++ (le 2 255 ++ (le 2 7 ++ (le 2 8 ++ zero 2)))))))
    let f2 := cal 2 0 (le 8 3 ++ (zero 24 ++ (le 1 1 ++ (le 1 15 ++ zero 6))))
    let f3 := cal 3 1 (zero 576)
    let f4 := cal 4 1 (zero 32)
    let f5 := cal 5 0 []
    let f6 := cal 6 0 (le 1 1 ++ (zero 1 ++ (le 2 40 ++ (le 4 3600 ++ zero 8))))
    (∀ f ∈ [f1, f2, f3, f4, f5, f6], Arrives calDev f 0x07 ∧ f.port = .host ∧ Serves calDev 0) ∧
    (firstFault (boardChecks calDev f1.payload) = none) ∧ (firstFault (calibrateChecks calDev f2.payload) = none) ∧
    (firstFault (chanLoadChecks calDev f3.payload) = none) ∧ (firstFault (aurLoadChecks calDev f4.payload) = none) ∧
    (firstFault (saveChecks calDev f5.payload) = none) ∧ (firstFault (backgroundChecks f6.payload) = none) := by
  dsimp only; refine ⟨?_, ?_, ?_, ?_, ?_, ?_, ?_⟩ <;> decide +kernel

/-- The device with one due item. -/
def due (x : Due) : State := { base with horizon := { base.horizon with due := [x] } }

theorem witness_CalibrationRunsAndFences :
    let x (i : CalItem) : Due := { item := i, cause := 1, active := false, runA := none, attempts := 0 }
    let run (i : CalItem) : Due := { x i with active := true }
    let second (i : CalItem) (a : List Int) (n : Nat) : Due := { run i with runA := some a, attempts := n }
    let v (i : CalItem) : List Int := List.replicate (itemLimits i).length 10
    let u (i : CalItem) : List Int := match i with
      | .linearity _ => v i ++ [32768, 65536]
      | _ => v i
    let items : List CalItem := [.deskew 0, .linearity 0, .aurora 0, .diode]
    let acc (n : Nat) : State := { base with horizon := { base.horizon with accepted := [(.diode, base.now - 60 * 1000000000 - n, 0)], bgInterval := 60 } }
    let st : State := { base with horizon := { base.horizon with
      staged := [(3, some ChanRec.init)], stagedAur := [(2, some AurRec.init)], stagedDiode := some 1 } }
    ((due (x .diode)).horizon.bgEnable = true ∧ (due (x .diode)).power.throttle ≠ .enforced ∧ (due (x .diode)).anvil.state = .running ∧
      (due (x .diode)).boot.state = 1 ∧ nextDue (due (x .diode)) = some (x .diode) ∧ nextDue base = none ∧ State.reset.boot.state ≠ 1) ∧
    (∀ i ∈ items, ∀ y ∈ [x i, run i, second i (u i) 1, second i (u i) 2], (due y).horizon.due.find? (fun z => z.item = i) = some y ∧
      itemAwake (due y) i = true ∧ (due y).anvil.state = .running) ∧
    (∀ i ∈ items, runsAgree i (u i) (v i) = true ∧ runsAgree i (u i) [] = false ∧ (run i).active = true ∧ (x i).active = false ∧
      (second i (u i) 1).attempts < 2 ∧ 2 ≤ (second i (u i) 2).attempts) ∧
    (∀ n ∈ [0, 1], (acc n).horizon.accepted.find? (fun e => e.1 = .diode) = some (.diode, base.now - 60 * 1000000000 - n, 0) ∧
      decide (base.now - 60 * 1000000000 - n + (acc n).horizon.bgInterval * 1000000000 < (acc n).now) = decide (n = 1)) ∧
    (stagedPending st = true ∧ allFree st = true ∧ st.anvil.state = .running ∧ st.boot.state = 1 ∧ stagedPending base = false ∧
      (st.horizon.staged.filter (fun e => e.1 = 3)) = [(3, some ChanRec.init)] ∧ (∀ e ∈ st.horizon.staged, e.1 ≠ 4) ∧
      (st.horizon.stagedAur.filter (fun e => e.1 = 2)) = [(2, some AurRec.init)] ∧ (∀ e ∈ st.horizon.stagedAur, e.1 ≠ 0)) := by
  dsimp only; refine ⟨?_, ?_, ?_, ?_, ?_⟩ <;> decide +kernel

end Sys2Proof.Tests
end

