-- ==== Sys2Proof/Tests/WitnessUnits.lean ====
section
/-! SUPPORT. States and operands that meet the hypotheses of the statements about streams, compares, the Ledger, Cumulus, Virga,
Squall and Aurora, clause by clause. -/

namespace Sys2Proof.Tests

set_option Elab.async false
set_option maxRecDepth 100000

open Sys2Proof.Machine

/-- Image 2 with a stream of 256 bytes for CH0, blocks of one symbol each (R99, R101). -/
def strImg256 : Bytes := le 2 1 ++ (le 2 1 ++ (zero 12 ++ (zero 4 ++ (le 4 256 ++ (le 8 256 ++ (zero 8 ++ (le 6 128 ++ (zero 2 ++ (zero 208 ++ zero 256)))))))))

/-- A job with a claim of `n` units of vector bandwidth on bank 0. -/
def claimPay (n : Nat) : Bytes := (job 0 0 0 0 0 0 0).take 0x48 ++ (le 2 n ++ (job 0 0 0 0 0 0 0).drop 0x4A)

/-- CH0 streams for the job in slot 0, which claims `n` units: its ring is empty, and a request may be in flight. The bucket of
the bank's port holds `own`. -/
def streaming (n own : Nat) (flight : List Nat) : State :=
  { running_ 0 with
    images := [(2, { kind := 2, data := strImg256 })]
    doms := [(0, { slot 0 with payload := claimPay n })]
    pins := [(0, { Pin.init with dom := some 0 })]
    buckets := [(portKey 0, { level := own, at_ := base.now })]
    rings := [(0, { PinRing.init with size := 4096, flight := flight })] }

/-- The running job with site records as given. -/
def sited (flags : Nat) (y : Site) : State := { running_ flags with sites := [(0, y), (1, y)] }

theorem witness_SupplyMovesVectors :
    (∀ a ∈ [(1, 0), (1, 2048), (0, 0)],
      let s := streaming a.1 a.2 []
      dramServing s = true ∧ inFlight s 0 < 32 ∧ claimedRing s 0 = (if a.1 = 0 then none else some (0, 0)) ∧
        borrowRing s 0 = some (0, 0) ∧
        decide (8 * sizeOf1 s (0, 0) ≤ bucketLevel s (portKey 0) (regField s (Reg.drmPlan 0) 0 16)) = decide (a.2 = 2048)) ∧
    (∀ st ∈ [DramState.service, .selfRefresh, .frozen],
      let s := { streaming 1 0 [256, 64] with dram := { base.dram with state := st } }
      (getRing s 0).flight = [256, 64] ∧ inFlight s 0 < 32 ∧ refillWanted s 0 false = true ∧ s.dram.waiting = [] ∧
        dramServing s = decide (st = .service) ∧ s.dram.state ≠ .training) ∧
    (∀ e ∈ [true, false],
      let lead := { slot 0 with phase := .admitted, engines := e, lead := 3 }
      lead.engines = e ∧ lead.halted = false ∧ lead.phase = .admitted ∧ lead.ended = none ∧ lead.lead < 5) ∧
    (let x := slot 0
     x.engines = true ∧ x.halted = false ∧ x.lead = 5 ∧ x.phase = .running ∧ x.ended = none ∧ base.anvil.state = .running) ∧
    (∀ w ∈ [10, 11],
      let k := sited 0 { Site.init with event := some w }
      starveFrom k 0 1 = some w ∧ (getDom k 0).phase ≠ .free ∧ (getSite k 0 1).parked = false ∧
        decide (w + timKeep (timImage k (getDom k 0).payload) ≤ (getDom k 0).next) = decide (w = 10)) := by
  dsimp only; refine ⟨?_, ?_, ?_, ?_, ?_⟩ <;> decide +kernel

/-- A pin of a played vector whose compare image expects nothing. -/
def quietPin (ch k : Nat) : PlayedPin :=
  { ch := ch, site := k, sym := 1, tset := 0, cmp := 0, masked := false, starve := false, parked := false }

/-- Image 3 with the period of one ECLK and a waveform for symbol 1 that strobes (R143, R145). -/
def timImgCmp : Bytes :=
  le 2 1 ++ (le 2 2 ++ (le 4 1 ++ (le 5 8192 ++ (zero 3 ++ (zero 256 ++ (zero 16 ++ (zero 1024 ++ (le 2 0 ++ (le 2 1 ++
    (zero 508 ++ List.replicate 1024 0x15))))))))))

theorem witness_ComparesAndCommitsMerge :
    let p (v : Nat) : Played := { v := v, pins := [quietPin 0 0, quietPin 1 1], items := [] }
    let s (v : Nat) : State :=
      { setDom (running_ 0) 0 { slot 0 with flight := [p v] } with images := tset .init base.images 3 { kind := 3, data := timImgCmp } }
    let c (v : Nat) : Commit := { v := v, item := 0 }
    let y (v : Nat) (l : List AccFail) : State := sited 0 { Site.init with commits := [c v], acc := l }
    (∀ v ∈ [7, 8], pairEnable (s v) = false ∧ (getDom (s v) 0).flight = [p v] ∧ (getDom (s v) 0).phase ≠ .free ∧
      (getDom (s v) 0).halted = false ∧ decide (v + (getDom (s v) 0).ret < (getDom (s v) 0).next) = decide (v = 7)) ∧
    (∀ r ∈ [[], [({ channel := 0, readings := [.l] } : PinReading)]],
      ((p 7).pins.map (judgePin (s 7) 0 (timImage (s 7) (getDom (s 7) 0).payload) 7 r)).any (fun x => x.fails) = decide (r ≠ []) ∧
      (getSite (s 7) 0 0).mFail = none) ∧
    (∀ v ∈ [10, 11], ∀ l ∈ [[], [({ v := 9, set := [1], pa := none } : AccFail), { v := 10, set := [1], pa := none }]],
      (getSite (y v l) 0 1).commits = [c v] ∧ (getDom (y v l) 0).phase ≠ .free ∧ (getDom (y v l) 0).halted = false ∧
        (getDom (y v l) 0).ended = none ∧ (y v l).anvil.state = .running ∧ judgedBefore (getDom (y v l) 0) v = decide (v = 10)) := by
  dsimp only; refine ⟨?_, ?_, ?_⟩ <;> decide +kernel

/-- A Cumulus image of two instructions and one template of one vector; the first goes on, the second ends the program. -/
def cumImg : Bytes :=
  le 2 1 ++ (le 2 2 ++ (le 1 1 ++ (zero 11 ++ (le 8 (8 + 4294967296 * 0) ++ (le 4 255 ++ (le 4 1 ++
    (zero 608 ++ (zero 16 ++ (le 8 (5 * 2 ^ 28) ++ (zero 8 ++ (le 1 1 ++ zero 263)))))))))))

/-- A flow that pushes vectors of a run of the Cumulus of bank 0. -/
def generates : Flow :=
  { Flow.init with
    nextV := 30, pushed := 10
    queue := [{ v := 10, count := 20, src := .const, sym := 3, block := 0, base := [], tset := 0, cmp := 0, item := 0, mask := 0, cum := 1, starve := false }] }

/-- The Cumulus of bank 0 of the running job. -/
def generating (next vcount : Nat) : State :=
  { running_ 0 with
    doms := [(0, { slot 0 with payload := job 0 0 0 1 0 0 0 })], images := [(4, { kind := 4, data := cumImg })]
    flows := [(0, generates)]
    cums := [(0, { Cum.init with dom := some 0, running := true, start := 10, next := next, vcount := vcount, parity := true })] }

theorem witness_CumulusGenerates :
    (∀ n ∈ [(0, 4), (0, 1), (1, 4), (1, 1)],
      let s := generating n.1 n.2
      let c := getCum s 0
      let x := getDom s 0
      let r := stepCum (cumImage s x.payload) c
      c.dom = some 0 ∧ (cumBlock s 0 0).any (fun a => !blockMade c a) = true ∧
        runningAt x (theClock s 0 - 1) = true ∧ c.wrong = none ∧ c.made < c.vcount ∧ c.ranAt ≠ theClock s 0 + 1 ∧
        x.ended = none ∧ x.undo = [] ∧ x.phase ≠ .free ∧ s.anvil.state = .running ∧ (∀ j < 8, cumWrong s 0 j = false) ∧
        ((cumBlock s 0 0).any (fun a => (wrongAt c.vcount (c.made + r.1.len) r.2.2).any (fun e => decide (c.start + e < a + 16))) =
          decide (n.1 = 0 ∧ n.2 = 1 ∨ n.1 = 1 ∧ n.2 = 4))) ∧
    (let after := setDom (generating 0 4) 0 { getDom (generating 0 4) 0 with phase := .ending }
     ∀ s ∈ [generating 0 4, after, setDom after 0 .init], (getCum s 0).parity = true ∧ s.held1 = [] ∧
       (getCum s 0).dom.any (fun d => (getDom s d).phase = .running) = decide (s = generating 0 4)) := by
  refine ⟨?_, ?_⟩ <;> decide +kernel

/-- A Virga run of CH0 that stamps every transition of slot 0. -/
def stamps (last : Option Nat) : Virga :=
  { Virga.init with active := true, stamping := true, entry := le 4 0 ++ (le 1 15 ++ (le 1 1 ++ zero 10)), from_ := some 0, lastStamp := last }

/-- The Virga of CH0 and the Squall of bank 0, in a re-arm gap or not. -/
def stamping (v : Virga) (gapEnd : Nat) : State :=
  { running_ 0 with virgas := [(0, v)], squalls := [(0, { Squall.init with dom := some 0, gap := true, gapEnd := gapEnd })] }

theorem witness_VirgaStampsAndCalibrates :
    let st := (stampTime (stamping (stamps none) 0) 0 100 3).toNat
    (∀ kinds ∈ [(2 : BitVec 4), 7], ∀ last ∈ [none, some (st - 4096), some (st - 4095), some st],
      let s := stamping (stamps last) 0
      let v := getVirga s 0
      v.active = true ∧ v.stamping = true ∧ v.ended = false ∧ kindsOf v.entry kinds ≠ [] ∧ 0 ≤ stampTime s 0 100 3 ∧
        v.from_.getD 0 ≤ st ∧ timely (getDom s v.dom) st = true ∧ stampEnd s v.dom 0 = none ∧
        inGapCal (getSquall s 0) v.dom st = false ∧ (getSquall s 0).dom = some v.dom ∧ virQuantity v.entry = 1 ∧ v.lostSince = 0) ∧
    (inGapCal (getSquall (stamping (stamps none) 516) 0) 0 st = true) ∧
    (∀ b ∈ [true, false],
      let v : Virga := { stamps none with stamping := b }
      let s := stamping v 0
      v.active = true ∧ v.stamping = b ∧ runOver s v 0 = false ∧ v.from_.isSome = true ∧ (getSquall s 0).dom = some v.dom ∧
        (getSquall s 0).gap = true) ∧
    (runOver (stamping { stamps none with ended := true } 0) { stamps none with ended := true } 0 = true) ∧
    (calResult 32768 65536 64 ≠ none ∧ calResult 0 0 64 = none) := by
  dsimp only; refine ⟨?_, ?_, ?_, ?_, ?_⟩ <;> decide +kernel

/-- A Squall plan with a section for bank 0: two units for pin states, two for segments, one vector after a trigger,
segments of two words within 100 ECLK (R207, R208). The exit of state 1's first timer enters state 2 after one ECLK. -/
def squImg : Bytes :=
  le 2 0x101 ++ (zero 14 ++ (le 1 2 ++ (le 1 2 ++ (zero 2 ++ (le 4 3 ++ (le 4 0 ++ (le 4 1 ++ (le 2 100 ++ (le 2 2 ++
    (zero 12 ++ (zero 40 ++ (zero 12 ++ (le 1 0x52 ++ zero 1019)))))))))))))

/-- The Squall of bank 0 of the running job. -/
def capturing (q : Squall) : State :=
  { running_ 0 with
    doms := [(0, { slot 0 with payload := job 0 0 0 0 1 0 0 })], images := [(6, { kind := 6, data := squImg })]
    squalls := [(0, { q with dom := some 0 })] }

/-- A pin-state record, triggered or not. -/
def record (trig : Option Nat) : StateRec :=
  { number := 0, armV := 1, trig := trig, trigE := 0, trigAt := .zero, state := 0, force := false, flags := 0, rows := [(5, 0)] }

/-- An event word of CH0. -/
def aWord : EventWord := { stamp := 1, channel := 0, input := false, falling := false, merged := false, stale := false, lost := 0 }

/-- An open segment with `n` words. -/
def segment (n : Nat) : Segment :=
  { number := 0, trigS := 0, trigV := 0, trigAt := .zero, source := 0, missed := 0, openE := 5
    words := List.replicate n aWord, flags := 0, mask := 0 }

theorem witness_CaptureActionsAct :
    let at_ (a : CaptAction) (r : Option StateRec) : Squall := { Squall.init with capts := [(4, a)], armed := true, record := r }
    (∀ a ∈ [CaptAction.arm, .force, .stop], ∀ r ∈ [none, some (record none)],
      let s := capturing (at_ a r)
      let q := getSquall s 0
      q.dom = some 0 ∧ q.capts = [(4, a)] ∧ sqlStateUnits (getImage s (jobSqu (getDom s 0).payload)).data 0 ≠ 0 ∧
        (q.record.isSome || q.closed.any CapRec.isRec) = r.isSome ∧ q.armed = true ∧ q.stopV = none ∧
        q.trigEclk ≠ some (getDom s 0).eclk ∧ q.fill + 128 * (wordsOf q).length ≤ 524288 ∧ q.record = r ∧ q.seg = none ∧
        (r.all (fun r => r.trig.isNone)) = true) ∧
    (({ at_ .force none with armed := false } : Squall).armed = false) := by
  dsimp only; refine ⟨?_, ?_⟩ <;> decide +kernel

theorem witness_SequencerRunsOnce :
    let s (st : Nat) := capturing { Squall.init with armed := true, eclk := 9, state := st }
    (∀ st ∈ [0, 1], (getSquall (s st) 0).dom = some 0 ∧ (getSquall (s st) 0).eclk < (getDom (s st) 0).eclk ∧
      (getSquall (s st) 0).armed = true ∧ (getSquall (s st) 0).halted = false ∧ (getSquall (s st) 0).capts = [] ∧
      (getSquall (s st) 0).incoming = [] ∧ (getDom (s st) 0).phase ≠ .free ∧ (getDom (s st) 0).ended = none ∧
      (getDom (s st) 0).undo = [] ∧ (s st).anvil.state = .running) ∧
    (∀ fired, actingExit squImg 0 0 fired = none) ∧
    (bit (sqlState squImg 0 1 0xA 1) 6 = false ∧ bit (sqlState squImg 0 1 0xB 1) 6 = false ∧ bit (sqlState squImg 0 1 0xC 1) 6 = true ∧
      bit (sqlState squImg 0 1 0xC 1) 5 = false ∧ bit (sqlState squImg 0 1 0xC 1) 4 = true ∧
      (getSquall (s 1) 0).tmr0 + 1 = sqlState squImg 0 1 0x20 4 + 1 ∧ (getSquall (s 1) 0).trigEclk ≠ some (getDom (s 1) 0).eclk) := by
  dsimp only
  refine ⟨by decide +kernel, fun fired => ?_, by decide +kernel⟩
  have h : bit (sqlState squImg 0 0 10 1) 6 = false ∧ bit (sqlState squImg 0 0 11 1) 6 = false ∧
      bit (sqlState squImg 0 0 12 1) 6 = false ∧ bit (sqlState squImg 0 0 13 1) 6 = false := by decide +kernel
  simp [actingExit, h, List.range_succ]

theorem witness_SegmentsCollectAndClose :
    let p := squImg
    (∀ e ∈ [9, 10], ∀ n ∈ [(0, 512), (524288, 127), (524288, 128)],
      let s := capturing { Squall.init with incoming := [(e, aWord)], seg := some (segment 1), fill := n.1, drain := n.2 }
      let q := getSquall s 0
      q.dom = some 0 ∧ q.seg = some (segment 1) ∧ q.incoming.find? (fun e => e.2 = aWord) = some (e, aWord) ∧
        decide (e ≤ nowEclk (getDom s 0)) = decide (e = 9) ∧ nowEclk (getDom s 0) ≤ (segment 1).openE + sqlWindow p 0 ∧
        (segment 1).words.length < sqlMaxEvents p 0 ∧
        decide (q.fill + 128 - min q.drain (q.fill + 128) ≤ 524288) = decide (n ≠ (524288, 127))) ∧
    (∀ x ∈ [slot 0, { slot 0 with eclk := 106 }, { slot 0 with ended := some ⟨0, 0, 0, 0, true, true⟩, phase := .ending }],
      let g := segment (if x.eclk = 10 ∧ x.ended = none then 2 else 0)
      let s := { capturing { Squall.init with seg := some g } with
        doms := [(0, { x with payload := job 0 0 0 0 1 0 0 })]
        sites := if x.ended = none then [] else [(0, { Site.init with parked := true }), (1, { Site.init with parked := true })] }
      (getSquall s 0).dom = some 0 ∧ (getSquall s 0).seg = some g ∧
        (sqlMaxEvents p 0 ≤ g.words.length ∨ g.openE + sqlWindow p 0 ≤ nowEclk (getDom s 0) ∨
          (settled s 0 = true ∧ allParked s 0 = true)) ∧ (getSquall s 0).incoming = []) ∧
    (∀ e ∈ [8, 9],
      let s := capturing { Squall.init with gap := true, gapEnd := e }
      (getSquall s 0).dom = some 0 ∧ (getSquall s 0).gap = true ∧ decide ((getSquall s 0).gapEnd < nowEclk (getDom s 0)) = decide (e = 8)) := by
  dsimp only; refine ⟨?_, ?_, ?_⟩ <;> decide +kernel

/-- A closed capture record of `n` bytes. -/
def capRec (n : Nat) : CapRec := { number := 0, isRec := false, data := zero n, space := 64, sent := 0 }

theorem witness_RecordsLeave :
    let s := capturing { Squall.init with record := some (record (some 5)) }
    let done := { setDom s 0 { getDom s 0 with ended := some ⟨0, 0, 0, 0, true, true⟩, phase := .ending } with
      sites := [(0, { Site.init with parked := true }), (1, { Site.init with parked := true })] }
    let l := setDom (running_ 0) 0 { slot 0 with records := [(1, [1]), (2, [2])] }
    ((getSquall s 0).dom = some 0 ∧ (getSquall s 0).record = some (record (some 5)) ∧
      (record (some 5)).rows.any (fun e => 5 + sqlPost squImg 0 ≤ e.1 + 1) = true ∧ settled done 0 = true) ∧
    (∀ n ∈ [65504, 65505],
      let u := capturing { Squall.init with closed := [capRec n] }
      (getSquall u 0).dom = some 0 ∧ (getSquall u 0).closed = [capRec n] ∧ shadow u = false ∧
        Takes u 35 65520 ∧ (getDom u 0).phase ≠ .free ∧ (getDom u 0).ended = none ∧ (getDom u 0).undo = [] ∧ u.anvil.state = .running) ∧
    (∀ n, (capRec n).data.length = n) ∧
    ((getDom l 0).records ≠ [] ∧ (getDom l 0).records.length ≤ 64 ∧ (getDom l 0).recordsAt + us 1 ≤ l.now ∧ shadow l = false ∧
      (getDom l 0).halted = false ∧ Takes l 19 (16 + ((getDom l 0).records.map Prod.snd).flatten.length)) := by
  dsimp only
  refine ⟨by decide +kernel, ?_, fun n => by simp [capRec, zero], by decide +kernel⟩
  intro n _
  have h : Takes (capturing Squall.init) 35 65520 ∧ (getDom (capturing Squall.init) 0).phase ≠ .free := by decide +kernel
  exact ⟨rfl, rfl, rfl, h.1, h.2, rfl, rfl, rfl⟩


/-- An Aurora step: kind and flags, next_mode, jev_src and jev_arg, the three targets, one play of 8 granules, segment or
length, and the first frequency word (R233). -/
def aurStepBytes (kind mode jsrc jarg next call jump wide : Nat) : Bytes :=
  le 1 kind ++ (le 1 mode ++ (le 1 jsrc ++ (le 1 jarg ++ (le 2 next ++ (le 2 call ++ (le 2 jump ++ (zero 6 ++ (le 4 wide ++
    (zero 12 ++ (le 8 1000 ++ zero 8))))))))))

/-- An Aurora image for channel 0: steps 0 to 3 are tones that go on, call, return and stop; step 0 is left at once by marker
9 for step 3; step 4 streams a segment (R230 to R233). -/
def aurImg : Bytes :=
  le 2 0x101 ++ (zero 14 ++ (le 8 128 ++ (zero 104 ++ (le 2 5 ++ (le 2 1 ++ (le 2 0 ++ (zero 6 ++ (le 1 8 ++ (zero 51 ++
    (aurStepBytes 13 0 1 9 1 0 3 7 ++ (aurStepBytes 1 1 0 0 2 3 0 7 ++ (aurStepBytes 1 2 0 0 0 0 0 7 ++
    (aurStepBytes 1 3 0 0 0 0 0 7 ++ (aurStepBytes 0 3 0 0 0 0 0 0 ++ (le 8 1024 ++ (le 4 512 ++ (le 1 1 ++ zero 3)))))))))))))))))

/-- Aurora channel 0 of the running job. -/
def waving (a : Aurora) : State :=
  { running_ 0 with
    doms := [(0, { slot 0 with payload := job 0 0 0 0 0 1 0 })], images := [(5, { kind := 5, data := aurImg })]
    auroras := [(0, { a with dom := some 0, image := some 5 })] }

theorem witness_AuroraSteps :
    let due := waving { Aurora.init with armed := true, due := some (.mark 1, 10) }
    let plays (st : Nat) : Aurora := { Aurora.init with playing := true, step := st, stack := [1] }
    let b := aurImage (waving Aurora.init) 0
    ((getAurora due 0).due = some (.mark 1, 10) ∧ (getAurora due 0).armed = true ∧
      near4 ((655370 + 4096 : Nat) : Int) ((10 : Int) + 655360 + fld (aurImage due 0) (aurSec (aurImage due 0) 0 + 0x10) 4 * sampleFtu) = true) ∧
    (∀ st ∈ [0, 1, 2, 3],
      let a := getAurora (waving (plays st)) 0
      a.playing = true ∧ a.taken = none ∧ unregistered a (stepEnd b 0 a) = false ∧ aurStep b 0 a.step 1 1 = st ∧ a.stack = [1]) ∧
    (let a := getAurora (waving { plays 0 with taken := some 5 }) 0
     a.playing = true ∧ a.taken = some 5 ∧ unregistered a 5 = false) := by
  dsimp only; refine ⟨?_, ?_, ?_⟩ <;> decide +kernel

theorem witness_AuroraRequests :
    let asks (a : Aurora) : State := waving { a with requests := [(.mark 9, 10)] }
    let plays := { Aurora.init with playing := true }
    let arrived (a : Aurora) (c : BitVec 8) : State := waving { a with playing := true, arrived := [(3, .mark c)] }
    let ring := { Aurora.init with pathStep := 4, flight := [64] }
    let b := aurImage (waving plays) 0
    (∀ a ∈ [Aurora.init, plays, { plays with ball := 394250 }],
      (getAurora (asks a) 0).requests.find? (fun x => x.1 = .mark 9) = some (.mark 9, 10)) ∧
    (near4 ((plays.ball : Int) + 384 * 1024) (10 + 393216) = true ∧ plays.stepG ≤ (384 : Int).toNat / 64 ∧
      near4 (((394250 : Nat) : Int) + (-1) * 1024) (10 + 393216) = true) ∧
    (∀ s ∈ [arrived .init 9, arrived .init 8, arrived { Aurora.init with taken := some 6 } 9],
      (getAurora s 0).playing = true ∧ 3 + 1 < (getAurora s 0).taken.getD (stepEnd b 0 (getAurora s 0))) ∧
    (jevMatches b 0 0 (.mark 9) = true ∧ jevMatches b 0 0 (.mark 8) = false) ∧
    (∀ st ∈ [DramState.service, .selfRefresh, .frozen],
     let n := { waving ring with dram := { base.dram with state := st } }
     dramServing n = decide (st = .service) ∧ n.dram.waiting = [] ∧ (getAurora n 0).dom.isSome = true ∧ aurRequest b 0 (getAurora n 0) 4096 ≠ 0 ∧ genOk n 0 4096 = true ∧
       8 * aurRequest b 0 (getAurora n 0) 4096 ≤ bucketLevel n (aurKey 0) (aurStream b 0) ∧ (getAurora n 0).flight = [64]) ∧
    (converted (waving plays) 0 = 80 ∧ 80 + 4096 < 4177) := by
  dsimp only; refine ⟨?_, ?_, ?_, ?_, ?_, ?_⟩ <;> decide +kernel

theorem witness_AuroraStops :
    let u := waving { Aurora.init with playing := true, step := 4 }
    let o := waving Aurora.init
    let e := waving { Aurora.init with enabled := true, playing := true }
    let b := aurImage u 0
    let a := getAurora u 0
    (a.dom = some 0 ∧ a.playing = true ∧ aurStreamed b 0 a.step = true ∧ 64 * a.stepG ≤ 0 ∧ 0 < 64 * a.taken.getD (stepEnd b 0 a) ∧
      generated u 0 ≤ 0 ∧ 0 ≤ converted u 0 ∧ a.landed < bytesNeeded b 0 a 0) ∧
    ((getAurora o 0).dom = some 0 ∧ (getAurora o 0).enabled = false ∧ (getAurora o 0).started = false ∧ (getAurora o 0).cause = 0 ∧
      o.anvil.state = .running) ∧
    ((getAurora e 0).enabled = true) ∧
    (a.dom = some 0 ∧ a.playing = true ∧ u.anvil.state = .running ∧ (getDom u 0).phase ≠ .free ∧ (getDom u 0).ended = none ∧
      (getDom u 0).undo = []) := by
  dsimp only; refine ⟨?_, ?_, ?_, ?_⟩ <;> decide +kernel

end Sys2Proof.Tests
end

