-- ==== Sys2Proof/Tests/WitnessWords.lean ====
section
/-! SUPPORT. States and operands that meet the hypotheses of the statements about sequence words and microwords, clause by
clause. -/

namespace Sys2Proof.Tests

set_option Elab.async false

open Sys2Proof.Machine

/-- A constant emission of `n` vectors. -/
def emitN (n : BitVec 16) : Emit := { src := .const, sym := 3, ecount := n }

/-- The running job of flags `flags` whose program is copies of a word, with its flow 0 as given, in flow 1 as well where it is
site-free. -/
def flowed (flags w : Nat) (f : Flow) : State := { programmed w (running_ flags) with flows := [(0, f), (1, f)] }

/-- A flow with `n` loop levels open in the outermost frame. -/
def loops (n count : Nat) : Flow := { Flow.init with loops := List.replicate n { count := count, addr := 1, marks := [] } }

/-- A flow in the second command of a word. -/
def inOp (op v : Nat) : Flow := { Flow.init with waits := .word op v, nextV := 10, pushed := 10 }

/-- The running job with every unit claimed, its program copies of a word. -/
def claimed (flags w : Nat) : State :=
  let s := programmed w (running_ flags)
  { s with
    doms := [(0, { slot flags with payload := job flags 0 0 1 1 1 1 })]
    images := s.images ++ [(4, { kind := 4, data := le 2 1 ++ (le 2 2 ++ zero 700) })] }

/-- The emissions of the word commands below. -/
def none_ : Emit := emitN 0
def one_ : Emit := emitN 1

theorem witness_EmissionWordsPlay :
    Dispatches (flowed 0 (wordOf 0 0 0) .init) 0 1 (.nop 0 1) ∧
    (Dispatches (flowed 1 (wordOf 1 65535 0) .init) 0 1 (.vec 0 1 (emitN 65535)) ∧ 1 ≤ (emitN 65535).ecount.toNat) ∧
    (Dispatches (flowed 0 (wordOf 2 1 2) .init) 0 1 (.rpt 0 1 one_ 3) ∧ 1 ≤ one_.ecount.toNat) := by decide +kernel

theorem witness_ControlWordsAct :
    let r : Flow := { loops 2 1 with stack := [(3, 2), (1, 0)] }
    let both (op low : Nat) (f : Flow) (i : Emit → Instr) : Prop :=
      Dispatches (flowed 0 (wordOf op 0 low) f) 0 0 (i none_) ∧ Dispatches (flowed 0 (wordOf op 1 low) f) 0 0 (i one_) ∧
      Finishes (flowed 0 (wordOf op 1 low) { f with waits := .word op 0 }) 0 0 (i one_) op
    both 0x04 1 (loops 7 1) (fun e => .loop 0 0 e 2) ∧
    (∀ n ∈ [1, 2], both 0x05 0 (loops 1 n) (fun e => .endl 0 0 e) ∧ frameBase (loops 1 n) < (loops 1 n).loops.length) ∧
    both 0x08 5 r (fun e => .call 0 0 e 5) ∧ r.stack = [(3, r.loops.length), (1, 0)] ∧ both 0x09 0 r (fun e => .ret 0 0 e) ∧
    both 0x0A (2 * 65536 + 9) r (fun e => .jmp 0 0 e 9 2) := by
  dsimp only; refine ⟨?_, ?_, ?_, ?_, ?_, ?_⟩ <;> decide +kernel

theorem witness_SettingWordsAct :
    let at_ (op low : Nat) (i : Instr) : Prop := Dispatches (claimed 0 (wordOf op 1 low)) 0 0 i
    let s := claimed 0 0
    let p := (getDom s 0).payload
    at_ 0x18 0 (.tset 0 0 one_ 0) ∧ timSetIx (timImage s p) (0 : BitVec 8).toNat ≠ none ∧ at_ 0x19 7 (.fmask 0 0 one_ 7) ∧
    at_ 0x1A 1 (.ledgSelect 0 0 one_ false 0) ∧ (0 : BitVec 16).toNat < 2 ^ jobItemBits p ∧ at_ 0x1A 2 (.ledgCommit 0 0 one_) ∧
    at_ 0x1A 3 (.ledgCommitSelect 0 0 one_ false 0) ∧
    at_ 0x1C (9 * 2 ^ 32 + 0x10101) (.mark 0 0 one_ 1 1 1 none 9) ∧ (1 : BitVec 8).toNat &&& jobAurs p = (1 : BitVec 8).toNat ∧
    (1 : BitVec 8).toNat &&& jobMarks p = (1 : BitVec 8).toNat ∧ (1 : BitVec 8).toNat &&& jobSquBanks p = (1 : BitVec 8).toNat ∧
    at_ 0x1D 0x101 (.capt 0 0 one_ 1 .arm) := by decide +kernel

theorem witness_BranchWordsDecide :
    let jsc (n c : Nat) : Nat := wordOf 0x0B n (c * 2 ^ 24 + 1 * 2 ^ 32)
    let i (n c : Nat) : Instr := .jsc 0 1 (emitN n) 0 0 (BitVec.ofNat 7 c) false .any
    let jev (n : Nat) : Nat := wordOf 0x0C n 0
    let k (n : Nat) : Instr := .jev 0 1 (emitN n) 0 0 0 false
    let y (s : State) : State := { s with sites := [(1, { Site.init with latches := [(0, 10)] })] }
    (∀ n ∈ [0, 1], Dispatches (flowed 0 (jsc n 0x60) (loops 1 1)) 0 1 (i n 0x60)) ∧
    Finishes (flowed 0 (jsc 1 0x60) (inOp 0x0B 8)) 0 1 (i 1 0x60) 0x0B ∧
    Dispatches (flowed 0 (jsc 1 0x5F) .init) 0 1 (i 1 0x5F) ∧
    (∀ v ∈ [8, 11], Redispatches (flowed 0 (jsc 1 0x5F) (inOp 0x0B v)) 0 1 (i 1 0x5F) 0x0B v ∧
      interlocked (flowed 0 (jsc 1 0x5F) (inOp 0x0B v)) 0 v (reduceSites (flowed 0 (jsc 1 0x5F) (inOp 0x0B v)) 0 1 .any) = (v == 8)) ∧
    (∀ n ∈ [0, 1], Dispatches (y (flowed 0 (jev n) .init)) 0 1 (k n) ∧ Dispatches (flowed 0 (jev n) .init) 0 1 (k n)) ∧
    Redispatches (y (flowed 0 (jev 1) (inOp 0x0C 8))) 0 1 (k 1) 0x0C 8 ∧
    latchSet (slot 0) { Site.init with latches := [(0, 10)] } 0 = true ∧ latchSet (slot 0) .init 0 = false ∧
    eventUnclaimed (slot 0).payload 0 = false := by
  dsimp only; refine ⟨?_, ?_, ?_, ?_, ?_, ?_, ?_, ?_, ?_⟩ <;> decide +kernel

theorem witness_MatchPlaysAndEnds :
    let w := wordOf 0x10 2 (0x61 * 2 ^ 24 + 2 * 2 ^ 32)
    let i : Instr := .wordMatch 0 1 (emitN 2) 0 0 0x61 3
    let s (m : Option Nat) (v : Nat) : State := { flowed 1 w (inOp 0x10 v) with sites := [(1, { Site.init with mStart := v, mBlock := 2, mFirst := m })] }
    Dispatches (flowed 1 w .init) 0 1 i ∧ Dispatches (flowed 0 w .init) 0 1 i ∧
    (Redispatches (s (some 1) 2) 0 1 i 0x10 2 ∧ flowActive (s (some 1) 2) 0 1 = [1] ∧
      matchEnd (getSite (s (some 1) 2) 0 1) (ceilDiv (slot 1).ret 2) 3 = some 2) ∧
    (Redispatches (s none 2) 0 1 i 0x10 2 ∧ matchKnown (slot 1) (getSite (s none 2) 0 1) (ceilDiv (slot 1).ret 2) 3 = true) ∧
    (Redispatches (s none 20) 0 1 i 0x10 20 ∧ matchKnown (slot 1) (getSite (s none 20) 0 1) (ceilDiv (slot 1).ret 2) 3 = false) := by
  dsimp only; refine ⟨?_, ?_, ?_, ?_, ?_⟩ <;> decide +kernel

theorem witness_WaitPlaysAndEnds :
    let w (n : Nat) : Nat := wordOf 0x11 2 ((n - 1) * 2 ^ 32)
    let i (n : Nat) : Instr := .wait 0 1 (emitN 2) 0 0 0 n
    let set (s : State) : State := { s with sites := [(1, { Site.init with latches := [(0, 6)] })] }
    let period := jobPeriod base (slot 1).payload
    Dispatches (set (flowed 1 (w 3) .init)) 0 1 (i 3) ∧ Dispatches (flowed 1 (w 3) .init) 0 1 (i 3) ∧
    latchSet (slot 1) { Site.init with latches := [(0, 6)] } 0 = true ∧
    (∀ n ∈ [3, 9], Redispatches (set (flowed 1 (w n) (inOp 0x11 2))) 0 1 (i n) 0x11 2 ∧
      Redispatches (flowed 1 (w n) (inOp 0x11 2)) 0 1 (i n) 0x11 2) ∧
    6 ≤ waitLimit period 2 2 3 ∧ waitLimit period 2 2 3 ≤ clock (slot 1) ∧ clock (slot 1) < waitLimit period 2 2 9 := by
  dsimp only; refine ⟨?_, ?_, ?_, ?_, ?_⟩ <;> decide +kernel

theorem witness_BarrierWordsAct :
    let s (flags entry banks : Nat) : State := claimed flags (wordOf 0x20 0 (banks + entry * 256 + 2 * 2 ^ 32))
    let apg (entry : Nat) (banks : BitVec 8) : Instr := .apg 0 1 none_ banks entry 3
    let b (flags : Nat) : State := flowed flags (wordOf 0x12 2 0) .init
    let barr : Instr := .barr 0 1 (emitN 2)
    (∀ flags ∈ [0, 1], Dispatches (b flags) 0 1 barr ∧ activeSites (b flags) 0 = [0, 1]) ∧
    (∀ flags ∈ [0, 1], Dispatches (s flags 1 1) 0 1 (apg 1 1) ∧ ownsPin (s flags 1 1) 0 1 1 = true ∧ apgSites (s flags 1 1) 0 1 = [0, 1]) ∧
    (Dispatches (s 1 1 0) 0 1 (apg 1 0) ∧ ownsPin (s 1 1 0) 0 0 1 = false) ∧
    (1 : BitVec 8).toNat &&& jobCumBanks (getDom (s 0 1 1) 0).payload = (1 : BitVec 8).toNat ∧
    1 < cumInstrs (cumImage (s 0 1 1) (getDom (s 0 1 1) 0).payload) ∧
    (∀ i : Fin 2, barrierAddr (theFlow (b 1) 0 i) = none ∧ barrierAddr (theFlow (s 1 1 1) 0 i) = none) := by
  dsimp only; refine ⟨?_, ?_, ?_, ?_, ?_, ?_⟩ <;> decide +kernel

theorem witness_HaltRetires :
    let s (flags n : Nat) (f : Flow) : State := flowed flags (wordOf 0x3F n 0) f
    let i (n : Nat) : Instr := .halt 0 1 (emitN n)
    let last : State := { s 1 0 .init with sites := [(0, { Site.init with retired := some 3 })] }
    (∀ flags ∈ [0, 1], Dispatches (s flags 0 .init) 0 1 (i 0) ∧ Dispatches (s flags 1 .init) 0 1 (i 1) ∧
      Finishes (s flags 1 (inOp 0x3F 4)) 0 1 (i 1) 0x3F) ∧
    (slot 0).sites = jobSites (slot 0).payload ∧ (slot 0).ended = none ∧
    (Dispatches last 0 1 (i 0) ∧ activeSites last 0 = [1] ∧ ∀ j : Fin 2, (getSite last 0 j).event = none) ∧
    (0 ∈ activeSites (s 1 0 .init) 0 ∧ ∀ j : Fin 2, barrierAddr (theFlow (s 1 0 .init) 0 j) = none) := by
  dsimp only; refine ⟨?_, ?_, ?_, ?_, ?_⟩ <;> decide +kernel

theorem witness_ProgramErrorsDiscard :
    let at_ (op low : Nat) (f : Flow) (i : Instr) : Prop := Dispatches (flowed 0 (wordOf op 0 low) f) 0 0 i
    let late (op low : Nat) (f : Flow) (i : Instr) : Prop :=
      Finishes (flowed 0 (wordOf op 1 low) { f with waits := .word op 0 }) 0 0 i op
    let full : Flow := { Flow.init with stack := List.replicate 16 (1, 0) }
    let deep : Flow := { loops 1 1 with stack := [(1, 0)] }
    let p := (slot 0).payload
    at_ 0x04 1 (loops 8 1) (.loop 0 0 none_ 2) ∧ late 0x04 1 (loops 8 1) (.loop 0 0 one_ 2) ∧
    at_ 0x05 0 .init (.endl 0 0 none_) ∧ at_ 0x0A (3 * 65536) .init (.jmp 0 0 none_ 0 3) ∧ at_ 0x08 1 full (.call 0 0 none_ 1) ∧
    at_ 0x09 0 .init (.ret 0 0 none_) ∧ (at_ 0x09 0 deep (.ret 0 0 none_) ∧ deep.loops.length ≠ 0) ∧
    (canDispatch (flowed 0 0 { Flow.init with nsa := 4 }) 0 0 = true ∧ progWords (seqImage (flowed 0 0 .init) p) ≤ 4) ∧
    (at_ 0x18 1 .init (.tset 0 0 none_ 1) ∧ timSetIx (timImage (flowed 0 0 .init) p) (1 : BitVec 8).toNat = none) ∧
    (at_ 0x1A (1 * 65536 + 1) .init (.ledgSelect 0 0 none_ false 1) ∧ 2 ^ jobItemBits p ≤ (1 : BitVec 16).toNat) ∧
    (Dispatches (claimed 0 (wordOf 0x20 0 (1 + 0xFFFF * 256))) 0 0 (.apg 0 0 none_ 1 0xFFFF 1) ∧
      cumInstrs (cumImage (claimed 0 0) (getDom (claimed 0 0) 0).payload) ≤ 0xFFFF) ∧
    at_ 0x20 2 .init (.apg 0 0 none_ 2 0 1) ∧ at_ 0x0B (0x62 * 2 ^ 24) .init (.jsc 0 0 none_ 0 0 0x62 false .own) ∧
    at_ 0x1C 2 .init (.mark 0 0 none_ 2 0 0 none 0) ∧
    (at_ 0x1D 0x102 .init (.capt 0 0 none_ 2 .arm) ∧ (2 : BitVec 8).toNat &&& jobSquBanks p ≠ (2 : BitVec 8).toNat) ∧
    (at_ 0x0C (17 * 2 ^ 24) .init (.jev 0 0 none_ 0 0 17 false) ∧ eventUnclaimed p (17 : Fin 24) = true) := by
  dsimp only; refine ⟨?_, ?_, ?_, ?_, ?_, ?_, ?_, ?_, ?_, ?_, ?_, ?_, ?_, ?_, ?_, ?_⟩ <;> decide +kernel

/-- A stored word whose only function bits are those of group 0, `g`; the parity bit of every group is as R78 asks. -/
def stored (g : Nat) : Microword := BitVec.ofNat 160 (g + (2 ^ 144 - 1) / 65535 * 65536 * 32768)

/-- The running job with every engine's word at address 0 as given. -/
def storing (flags : Nat) (w : Microword) : State := { running_ flags with store := { Store.init with image := [(0, w)], reload := [3], diagBusy := true } }

theorem witness_ControlStoreRunsAndChecks :
    (∀ g ∈ [0x8000, 0x9400], Reads (storing 1 (stored g)) 0 1 ∧
      (let fb := funcBits (storeWord (storing 1 (stored g)) 1 0)
       flowPins (slot 1).payload 1 = [1] ∧ parityChannels (storing 1 (stored g)) [1] 0 = [] ∧
       fb < 2 ^ 13 ∧ bits fb 12 10 ≠ 3 ∧ bits fb 12 10 ≠ 4)) ∧ jobPin (slot 1).payload 1 = true ∧
    (Reads (storing 0 (stored 0)) 0 1 ∧ (storing 0 (stored 0)).anvil.state = .running ∧ (slot 0).ended = none ∧
      parityChannels (storing 0 (stored 0)) [0, 1] 0 = [0, 1]) := by
  refine ⟨?_, ?_, ?_⟩ <;> decide +kernel

theorem witness_ControlStoreReloadsAndReads :
    let s := storing 0 0
    (3 : Fin 256).val ∈ s.store.reload ∧ (4 : Fin 256).val ∉ s.store.reload ∧ s.anvil.state = .running ∧ s.store.diagBusy = true ∧
      base.store.diagBusy = false := by decide +kernel

end Sys2Proof.Tests
end

section
/-! SUPPORT. The sequence words that emit and that change the flow (R43 to R54): what the frame of a word does where the engine
dispatches or finishes it, what a push leaves in the flow, and the rewind of `ENDL`. -/

namespace Sys2Proof.Machine

/-! ### The frame of a word -/

/-- The flow once it has fetched the word at NSA. -/
def fetched (f : Flow) : Flow := { f with sa := f.nsa, nsa := f.nsa + 1 }

/-- The flow once the word that began at vector `v` is charged its ECLK without a push (R48). -/
def charged (g : Flow) (base v : Nat) : Flow :=
  let n := base - 1 + (if g.nextV = v then 1 else 0)
  { g with costs := g.costs ++ if n = 0 then [] else [(g.nextV, n)] }

/-- A word of base cost 1 that pushed something is charged nothing more (R48). -/
theorem charged_of_pushed {g : Flow} {v : Nat} (h : g.nextV ≠ v) : charged g 1 v = g := by
  simp [charged, h]

theorem charge_setFlow (s : State) (d fi base v : Nat) (g : Flow) :
    charge (setFlow s d fi g) d fi base v = setFlow s d fi (charged g base v) := by
  simp only [charge, charged, getFlow_setFlow, setFlow_setFlow]
  generalize base - 1 + (if g.nextV = v then 1 else 0) = n
  by_cases hn : n = 0 <;> simp [hn]

theorem takeEvents_undisturbed {s : State} {d fi : Nat} (h : Undisturbed s d fi) : takeEvents s d fi = s := by
  have none_due : (flowActive s d fi).filter (fun k => pending (getSite s d k).cancelDue (theClock s d) ||
      pending (getSite s d k).stopDue (theClock s d)) = [] := by
    rw [List.filter_eq_nil_iff]
    intro j hj
    obtain ⟨hcancel, hstop⟩ := h j hj
    simp [hcancel, hstop]
  unfold takeEvents
  dsimp only
  split
  · rfl
  · exact absurd none_due ‹_›

/-- A flow that can dispatch is followed by a site and idle. -/
theorem canDispatch_idle {s : State} {d fi : Nat} (h : canDispatch s d fi = true) :
    flowActive s d fi ≠ [] ∧ (getFlow s d fi).waits = .none ∧ (getFlow s d fi).costs = [] := by
  simp only [canDispatch, Bool.and_eq_true, decide_eq_true_eq] at h
  obtain ⟨⟨⟨⟨-, hactive⟩, hwaits⟩, -⟩, hcosts⟩ := h
  exact ⟨hactive, hwaits, hcosts⟩

section
variable {s : State} {d : Fin 16} {k : Fin 256} {i : Instr}

theorem word_of_dispatches (h : Dispatches s d k i) (base : Nat) (body : State → Nat → Flow → State) :
    word s d k i base body =
      charge (body s (flowOf s d k) (fetched (theFlow s d k))) d (flowOf s d k) base (theFlow s d k).nextV := by
  obtain ⟨hcan, hk, hquiet, hnsa, hspells⟩ := h
  obtain ⟨hactive, -, -⟩ := canDispatch_idle hcan
  simp only [theFlow, flowOf] at *
  simp [word, fetched, hcan, hk, hspells, takeEvents_undisturbed hquiet, hactive, Nat.not_le.mpr hnsa]

theorem Dispatches.waits (h : Dispatches s d k i) : (theFlow s d k).waits = .none :=
  have ⟨_, hwaits, _⟩ := canDispatch_idle h.1
  hwaits

theorem Dispatches.costs (h : Dispatches s d k i) : (theFlow s d k).costs = [] :=
  have ⟨_, _, hcosts⟩ := canDispatch_idle h.1
  hcosts

theorem Dispatches.inWord (h : Dispatches s d k i) (op : Nat) : inWord s d k op = false := by
  have hw : (getFlow s d (flowIx (getDom s d).payload k)).waits = .none := h.waits
  simp [Machine.inWord, hw]

variable {op base : Nat} {e : Emit} {act : Bool → State → Nat → Flow → State}

theorem emitThen_opens (h : Dispatches s d k i) (he : e.ecount ≠ 0) :
    emitThen s d k i op base e act = setFlow s d (flowOf s d k)
      (charged { emit s d (flowOf s d k) (fetched (theFlow s d k)) e with waits := .word op (theFlow s d k).nextV } base
        (theFlow s d k).nextV) := by
  rw [emitThen, if_neg (by simp [h.inWord]), word_of_dispatches h, if_neg he, charge_setFlow]
  rfl

theorem emitThen_acts_at_once (h : Dispatches s d k i) (he : e.ecount = 0) :
    emitThen s d k i op base e act = charge (act false s (flowOf s d k) (fetched (theFlow s d k))) d (flowOf s d k) base
      (theFlow s d k).nextV := by
  rw [emitThen, if_neg (by simp [h.inWord]), word_of_dispatches h, if_pos he]

theorem emitThen_acts_late (h : Finishes s d k i op) :
    emitThen s d k i op base e act = act true s (flowOf s d k) { theFlow s d k with waits := .none } := by
  obtain ⟨hrun, hk, hactive, hspells, hpushed, hcosts, hin⟩ := h
  simp only [theFlow, flowOf] at *
  simp only [emitThen, hin, if_true, finish, hrun, hk, hactive, hspells, hpushed, hcosts, ne_eq, not_false_eq_true, and_self]
  simp only [inWord] at hin
  split at hin
  · simp [of_decide_eq_true hin]
  · simp at hin

end

/-! ### What a push leaves in the flow -/

/-- The stretch of vectors a push adds to the queue. -/
def pushedRun (f : Flow) (src : Src) (sym n block cmp cum : Nat) : Run :=
  { v := f.nextV, count := n, src := src, sym := sym, block := block,
    base := (match src with | .stream => f.pos | .again => f.last | .const => []),
    tset := f.tset, cmp := cmp, item := f.item, mask := f.mask, cum := cum, starve := false }

section
variable (s : State) (d fi : Nat) (f : Flow) (src : Src) (sym n block cmp cum : Nat)

theorem push_zero : push s d fi f src sym 0 block cmp cum = f := by simp [push]

/-- A push moves the queue, the vector count, the streams and the last symbols alone. -/
theorem push_frame : ∃ q v l p, push s d fi f src sym n block cmp cum =
    { f with queue := q, nextV := v, last := l, pos := p } := by
  unfold push
  split
  · exact ⟨_, _, _, _, rfl⟩
  · exact ⟨_, _, _, _, rfl⟩

@[simp] theorem push_nextV : (push s d fi f src sym n block cmp cum).nextV = f.nextV + n := by
  unfold push
  split <;> simp [*]

variable {n}

theorem push_queue (hn : 0 < n) :
    (push s d fi f src sym n block cmp cum).queue = f.queue ++ [pushedRun f src sym n block cmp cum] := by
  simp only [push, if_neg (Nat.ne_of_gt hn)]
  rfl

theorem ownPins_without_cumulus (p : Bytes) : ownPins s p fi 0 = flowPins p fi := by
  simp [ownPins, handed, bit]

/-- However often its block plays, a push moves the streams on by one pass of it (R45). -/
theorem push_pos (hn : 0 < n) :
    (push s d fi f src sym n block cmp 0).pos =
      if src = .stream then advance (flowPins (getDom s d).payload fi) (if block = 0 then n else min n block) f.pos else f.pos := by
  simp [push, Nat.ne_of_gt hn, ownPins_without_cumulus]

end

/-- A pushed run plays the symbols of its source, pass by pass of its block (R43, R45). -/
theorem runSym_pushedRun (str : Bytes) (f : Flow) (e : Emit) (n block cmp cum ch i : Nat) :
    runSym str (pushedRun f e.src e.sym.toNat n block cmp cum) ch (f.nextV + i) =
      sourceSym str f e ch (if block = 0 then i else i % block) := by
  cases hsrc : e.src <;> simp [runSym, pushedRun, sourceSym, hsrc]

/-- A flow that fetches a word and pushes `n` vectors of its source plays the word's emission. -/
theorem plays_push (s : State) (d fi : Nat) (f : Flow) (e : Emit) (n block : Nat) :
    Plays f (push s d fi (fetched f) e.src e.sym.toNat n block 0 0) e n := by
  obtain ⟨q, v, l, p, hg⟩ := push_frame s d fi (fetched f) e.src e.sym.toNat n block 0 0
  refine ⟨by rw [hg]; rfl, push_nextV .., ?_, ?_⟩
  · rintro rfl
    rw [push_zero]; rfl
  · intro hn
    refine ⟨_, push_queue s d fi _ _ _ block 0 0 hn, ?_⟩
    rw [hg]
    exact ⟨rfl, rfl, rfl, rfl, rfl, rfl, rfl⟩

/-! ### The rewind of `ENDL` (R111) -/

theorem rewindRing_rewindRing (r : PinRing) (i : Nat) : rewindRing (rewindRing r i) i = rewindRing r i := rfl

theorem rewindRings_frame (s : State) (pins : List Nat) (marks : Tbl Nat) :
    rewindRings s pins marks = { s with rings := (rewindRings s pins marks).rings } := by
  induction pins generalizing s with
  | nil => rfl
  | cons ch pins ih => exact ih (setRing s ch _)

theorem getRing_rewindRings (s : State) (pins : List Nat) (marks : Tbl Nat) (ch : Nat) :
    getRing (rewindRings s pins marks) ch =
      if ch ∈ pins then rewindRing (getRing s ch) (tget 0 marks ch) else getRing s ch := by
  induction pins generalizing s with
  | nil => rfl
  | cons c pins ih =>
    have step : rewindRings s (c :: pins) marks =
      rewindRings (setRing s c (rewindRing (getRing s c) (tget 0 marks c))) pins marks := rfl
    rw [step, ih]
    by_cases hc : ch = c
    · subst hc
      simp [rewindRing_rewindRing]
    · simp [hc, getRing_setRing_ne]

theorem tget_rewindTo (pins : List Nat) (marks pos : Tbl Nat) (ch : Nat) :
    tget 0 (rewindTo pins marks pos) ch = if ch ∈ pins then tget 0 marks ch else tget 0 pos ch := by
  induction pins generalizing pos with
  | nil => rfl
  | cons c pins ih =>
    have step : rewindTo (c :: pins) marks pos = rewindTo pins marks (tset 0 pos c (tget 0 marks c)) := rfl
    rw [step, ih, tget_tset]
    by_cases hc : ch = c <;> simp [hc]

/-! ### `NOP`, `VEC` and `RPT` -/

/-- What an emission word leaves of the flow: it goes on by one word and keeps its levels and its settings. -/
def GoesOn (f g : Flow) : Prop :=
  g.nsa = f.nsa + 1 ∧ g.loops = f.loops ∧ g.stack = f.stack ∧ g.tset = f.tset ∧
    g.mask = f.mask ∧ g.item = f.item ∧ g.acts = f.acts ∧ g.waits = .none

/-- `NOP` pushes nothing and costs one ECLK. -/
theorem exec_nop_of_dispatches {s : State} {d : Fin 16} {k : Fin 256} (h : Dispatches s d k (.nop d k)) :
    exec (.nop d k) s = .next (setFlow s d (flowOf s d k) (charged (fetched (theFlow s d k)) 1 (theFlow s d k).nextV)) := by
  have unfolded : exec (.nop d k) s = .next (word s d k (.nop d k) 1 (fun s fi f => setFlow s d fi f)) := rfl
  rw [unfolded, word_of_dispatches h, charge_setFlow]

/-- A word that pushes `n` vectors, block by block of `m`, and does nothing else: `VEC` pushes one block, `RPT` several. -/
theorem pushing_word_plays {s : State} {d : Fin 16} {k : Fin 256} {i : Instr} {e : Emit} {n m block : Nat}
    (hx : exec i s = .next (word s d k i 1 (fun s fi f => setFlow s d fi (push s d fi f e.src e.sym.toNat n block 0 0))))
    (h : Dispatches s d k i) (hm : 0 < m) (hmn : m ≤ n) (hblock : block = 0 ∧ m = n ∨ block = m) :
    let f := theFlow s d k
    let fi := flowOf s d k
    ∃ g, exec i s = .next (setFlow s d fi g) ∧ GoesOn f g ∧ Plays f g e n ∧
      (∃ r, g.queue = f.queue ++ [r] ∧
        ∀ str ch i, i < n → runSym str r ch (f.nextV + i) = sourceSym str f e ch (i % m)) ∧
      (g.pos = if e.src = .stream then advance (flowPins (getDom s d).payload fi) m f.pos else f.pos) ∧ g.costs = [] := by
  intro f fi
  have hn : 0 < n := Nat.lt_of_lt_of_le hm hmn
  obtain ⟨q, v, l, p, hg⟩ := push_frame s d fi (fetched f) e.src e.sym.toNat n block 0 0
  have uncharged : (push s d fi (fetched f) e.src e.sym.toNat n block 0 0).nextV ≠ f.nextV := by
    simp [fetched, Nat.ne_of_gt hn]
  refine ⟨push s d fi (fetched f) e.src e.sym.toNat n block 0 0,
    by rw [hx, word_of_dispatches h, charge_setFlow, charged_of_pushed uncharged], ?_, plays_push s d fi f e n block,
    ⟨_, push_queue s d fi _ _ _ block 0 0 hn, ?_⟩, ?_, ?_⟩
  · rw [hg]
    exact ⟨rfl, rfl, rfl, rfl, rfl, rfl, rfl, h.waits⟩
  · intro str ch j hj
    refine (runSym_pushedRun str (fetched f) e n block 0 0 ch j).trans ?_
    obtain ⟨rfl, rfl⟩ | rfl := hblock
    · rw [if_pos rfl, Nat.mod_eq_of_lt hj]; rfl
    · rw [if_neg (Nat.ne_of_gt hm)]; rfl
  · refine (push_pos s d fi (fetched f) e.src e.sym.toNat block 0 hn).trans ?_
    obtain ⟨rfl, rfl⟩ | rfl := hblock
    · rfl
    · rw [if_neg (Nat.ne_of_gt hm), Nat.min_eq_right hmn]; rfl
  · rw [hg]
    exact h.costs

/-- Settles O10: each word is its push, which `pushing_word_plays` describes. -/
theorem emissionWordsPlay : Obligations.EmissionWordsPlay := by
  intro s d k e f fi n same plays streams
  refine ⟨fun h => ?_, fun h hn => ?_, fun reps h hn hreps => ?_⟩
  · refine ⟨_, exec_nop_of_dispatches h, ⟨rfl, rfl, rfl, rfl, rfl, rfl, rfl, h.waits⟩,
      ⟨rfl, rfl, fun _ => rfl, nofun⟩, ?_, rfl, rfl⟩
    simp [charged, fetched, h.costs, f]
  · exact pushing_word_plays (m := n) (block := 0) rfl h hn (Nat.le_refl n) (.inl ⟨rfl, rfl⟩)
  · exact pushing_word_plays (m := n) (block := n) rfl h hn (Nat.le_mul_of_pos_right n hreps) (.inr rfl)

/-! ### `LOOP`, `ENDL`, `CALL`, `RET` and `JMP`

The statement's clauses under names of their own, and one lemma for each that any word of `emitThen` can use. -/

/-- A word with an emission pushes it and stands in its decision. -/
def OpensWord (s : State) (d : Fin 16) (k : Fin 256) (e : Emit) (i : Instr) (op : Nat) : Prop :=
  let f := theFlow s d k
  Dispatches s d k i → e.ecount ≠ 0 → ∃ g, exec i s = .next (setFlow s d (flowOf s d k) g) ∧
    Plays f g e e.ecount.toNat ∧ g.waits = .word op f.nextV ∧ g.nsa = f.nsa + 1 ∧ g.loops = f.loops ∧ g.stack = f.stack ∧
    g.tset = f.tset ∧ g.mask = f.mask ∧ g.item = f.item ∧ g.acts = f.acts

/-- The rings `ri` are those of `s`, but that the streams of `pins` go back to the marks of the level, where one is named. -/
def Rewinds (s : State) (pins : List Nat) (level : Option Loop) (ri : Tbl PinRing) (g : Flow) : Prop :=
  (level = none → ri = s.rings) ∧
  ∀ l, level = some l → (∀ ch, ch ∉ pins → tget .init ri ch = getRing s ch) ∧
    ∀ ch ∈ pins, tget .init ri ch = rewindRing (getRing s ch) (tget 0 l.marks ch) ∧ tget 0 g.pos ch = tget 0 l.marks ch

/-- A word acts, at once where it emits nothing and otherwise once its emission is in the slots: it changes the rings as
`Rewinds` says and the flow as `does` says, which is told the word's address and the address that follows. -/
def ActsInFlow (s : State) (d : Fin 16) (k : Fin 256) (e : Emit) (i : Instr) (op : Nat) (level : Option Loop)
    (does : Nat → Nat → Flow → Prop) : Prop :=
  let f := theFlow s d k
  let ends (g : Flow) : Prop := ∃ ri, exec i s = .next (setFlow { s with rings := ri } d (flowOf s d k) g) ∧
    (g.tset = f.tset ∧ g.mask = f.mask ∧ g.item = f.item ∧ g.acts = f.acts) ∧ g.waits = .none ∧
    Rewinds s (flowPins (getDom s d).payload (flowOf s d k)) level ri g
  (Dispatches s d k i → e.ecount = 0 → ∃ g, ends g ∧ Plays f g e 0 ∧ does f.nsa (f.nsa + 1) g) ∧
  (Finishes s d k i op → ∃ g, ends g ∧ g.sa = f.sa ∧ g.queue = f.queue ∧ g.nextV = f.nextV ∧ does f.sa f.nsa g)

/-- The flow `f` with other levels, call stack, NSA, stream positions and released marks. -/
def Redirected (f g : Flow) : Prop :=
  g = { f with loops := g.loops, stack := g.stack, nsa := g.nsa, pos := g.pos, freed := g.freed }

theorem rewinds_none (s : State) (pins : List Nat) (g : Flow) : Rewinds s pins none s.rings g := ⟨fun _ => rfl, nofun⟩

theorem rewinds_rewindRings (s : State) (pins : List Nat) (l : Loop) (f g : Flow) (hpos : g.pos = rewindTo pins l.marks f.pos) :
    Rewinds s pins (some l) (rewindRings s pins l.marks).rings g := by
  refine ⟨nofun, ?_⟩
  rintro _ ⟨⟩
  have ring := getRing_rewindRings s pins l.marks
  refine ⟨fun ch hch => (ring ch).trans (if_neg hch), fun ch hch => ⟨(ring ch).trans (if_pos hch), ?_⟩⟩
  rw [hpos, tget_rewindTo, if_pos hch]

section
variable {s : State} {d : Fin 16} {k : Fin 256} {i : Instr} {op base : Nat} {e : Emit}
  {act : Bool → State → Nat → Flow → State}

theorem opensWord_of_emitThen (hx : exec i s = .next (emitThen s d k i op base e act)) : OpensWord s d k e i op := by
  unfold OpensWord
  intro f h he
  refine ⟨_, hx.trans (congrArg _ (emitThen_opens h he)), plays_push s d _ f e e.ecount.toNat 0, rfl, ?_⟩
  obtain ⟨q, v, l, p, hg⟩ := push_frame s d (flowOf s d k) (fetched f) e.src e.sym.toNat e.ecount.toNat 0 0 0
  simp only [charged, emit, f, hg]
  exact ⟨rfl, rfl, rfl, rfl, rfl, rfl, rfl⟩

/-- What a word of `emitThen` does follows from what its act does on a flow with the levels, the call stack and the stream
positions of the engine's; the flow it acts on differs in whether the word was just fetched or its emission just ended. -/
theorem actsInFlow_of_emitThen {level : Option Loop} {does : Nat → Nat → Flow → Prop}
    (hx : exec i s = .next (emitThen s d k i op base e act)) (hcosts : ∀ a n g c, does a n g → does a n { g with costs := c })
    (hact : ∀ late f, f.loops = (theFlow s d k).loops → f.stack = (theFlow s d k).stack → f.pos = (theFlow s d k).pos →
      ∃ ri g, act late s (flowOf s d k) f = setFlow { s with rings := ri } d (flowOf s d k) g ∧ Redirected f g ∧
        Rewinds s (flowPins (getDom s d).payload (flowOf s d k)) level ri g ∧ does f.sa f.nsa g) :
    ActsInFlow s d k e i op level does := by
  unfold ActsInFlow
  intro f ends
  constructor
  · intro h he
    obtain ⟨ri, g, hset, hg, hrewinds, hdoes⟩ := hact false (fetched f) rfl rfl rfl
    refine ⟨charged g base f.nextV, ⟨ri, by rw [hx, emitThen_acts_at_once h he, hset, charge_setFlow], ?_, ?_, hrewinds⟩, ?_,
      hcosts _ _ _ _ hdoes⟩ <;> rw [hg]
    · exact ⟨rfl, rfl, rfl, rfl⟩
    · exact h.waits
    · exact ⟨rfl, rfl, fun _ => rfl, nofun⟩
  · intro h
    obtain ⟨ri, g, hset, hg, hrewinds, hdoes⟩ := hact true { f with waits := .none } rfl rfl rfl
    refine ⟨g, ⟨ri, by rw [hx, emitThen_acts_late h, hset], ?_, ?_, hrewinds⟩, ?_, ?_, ?_, hdoes⟩ <;> rw [hg]
    exact ⟨rfl, rfl, rfl, rfl⟩

end

theorem orError_none (s : State) (d k fi : Nat) (f : Flow) (late : Bool) (act : State) :
    orError s d k fi f late none act = act := rfl

/-- `ENDL` meets no error in a flow with the levels and the call stack of one that has a level of its own frame open. -/
theorem endlKind_none {f f' : Flow} (hbase : frameBase f' < f'.loops.length) (hloops : f.loops = f'.loops)
    (hstack : f.stack = f'.stack) : endlKind f = none := by
  have frame : frameBase f = frameBase f' := by rw [frameBase, frameBase, hstack]
  exact if_neg (by rw [frame, hloops]; omega)

section
variable (s : State) (d : Fin 16) (k : Fin 256) (e : Emit)

theorem loop_acts (count : Nat) (h : (theFlow s d k).loops.length < 8) :
    ActsInFlow s d k e (.loop d k e count) 0x04 none (fun a next g =>
      g.loops = { count := count, addr := a + 1, marks := (theFlow s d k).pos } :: (theFlow s d k).loops ∧
        g.stack = (theFlow s d k).stack ∧ g.nsa = next) := by
  refine actsInFlow_of_emitThen rfl (fun _ _ _ _ h => h) (fun late f hloops hstack hpos => ?_)
  have clean : loopKind f = none := if_neg (by rw [hloops]; omega)
  rw [clean, orError_none]
  refine ⟨s.rings, _, rfl, rfl, rewinds_none .., ?_⟩
  exact ⟨by rw [← hloops, ← hpos], hstack, rfl⟩

section
variable {l : Loop} {r : List Loop} (hl : (theFlow s d k).loops = l :: r)
  (hbase : frameBase (theFlow s d k) < (theFlow s d k).loops.length)
include hl hbase

theorem endl_closes_last (h : l.count ≤ 1) :
    ActsInFlow s d k e (.endl d k e) 0x05 none (fun _ next g =>
      g.loops = r ∧ g.stack = (theFlow s d k).stack ∧ g.nsa = next) := by
  refine actsInFlow_of_emitThen rfl (fun _ _ _ _ h => h) (fun late f hloops hstack hpos => ?_)
  have levels : f.loops = l :: r := hloops.trans hl
  rw [endlKind_none hbase hloops hstack, orError_none]
  simp only [levels, if_pos h]
  refine ⟨s.rings, _, rfl, rfl, rewinds_none .., ?_⟩
  exact ⟨by simp [closeLevels, levels], hstack, rfl⟩

theorem endl_repeats (h : 1 < l.count) :
    ActsInFlow s d k e (.endl d k e) 0x05 (some l) (fun _ _ g =>
      g.loops = { l with count := l.count - 1 } :: r ∧ g.stack = (theFlow s d k).stack ∧ g.nsa = l.addr) := by
  refine actsInFlow_of_emitThen rfl (fun _ _ _ _ h => h) (fun late f hloops hstack hpos => ?_)
  have levels : f.loops = l :: r := hloops.trans hl
  rw [endlKind_none hbase hloops hstack, orError_none]
  simp only [levels, if_neg (Nat.not_le.mpr h)]
  rw [rewindRings_frame]
  exact ⟨_, _, rfl, rfl, rewinds_rewindRings s _ l f _ rfl, rfl, hstack, rfl⟩

end

theorem call_acts (target : Nat) (h : (theFlow s d k).stack.length < 16) :
    ActsInFlow s d k e (.call d k e target) 0x08 none (fun a _ g =>
      g.stack = (a + 1, (theFlow s d k).loops.length) :: (theFlow s d k).stack ∧
        g.loops = (theFlow s d k).loops ∧ g.nsa = target) := by
  refine actsInFlow_of_emitThen rfl (fun _ _ _ _ h => h) (fun late f hloops hstack hpos => ?_)
  have clean : callKind f = none := if_neg (by rw [hstack]; omega)
  rw [clean, orError_none]
  refine ⟨s.rings, _, rfl, rfl, rewinds_none .., ?_⟩
  exact ⟨by rw [← hloops, ← hstack], hloops, rfl⟩

theorem ret_acts {a : Nat} {r : List (Nat × Nat)} (h : (theFlow s d k).stack = (a, (theFlow s d k).loops.length) :: r) :
    ActsInFlow s d k e (.ret d k e) 0x09 none (fun _ _ g =>
      g.stack = r ∧ g.loops = (theFlow s d k).loops ∧ g.nsa = a) := by
  refine actsInFlow_of_emitThen rfl (fun _ _ _ _ h => h) (fun late f hloops hstack hpos => ?_)
  have entries : f.stack = (a, f.loops.length) :: r := by rw [hstack, hloops, h]
  have clean : retKind f = none := by simp [retKind, entries]
  rw [clean, orError_none]
  simp only [entries]
  exact ⟨s.rings, _, rfl, rfl, rewinds_none .., rfl, hloops, rfl⟩

theorem jmp_acts (target lpop : Nat) (h : lpop ≤ (theFlow s d k).loops.length) :
    ActsInFlow s d k e (.jmp d k e target lpop) 0x0A none (fun _ _ g =>
      g.stack = (theFlow s d k).stack ∧ g.loops = (theFlow s d k).loops.drop lpop ∧ g.nsa = target) := by
  refine actsInFlow_of_emitThen rfl (fun _ _ _ _ h => h) (fun late f hloops hstack hpos => ?_)
  have clean : popKind f lpop = none := if_neg (by rw [hloops]; omega)
  rw [branch, clean, orError_none]
  refine ⟨s.rings, _, rfl, rfl, rewinds_none .., ?_⟩
  exact ⟨hstack, by rw [← hloops]; rfl, rfl⟩

end

/-- Settles O11: each word is an `emitThen`, so `opensWord_of_emitThen` opens it; what it then does is a lemma for each word. -/
theorem controlWordsAct : Obligations.ControlWordsAct := by
  intro s d k e f fi pins same opens acts
  have opened {i : Instr} {op base : Nat} {act : Bool → State → Nat → Flow → State}
      (hx : exec i s = .next (emitThen s d k i op base e act)) : opens i op := opensWord_of_emitThen hx
  exact ⟨fun count => ⟨opened rfl, loop_acts s d k e count⟩,
    ⟨opened rfl, fun l r hl hbase => ⟨endl_closes_last s d k e hl hbase, endl_repeats s d k e hl hbase⟩⟩,
    fun target => ⟨opened rfl, call_acts s d k e target⟩,
    ⟨opened rfl, fun a r h => ret_acts s d k e h⟩,
    fun target lpop => ⟨opened rfl, jmp_acts s d k e target lpop⟩⟩

end Sys2Proof.Machine
end

section
/-! SUPPORT. The fault latch (R393 to R397, R407): what a fault source does in a Running device, while the merge window is open,
and once it has closed. -/

namespace Sys2Proof.Machine

/-! ### The safe state (R397) -/

theorem safeState_keeps (s : State) :
    (safeState s).anvil = { s.anvil with twinkleOn := false } ∧ (safeState s).owner = false ∧ (safeState s).memo = [] ∧
      (safeState s).ledger = s.ledger ∧ (safeState s).queues = s.queues :=
  ⟨rfl, rfl, rfl, rfl, rfl⟩

theorem getPin_safeState (s : State) (ch : Nat) : getPin (safeState s) ch = parkPin (getPin s ch) :=
  tget_tmap s.pins (fun _ p => parkPin p) ch rfl

theorem halted_safeState (s : State) (d : Nat) (h : (getDom s d).phase ≠ .free) : (getDom (safeState s) d).halted = true := by
  have mapped : getDom (safeState s) d = if (getDom s d).phase = .free then getDom s d else { getDom s d with halted := true } :=
    tget_tmap s.doms (fun _ x => if x.phase = .free then x else { x with halted := true }) d rfl
  rw [mapped, if_neg h]

/-! ### The latch (R393) -/

theorem latchNow_faulted (s : State) (src arg : Nat) : Faulted (latchNow s src arg) src := by
  refine ⟨rfl, rfl, rfl, rfl, rfl, fun ch => ?_⟩
  unfold latchNow
  rw [getPin_safeState]
  exact ⟨rfl, rfl, rfl⟩

/-- The latch record counts the fault, carries its argument and minimum level and starts without a merge or an overflow. -/
theorem latchNow_record (s : State) (src arg : Nat) :
    (latchNow s src arg).anvil.argument = arg ∧ (latchNow s src arg).anvil.minLevel = faultLevel src ∧
      (latchNow s src arg).anvil.faultSeq = s.anvil.faultSeq + 1 ∧ (latchNow s src arg).anvil.mergeCount = 0 ∧
      (latchNow s src arg).anvil.overflow = false :=
  ⟨rfl, rfl, rfl, rfl, rfl⟩

/-- The time latched lies in the present NCLK period, which is 409600 ftu long. -/
theorem latchNow_time (s : State) (src arg : Nat) : ∃ e, e < 409600 ∧ (latchNow s src arg).anvil.time = stampNow s e :=
  ⟨(drawFree s).1 % 409600, Nat.mod_lt _ (by decide), rfl⟩

theorem latchNow_halts (s : State) (src arg d : Nat) (h : (getDom s d).phase ≠ .free) :
    (getDom (latchNow s src arg) d).halted = true :=
  halted_safeState _ d h

/-! ### The merge (R394) -/

/-- A source that cannot take the place of the latched one leaves the latched source and argument. -/
theorem mergeFault_behind (s : State) (src arg : Nat) (h : s.anvil.source ≤ src ∨ s.anvil.latchAt ≠ s.now) :
    mergeFault s src arg = { s with anvil := { s.anvil with
      mergeCount := min (s.anvil.mergeCount + 1) 255
      merged := if s.anvil.merged.length < 8 then s.anvil.merged ++ [src] else s.anvil.merged
      minLevel := max s.anvil.minLevel (faultLevel src) } } := by
  have behind : ¬ (src < s.anvil.source ∧ s.anvil.latchAt = s.now) := by omega
  unfold mergeFault
  dsimp only
  rw [if_neg behind]
  rfl

theorem mergeFault_source (s : State) (src arg : Nat) :
    (mergeFault s src arg).anvil.source = s.anvil.source ∨ (mergeFault s src arg).anvil.source = src := by
  have picked (first : Bool) : (if first then src else s.anvil.source) = s.anvil.source ∨
      (if first then src else s.anvil.source) = src := by
    cases first with
    | false => exact .inl rfl
    | true => exact .inr rfl
  exact picked _

theorem mergeFault_counts (s : State) (src arg : Nat) :
    (mergeFault s src arg).anvil.mergeCount = min (s.anvil.mergeCount + 1) 255 ∧
      (mergeFault s src arg).anvil.minLevel = max s.anvil.minLevel (faultLevel src) :=
  ⟨rfl, rfl⟩

/-! ### RECOVERY_NOTICE (R408) -/

theorem length_recoveryPayload (s : State) (result level flags : Nat) :
    (recoveryPayload s result level flags).length = 64 + s.anvil.overCodes.length * 2 := by
  simp only [recoveryPayload, codeList, time12, le, List.length_append, List.length_cons, List.length_nil, List.length_flatten,
    List.map_map, Function.comp_def, List.map_const', List.length_range, List.sum_replicate_nat]

theorem result_recoveryPayload (s : State) (result level flags : Nat) :
    fld (recoveryPayload s result level flags) 0 1 = result % 256 :=
  have first : fld (recoveryPayload s result level flags) 0 1 = (BitVec.ofNat 8 result).toNat := rfl
  first.trans (BitVec.toNat_ofNat result 8)

/-- A queue with room for a payload has room for a shorter one. -/
theorem fits_of_le {x : Queue} {p n : Nat} (hle : p ≤ n) (h : fits x n = true) : fits x p = true := by
  have hroom : takenLines x + frameLines n + 1 ≤ x.lines := of_decide_eq_true h
  have hlines : frameLines p ≤ frameLines n := Nat.div_le_div_right (by omega)
  exact decide_eq_true (show takenLines x + frameLines p + 1 ≤ x.lines by omega)

/-- With at most 8 overflow codes listed, the notice joins a queue 16 that takes 256 bytes, and nothing of the latch changes. -/
theorem recoveryNotice_joins (s : State) (result level flags : Nat) (ht : Takes s 16 256) (hc : s.anvil.overCodes.length ≤ 8) :
    (recoveryNotice s result level flags).anvil = s.anvil ∧
      ∃ k, (getQueue (recoveryNotice s result level flags) 16).packets = (getQueue s 16).packets ++ [k] ∧ k.ty = 0x4A ∧
        k.payload = recoveryPayload s result level flags := by
  obtain ⟨hwindow, hstopped, hlines, hroom⟩ := ht
  have short : (recoveryPayload s result level flags).length ≤ 256 := by rw [length_recoveryPayload]; omega
  unfold recoveryNotice
  rw [commitFrame_fits s 16 0x4A 0 0 _ hwindow hstopped hlines (fits_of_le short hroom)]
  exact ⟨rfl, _, congrArg Queue.packets (getQueue_setQueue s 16 _), rfl, rfl⟩

/-! ### The overflow (R395, R407) -/

/-- The latch record once a source counts as overflow: the latched fault stands. -/
def overflowed (a : Anvil) (src : Nat) : Anvil := { a with
  overflow := true
  overflowCount := min (a.overflowCount + 1) 0xFFFF
  overCodes := if a.overCodes.length < 8 then a.overCodes ++ [src] else a.overCodes
  minLevel := max a.minLevel (faultLevel src) }

theorem overCodes_overflowed (a : Anvil) (src : Nat) (h : a.overCodes.length < 8) :
    (overflowed a src).overCodes = a.overCodes ++ [src] := if_pos h

theorem length_overCodes_overflowed (a : Anvil) (src : Nat) (h : a.overCodes.length ≤ 8) :
    (overflowed a src).overCodes.length ≤ 8 := by
  unfold overflowed
  dsimp only
  split
  · rw [List.length_append, List.length_singleton]; omega
  · exact h

theorem overflowFault_outside_recovery (s : State) (src : Nat) (h : s.anvil.state ≠ .recovering) :
    overflowFault s src = { s with anvil := overflowed s.anvil src } :=
  if_neg (fun hr => h hr.1)

/-- In a recovery that no start has taken over, a source other than a Nimbus fault ends it with result 0x04. -/
theorem overflowFault_in_recovery (s : State) (src : Nat) (h : s.anvil.state = .recovering) (hb : s.boot.state ≠ 0)
    (hn : ¬ (src = 0x1001 ∨ src = 0x1002)) :
    overflowFault s src =
      recoveryNotice { s with anvil := { overflowed s.anvil src with state := .faulted } } 4 s.anvil.level 0 :=
  (if_pos ⟨h, hb⟩).trans (if_neg hn)

/-! ### A source in each state of the device -/

theorem latchFault_of_running (s : State) (src arg : Nat) (h : s.anvil.state = .running) :
    latchFault s src arg = latchNow s src arg := if_pos h

theorem latchFault_of_open (s : State) (src arg : Nat) (h : s.anvil.state ≠ .running) (hw : s.anvil.window = true) :
    latchFault s src arg = mergeFault s src arg := (if_neg h).trans (if_pos hw)

theorem latchFault_of_closed (s : State) (src arg : Nat) (h : s.anvil.state ≠ .running) (hw : s.anvil.window = false) :
    latchFault s src arg = overflowFault s src := (if_neg h).trans (if_neg (by rw [hw]; decide))

/-! ### The conflict of the pair (R446) -/

theorem exec_pairOwnConflict_of_shadow (s : State) (h : s.owner = false) :
    exec .pairOwnConflict s = .next { s with ownIn := true } := if_neg (ne_true_of_eq_false h)

theorem exec_pairOwnConflict_of_owner (s : State) (h : s.owner = true) :
    exec .pairOwnConflict s = .next (latchFault { s with ownIn := true } 0x1103 0) := if_pos h

/-- Settles O52: what the owner meets is `latchFault` of 0x1103, which latches, merges or overflows with the state of the device. -/
theorem faultsLatchMergeOverflow : Obligations.FaultsLatchMergeOverflow := by
  intro s a merges overrun
  refine ⟨exec_pairOwnConflict_of_shadow s, fun howner => ?_⟩
  rw [exec_pairOwnConflict_of_owner s howner]
  let u : State := { s with ownIn := true }
  have counts : overrun { u with anvil := overflowed a 0x1103 } := ⟨rfl, rfl, rfl, rfl, overCodes_overflowed a 0x1103⟩
  refine ⟨fun hrun => ?_, fun hstate hopen => ?_, fun hstate hclosed => ?_, fun hstate hboot htakes hcodes => ?_⟩
  · obtain ⟨hargument, hlevel, hseq, hmerges, hoverflow⟩ := latchNow_record u 0x1103 0
    rw [latchFault_of_running u 0x1103 0 hrun]
    exact ⟨_, rfl, latchNow_faulted u 0x1103 0, hargument, hlevel, latchNow_time u 0x1103 0, hseq, hmerges, hoverflow, rfl,
      fun d => latchNow_halts u 0x1103 0 d, rfl, rfl⟩
  · rw [latchFault_of_open u 0x1103 0 hstate hopen]
    exact ⟨fun hbehind => ⟨_, rfl, mergeFault_behind u 0x1103 0 hbehind⟩,
      ⟨_, rfl, mergeFault_source u 0x1103 0, mergeFault_counts u 0x1103 0⟩⟩
  · have hrec : u.anvil.state ≠ .recovering := fun h => nomatch hstate.symm.trans h
    rw [latchFault_of_closed u 0x1103 0 (fun h => nomatch hstate.symm.trans h) hclosed, overflowFault_outside_recovery u 0x1103 hrec]
    exact ⟨_, rfl, counts, hstate, true, overflowed a 0x1103, rfl⟩
  · have hstart : u.boot.state ≠ 0 := by rw [show u.boot.state = 1 from hboot]; decide
    rw [latchFault_of_closed u 0x1103 0 (fun h => nomatch hstate.symm.trans h) htakes.1,
      overflowFault_in_recovery u 0x1103 hstate hstart (by decide)]
    obtain ⟨hanvil, k, hjoined, hty, hpayload⟩ :=
      recoveryNotice_joins { u with anvil := { overflowed a 0x1103 with state := .faulted } } 4 a.level 0 htakes
        (length_overCodes_overflowed a 0x1103 hcodes)
    have hresult : fld k.payload 0 1 = 4 := by rw [hpayload, result_recoveryPayload]
    refine ⟨_, k, rfl, ?_, by rw [hanvil], hjoined, hty, hresult⟩
    show overrun (recoveryNotice { u with anvil := { overflowed a 0x1103 with state := .faulted } } 4 a.level 0)
    simp only [overrun, hanvil]
    exact counts

end Sys2Proof.Machine
end
